-- ==== Sys2Proof/Word.lean ====
section
/-! DEFINITION. The word types of the fabric and the shape of its sparse tables. -/
namespace Sys2Proof

/-- A register of the Hub Control Space and a host-memory word (00 R5, R9). -/
abbrev Word := BitVec 32
/-- The native word of the design: INTIDs, rank keys, samples, clause words (00 R7). -/
abbrev Word24 := BitVec 24
/-- A host-memory byte. -/
abbrev Byte := BitVec 8
/-- A time base value, a State Store entry as stored, a slot table. -/
abbrev Dword := BitVec 64

/-- A sparse table: rising keys, and no entry that equals the table's default value, so that equal
contents are equal data. The default is named where a table is read or written. -/
abbrev Tab (α : Type) := List (Nat × α)

/-- A set of numbers, rising and without repeats: the bitmaps of the fabric. -/
abbrev NSet := List Nat

end Sys2Proof
end

