-- ==== Sys2Proof/Syntax.lean ====
section
/-! DEFINITION. The commands of the block: one constructor per row of spec/opcode_table.json, with its operands. -/
namespace Sys2Proof

/-- Whether a beat of a record carried a check error (02 R50). -/
inductive BeatEcc where
  | clean
  /-- a single-bit error at this bit, which the Hub corrects -/
  | single (bit : Nat)
  | double
  deriving DecidableEq, Repr

/-- The eight beats of a message record with the framing and check signals beside them (02 R44, R45, R50). -/
structure MsgRec where
  /-- MIPn_DATA of the eight beats, beat 0 first -/
  beats : List Word
  /-- MIPn_SOM beat by beat, bit k for beat k -/
  som : BitVec 8 := 1
  /-- MIPn_VALID beat by beat -/
  vld : BitVec 8 := 255
  /-- MIPn_CHK of beats 0 to 3 -/
  chk : List (BitVec 7) := []
  /-- outcome of the SECDED code on beats 4 to 7 -/
  ecc : List BeatEcc := []
  deriving DecidableEq, Repr

/-- A ring pair, by its manager number or its guest domain (10 R364). -/
inductive RingId where
  | mgr (m : Nat)
  | guest (d : Nat)
  deriving DecidableEq, Repr

/-- A ring that can drain: a ring pair, or a domain's Event Log Queue (10 R391). -/
inductive RingSel where
  | pair (r : RingId)
  | elq (d : Nat)
  deriving DecidableEq, Repr

/-- Who makes a register access: a fabric source identifier at FP4, or the debug agent through DBG_REG
(14 R536, 15 R558). -/
inductive Src where
  | fp4 (id : BitVec 8)
  | debug
  deriving DecidableEq, Repr

/-- What an OWN-class message tells (12 R462, R466). -/
inductive OwnBody where
  /-- whether virtual context `v` of a domain runs at its home Hub -/
  | runs (dom v : Nat) (run : Bool)
  /-- the offset the peer measured, negated -/
  | offset (val : Word)
  deriving DecidableEq, Repr

/-- Fields of a FWD message, Table 12-1 (12 R454). -/
structure FwdMsg where
  stt : Nat
  mapgen : BitVec 8
  gen : BitVec 8
  domid : Nat
  vintid : Word24
  v : Nat
  cls : BitVec 2
  prio : BitVec 8
  stamp : BitVec 14
  dl : Nat
  proxy : Nat
  deriving DecidableEq, Repr

/-- The commands, in the table's order. Each docstring is the row's name and the rule the table gives for it. -/
inductive Instr where
  /-- MESSAGE_RECORD (R130) -/
  | messageRecord (mip : Nat) (msg : MsgRec)
  /-- WIRED_LINE_CHANGE (R140): the line takes a level, which its synchroniser samples this many times; with 5 samples every
  stage holds it -/
  | wiredLineChange (wlp line : Nat) (level : Bool) (samples : Nat := 5)
  /-- WIRED_LANE_TURN (R142) -/
  | wiredLaneTurn (group : Nat)
  /-- INTERNAL_REPORT (R143) -/
  | internalReport (k : Nat)
  /-- ARRIVAL_STATE_UPDATE (R96) -/
  | arrivalStateUpdate (bank : Nat)
  /-- SPILL_PATH_UPDATE (R158) -/
  | spillPathUpdate
  /-- SPILL_BITMAP_TAKE (R613) -/
  | spillBitmapTake
  /-- RUN_START (R272) -/
  | runStart (cluster : Nat)
  /-- MOV (R324) -/
  | clMov (cluster engine : Nat)
  /-- LDI (R324) -/
  | clLdi (cluster engine : Nat)
  /-- LUH (R324) -/
  | clLuh (cluster engine : Nat)
  /-- ADD (R324) -/
  | clAdd (cluster engine : Nat)
  /-- SUB (R324) -/
  | clSub (cluster engine : Nat)
  /-- ADDI (R324) -/
  | clAddi (cluster engine : Nat)
  /-- CMP (R324) -/
  | clCmp (cluster engine : Nat)
  /-- CMPI (R324) -/
  | clCmpi (cluster engine : Nat)
  /-- AND (R324) -/
  | clAnd (cluster engine : Nat)
  /-- OR (R324) -/
  | clOr (cluster engine : Nat)
  /-- XOR (R324) -/
  | clXor (cluster engine : Nat)
  /-- ANDI (R324) -/
  | clAndi (cluster engine : Nat)
  /-- ORI (R324) -/
  | clOri (cluster engine : Nat)
  /-- SHL (R324) -/
  | clShl (cluster engine : Nat)
  /-- SHR (R324) -/
  | clShr (cluster engine : Nat)
  /-- SAR (R324) -/
  | clSar (cluster engine : Nat)
  /-- MULU (R324) -/
  | clMulu (cluster engine : Nat)
  /-- MULS (R324) -/
  | clMuls (cluster engine : Nat)
  /-- DIVU (R324) -/
  | clDivu (cluster engine : Nat)
  /-- ABS (R324) -/
  | clAbs (cluster engine : Nat)
  /-- MINS (R324) -/
  | clMins (cluster engine : Nat)
  /-- MAXS (R324) -/
  | clMaxs (cluster engine : Nat)
  /-- MINU (R324) -/
  | clMinu (cluster engine : Nat)
  /-- MAXU (R324) -/
  | clMaxu (cluster engine : Nat)
  /-- EXTU (R324) -/
  | clExtu (cluster engine : Nat)
  /-- LDH (R326) -/
  | clLdh (cluster engine : Nat)
  /-- LDHX (R326) -/
  | clLdhx (cluster engine : Nat)
  /-- STH (R326) -/
  | clSth (cluster engine : Nat)
  /-- STHX (R326) -/
  | clSthx (cluster engine : Nat)
  /-- LDT (R326) -/
  | clLdt (cluster engine : Nat)
  /-- LDTX (R326) -/
  | clLdtx (cluster engine : Nat)
  /-- CMPT (R326) -/
  | clCmpt (cluster engine : Nat)
  /-- XCHH (R326) -/
  | clXchh (cluster engine : Nat)
  /-- ADDH (R326) -/
  | clAddh (cluster engine : Nat)
  /-- BAND (R326) -/
  | clBand (cluster engine : Nat)
  /-- B (R328) -/
  | clB (cluster engine : Nat)
  /-- BBS (R328) -/
  | clBbs (cluster engine : Nat)
  /-- BBC (R328) -/
  | clBbc (cluster engine : Nat)
  /-- EMIT (R329) -/
  | clEmit (cluster engine : Nat)
  /-- EMITR (R329) -/
  | clEmitr (cluster engine : Nat)
  /-- COALESCE (R329) -/
  | clCoalesce (cluster engine : Nat)
  /-- SUPPRESS (R329) -/
  | clSuppress (cluster engine : Nat)
  /-- LOG (R329) -/
  | clLog (cluster engine : Nat)
  /-- TIMER (R329) -/
  | clTimer (cluster engine : Nat)
  /-- END (R332) -/
  | clEnd (cluster engine : Nat)
  /-- CLOSING (R289) -/
  | closing (cluster engine : Nat)
  /-- WATCHDOG_EXPIRY (R306) -/
  | watchdogExpiry (cluster engine : Nat)
  /-- SOURCE_TIMER_EXPIRY (R301) -/
  | sourceTimerExpiry (cluster aidx : Nat)
  /-- GEYSER_FIRE (R203) -/
  | geyserFire (channel : Nat)
  /-- OFFER_RANKING (R178) -/
  | offerRanking
  /-- RE_OFFER_REQUEST (R189) -/
  | reOfferRequest
  /-- PARKED_RESCAN (R189) -/
  | parkedRescan
  /-- POSTED_RESCAN (R427) -/
  | postedRescan
  /-- ROUTE_RESYNC (R195) -/
  | routeResync
  /-- SLOT_FILL (R213) -/
  | slotFill (link : Nat)
  /-- CANDIDATE_FLIT (R235) -/
  | candidateFlit (link : Nat) (err : BitVec 96)
  /-- NAK (R229) -/
  | nak (link : Nat) (atTile : Bool) (err : BitVec 96)
  /-- NAK_REPEAT (R228) -/
  | nakRepeat (link : Nat) (atTile : Bool)
  /-- REPLAY_WAIT_TIMEOUT (R230) -/
  | replayWaitTimeout (link : Nat) (atTile : Bool)
  /-- WDRAW (R241) -/
  | wdraw (link : Nat) (err : BitVec 96)
  /-- WON (R240) -/
  | won (link : Nat) (err : BitVec 96)
  /-- LOST (R240) -/
  | lost (link : Nat) (err : BitVec 96)
  /-- PAUSE (R252) -/
  | pause (link : Nat) (err : BitVec 96)
  /-- PAUSE_ACK (R252) -/
  | pauseAck (link : Nat) (err : BitVec 96)
  /-- QUIESCE (R254) -/
  | quiesce (link : Nat) (err : BitVec 96)
  /-- QACK (R254) -/
  | qack (link : Nat) (err : BitVec 96)
  /-- RESYNC_REQ (R251) -/
  | resyncReq (link : Nat) (err : BitVec 96)
  /-- RSYNC (R251) -/
  | rsync (link : Nat) (err : BitVec 96)
  /-- RSYNC_END (R251) -/
  | rsyncEnd (link : Nat) (err : BitVec 96)
  /-- CLEAR (R251) -/
  | clear (link : Nat) (err : BitVec 96)
  /-- DROP (R251) -/
  | drop (link : Nat) (err : BitVec 96)
  /-- TRAINED (R250) -/
  | trained (link : Nat) (err : BitVec 96)
  /-- TRAINING_TIMEOUT (R250) -/
  | trainingTimeout (link : Nat)
  /-- RELEASED (R233) -/
  | released (link : Nat) (err : BitVec 96)
  /-- CLAIMED (R113) -/
  | claimed (link : Nat) (err : BitVec 96)
  /-- CLAIMREQ (R120) -/
  | claimReq (link : Nat) (err : BitVec 96)
  /-- COMPLETE_NOTICE (R116) -/
  | completeNotice (link : Nat) (err : BitVec 96)
  /-- VCTX_SWITCH_END (R421) -/
  | vctxSwitchEnd (m : Nat)
  /-- CTXSTAT (R175) -/
  | ctxstat (link : Nat) (err : BitVec 96)
  /-- CFAULT (R118) -/
  | cfault (link : Nat) (err : BitVec 96)
  /-- UNPOP (R237) -/
  | unpop (link : Nat) (err : BitVec 96)
  /-- CLAIM_READ (R238) -/
  | claimRead (ctx off size : Nat)
  /-- COMPLETE_WRITE (R116) -/
  | completeWrite (ctx off size : Nat) (val : Word)
  /-- FLOOR_WRITE (R172) -/
  | floorWrite (ctx size : Nat) (val : Word)
  /-- WAKE_PATTERN (R257) -/
  | wakePattern (link : Nat) (atTile : Bool)
  /-- WAKE_PATTERN_REPEAT (R257) -/
  | wakePatternRepeat (link : Nat)
  /-- TILE_LOSS (R258) -/
  | tileLoss (link : Nat)
  /-- HUB_RESET_DETECT (R581) -/
  | hubResetDetect (tile : Nat)
  /-- MAP_SOURCE (R377) -/
  | mapSource (ring : RingId)
  /-- UNMAP_SOURCE (R119) -/
  | unmapSource (ring : RingId)
  /-- SET_ROUTE (R200) -/
  | setRoute (ring : RingId)
  /-- SET_CLASS (R342) -/
  | setClass (ring : RingId)
  /-- SET_ENVELOPE (R147) -/
  | setEnvelope (ring : RingId)
  /-- LOAD_CLAUSE (R336) -/
  | loadClause (ring : RingId)
  /-- ATTACH_CLAUSE (R267) -/
  | attachClause (ring : RingId)
  /-- RESERVE_SLOTS (R216) -/
  | reserveSlots (ring : RingId)
  /-- SLOT_TABLE_LIVE (R217) -/
  | slotTableLive (link : Nat)
  /-- SET_RESIDENCY (R161) -/
  | setResidency (ring : RingId)
  /-- SET_TIMER (R299) -/
  | setTimer (ring : RingId)
  /-- SET_SHARE (R409) -/
  | setShare (ring : RingId)
  /-- STAGE_BEGIN (R386) -/
  | stageBegin (ring : RingId)
  /-- COMMIT (R344) -/
  | commit (ring : RingId)
  /-- COMMIT_SWITCH (R217) -/
  | commitSwitch
  /-- ABANDON (R197) -/
  | abandon (ring : RingId)
  /-- FENCE (R384) -/
  | fence (ring : RingId)
  /-- FREEZE_DOMAIN (R437) -/
  | freezeDomain (ring : RingId)
  /-- FREEZE_BOUNDARY (R438) -/
  | freezeBoundary (dom : Nat)
  /-- SNAPSHOT_DOMAIN (R441) -/
  | snapshotDomain (ring : RingId)
  /-- RESTORE_DOMAIN (R444) -/
  | restoreDomain (ring : RingId)
  /-- THAW_DOMAIN (R448) -/
  | thawDomain (ring : RingId)
  /-- RESET_DOMAIN (R432) -/
  | resetDomain (ring : RingId)
  /-- SEND_CORE_MSG (R205) -/
  | sendCoreMsg (ring : RingId)
  /-- QUERY_STATE (R379) -/
  | queryState (ring : RingId)
  /-- CACHE_FLUSH (R399) -/
  | cacheFlush (ring : RingId)
  /-- CACHE_INVALIDATE (R400) -/
  | cacheInvalidate (ring : RingId)
  /-- GCMD_PSEQ (R370) -/
  | gcmdPseq (dom size : Nat) (val : Word) (parityError : Bool)
  /-- GCPL_CSEQ (R370) -/
  | gcplCseq (dom size : Nat) (val : Word) (parityError : Bool)
  /-- ELQ_CSEQ (R390) -/
  | elqCseq (dom size : Nat) (val : Word) (parityError : Bool)
  /-- MCMD_PSEQ (R370) -/
  | mcmdPseq (m size : Nat) (val : Word) (parityError : Bool)
  /-- MCPL_CSEQ (R370) -/
  | mcplCseq (m size : Nat) (val : Word) (parityError : Bool)
  /-- RING_ENABLE (R391) -/
  | ringEnable (src : Src) (m agent : Nat)
  /-- RING_DISABLE (R391) -/
  | ringDisable (src : Src) (m agent : Nat)
  /-- RING_DRAIN_END (R391) -/
  | ringDrainEnd (r : RingSel)
  /-- CACHE_ENABLE (R403) -/
  | cacheEnable (src : Src)
  /-- CACHE_DISABLE (R401) -/
  | cacheDisable (src : Src)
  /-- CACHE_DRAIN_END (R401) -/
  | cacheDrainEnd
  /-- LINE_FILL (R396) -/
  | lineFill (line : Nat)
  /-- LINE_WRITEBACK_ACK (R397) -/
  | lineWritebackAck (line : Nat)
  /-- HOST_ACCESS_RETRY (R522) -/
  | hostAccessRetry (line : Nat)
  /-- CLUSTER_DISABLE (R311) -/
  | clusterDisable (src : Src) (cluster rsv : Nat)
  /-- CLUSTER_ENABLE (R313) -/
  | clusterEnable (src : Src) (cluster rsv : Nat)
  /-- CLUSTER_DRAIN_END (R311) -/
  | clusterDrainEnd (cluster : Nat)
  /-- ENGINE_REVIVE (R308) -/
  | engineRevive (src : Src) (cluster : Nat) (mask : BitVec 16)
  /-- OPCTL_TARGET_WRITE (R29) -/
  | opctlTargetWrite (src : Src) (target floor : BitVec 2)
  /-- OP_SWITCH (R28) -/
  | opSwitch
  /-- AVS_ACK (R83): the CRC errors that the slave reported, its voltage-done status and the target read back, in mV; left out,
  the answer to the nominal voltage of OP2 -/
  | avsAck (crcErrors : Nat := 0) (done : Bool := true) (readBack : Nat := 580)
  /-- AVS_TIMEOUT (R509) -/
  | avsTimeout
  /-- PLL_LOCK_LOSS (R34) -/
  | pllLockLoss
  /-- BYPASS_RELOCK_ATTEMPT (R37) -/
  | bypassRelockAttempt
  /-- PLL_LOCK (R25) -/
  | pllLock
  /-- TIME_BASE_INVALID (R78) -/
  | timeBaseInvalid
  /-- AGING_MONITOR_READ (R511) -/
  | agingMonitorRead (need : Nat)
  /-- POWER_REQ_IDLE (R485) -/
  | powerReqIdle (src : Src) (autoIdle : Bool) (dly : BitVec 10)
  /-- POWER_REQ_SLEEP (R485) -/
  | powerReqSleep (src : Src) (autoIdle : Bool) (dly : BitVec 10)
  /-- POWER_REQ_DEEP (R485) -/
  | powerReqDeep (src : Src) (autoIdle : Bool) (dly : BitVec 10)
  /-- POWER_REQ_OFF (R485) -/
  | powerReqOff (src : Src) (autoIdle : Bool) (dly : BitVec 10)
  /-- AUTO_IDLE_REQUEST (R480) -/
  | autoIdleRequest
  /-- CLIENT_POLL (R482) -/
  | clientPoll
  /-- DELAY_TIMEOUT (R483) -/
  | delayTimeout
  /-- OFF_ACKNOWLEDGE (R485) -/
  | offAcknowledge
  /-- PG_IRQ_TIMEOUT (R510) -/
  | pgIrqTimeout
  /-- SUPPLY_LOSS (R580) -/
  | supplyLoss
  /-- POWER_GOOD_RETURN (R580) -/
  | powerGoodReturn
  /-- WAKE_PIN (R492) -/
  | wakePin (pin : Nat) (level : Bool)
  /-- WAKE_ALARM (R493) -/
  | wakeAlarm
  /-- MIP_HELD (R491) -/
  | mipHeld (mip : Nat) (level : Bool)
  /-- ISO_REQUEST (R508) -/
  | isoRequest
  /-- PACKAGE_COLD_RESET (R575) -/
  | packageColdReset (lc : BitVec 2) (bistOk fuseAck : Bool)
  /-- START_TIMEOUT (R589) -/
  | startTimeout
  /-- HUB_WARM_RESET (R578) -/
  | hubWarmReset
  /-- SOFTWARE_RESET (R577) -/
  | softwareReset (src : Src) (key : BitVec 8)
  /-- TILE_AGENT_RESET (R575) -/
  | tileAgentReset (tile : Nat) (low : Bool)
  /-- SCRUB_ALL (R592) -/
  | scrubAll (src : Src)
  /-- SPILL_ALL (R593) -/
  | spillAll (src : Src)
  /-- RESTORE_ALL (R595) -/
  | restoreAll (src : Src)
  /-- SELFTEST (R592) -/
  | selftest (src : Src) (failing : Option Nat)
  /-- OPERATION_END (R592) -/
  | operationEnd
  /-- SCRUB_PERIOD (R533) -/
  | scrubPeriod
  /-- STORE_SCRUB (R535) -/
  | storeScrub
  /-- ENTRY_REBUILD (R518) -/
  | entryRebuild (spilled : Bool) (n : Nat)
  /-- SEQUENCER_RESTART (R521) -/
  | sequencerRestart
  /-- GRANT_REVOKE (R531) -/
  | grantRevoke (bank : Nat)
  /-- ACQUIRE (R538) -/
  | acquire (src : Src) (lease : BitVec 10)
  /-- RENEW (R539) -/
  | renew (src : Src) (lease : BitVec 10)
  /-- RELEASE (R540) -/
  | release (src : Src) (lease : BitVec 10)
  /-- BREAK (R541) -/
  | breakLock (src : Src) (lease : BitVec 10)
  /-- LEASE_EXPIRY (R541) -/
  | leaseExpiry
  /-- AGENT_BIND (R536) -/
  | agentBind (src : Src) (agent : Nat) (srcid : BitVec 8) (valid breaker : Bool)
  /-- INJECTION_ARM (R545) -/
  | injectionArm (src : Src) (points : BitVec 28)
  /-- DEBUG_LEVEL_WRITE (R555) -/
  | debugLevelWrite (src : Src) (level : BitVec 2)
  /-- DEBUG_HALT (R566) -/
  | debugHalt (src : Src) (cl : BitVec 16) (seq : Bool)
  /-- DEBUG_STEP (R566) -/
  | debugStep (src : Src) (cluster engine : Nat)
  /-- MEMORY_WINDOW_OP (R568) -/
  | memoryWindowOp (src : Src) (space : Nat) (write : Bool) (cluster engine : Nat)
  /-- TRACE_CLEAR (R565) -/
  | traceClear (src : Src) (wrap : Bool)
  /-- TRACE_READ (R565) -/
  | traceRead (src : Src)
  /-- DBG_CHAL (R560) -/
  | dbgChal (sh : BitVec 200)
  /-- DBG_RESP (R561) -/
  | dbgResp (sh : BitVec 264)
  /-- DBG_REG (R558) -/
  | dbgReg (sh : BitVec 53)
  /-- TAP_RESET (R557) -/
  | tapReset
  /-- FED_RELOAD (R455) -/
  | fedReload (src : Src) (en : Bool) (hubid : Nat)
  /-- FED_ENABLE_WRITE (R473) -/
  | fedEnableWrite (src : Src) (en : Bool) (hubid : Nat)
  /-- HELLO_TIMER (R458) -/
  | helloTimer
  /-- HELLO (R459) -/
  | hello (peer seq proto fwver hubid fedid : Nat) (digest : Word)
  /-- HELLO_ACK (R459) -/
  | helloAck (peer seq proto fwver hubid fedid : Nat) (digest : Word)
  /-- TIME_MEASURE_TIMER (R462) -/
  | timeMeasureTimer
  /-- TIME_REQ (R462) -/
  | timeReq (peer seq : Nat) (t1 : Dword)
  /-- TIME_RSP (R463) -/
  | timeRsp (peer seq : Nat) (t1 t2 t3 : Dword)
  /-- OWN (R467) -/
  | own (peer seq : Nat) (body : OwnBody)
  /-- LEAVE (R473) -/
  | leave (peer seq cause : Nat)
  /-- ACK (R454) -/
  | zblAck (peer : Nat) (event : Bool) (seq : Nat)
  /-- ZBL_RESEND (R454) -/
  | zblResend (peer : Nat) (event : Bool)
  /-- PEER_LOST (R473) -/
  | peerLost (peer : Nat)
  /-- FWD (R470) -/
  | fwd (peer seq : Nat) (m : FwdMsg)
  /-- ZBL_WDRAW (R470) -/
  | zblWdraw (peer seq proxy : Nat)
  /-- ZBL_RELEASED (R469) -/
  | zblReleased (peer seq proxy : Nat) (gen : BitVec 8)
  /-- ZBL_CLAIMED (R469) -/
  | zblClaimed (peer seq proxy : Nat) (gen : BitVec 8)
  /-- ZBL_COMPLETE (R469) -/
  | zblComplete (peer seq proxy : Nat) (gen : BitVec 8)
  /-- LINK_QUIESCE (R254) -/
  | linkQuiesce (src : Src) (link : Nat) (wakeEn : Bool)
  /-- LINK_SERVICE (R255) -/
  | linkService (src : Src) (link : Nat) (wakeEn : Bool)
  /-- LINK_RETRAIN (R230) -/
  | linkRetrain (src : Src) (link : Nat) (wakeEn : Bool)
  /-- REGISTER_WRITE (R11) -/
  | registerWrite (src : Src) (off size : Nat) (val : Word) (parityError : Bool)
  /-- FETCH_FAULT (R319) -/
  | fetchFault (cluster engine : Nat)
  /-- TIME_BASE_VALID (R78) -/
  | timeBaseValid (tb : Dword)
  /-- ISO_REQUEST_FALL (R508) -/
  | isoRequestFall
  /-- TILE_FRAME_ALIGN (R250) -/
  | tileFrameAlign (link : Nat)
  /-- UPSTREAM_FRAMES_PASSED (R250) -/
  | upstreamFramesPassed (link : Nat)
  /-- TIME_MEASUREMENT_TIMEOUT (R463) -/
  | timeMeasurementTimeout (peer : Nat)
  /-- RESPONSE_CHECK_END (R561) -/
  | responseCheckEnd
  /-- LO_HALF_READ (R603) -/
  | loHalfRead (src : Src) (off size : Nat) (parityError : Bool)
  /-- TAP_INSTRUCTION_UPDATE (R557) -/
  | tapInstructionUpdate (ir : BitVec 8)
  /-- LINE_WRITE_ACK (R441) -/
  | lineWriteAck (line : Nat)
  deriving DecidableEq, Repr

end Sys2Proof
end

