-- ==== Sys2Proof/Decode.lean ====
section
/-! DEFINITION. The words that spell commands: the command table gives no row any bits. -/
namespace Sys2Proof

/-- The command that a word of the table spells: none, since no row of the table gives bits (DESIGN CHOICE 4). -/
def decodeTableWord (_nbits _w : Nat) : Option Instr := none

end Sys2Proof
end

