-- ==== Sys2Proof/Machine/State.lean ====
section
/-! DEFINITION. The state of the block as plain data, its faults and refusals, and the state after reset.
A docstring of a field reads: what it is | width | file and rule of spec/ that names it | value at reset. -/
namespace Sys2Proof.Machine
open Sys2Proof

/-! ## Sources, their entries and their updates (chapters 03, 04) -/

/-- One State Store entry, Table 4-8 (04 R154); the same layout stands in the Spill State Table. -/
structure Entry where
  /-- PEND: a released instance waits for a claim | 1 | 03 R94, 04 R154 | 0 -/
  pend : Bool := false
  /-- ACT: active on some context | 1 | 03 R94, 04 R154 | 0 -/
  act : Bool := false
  /-- HELD: arrivals whose clause result has not taken effect | 4 | 03 R96, 04 R154 | 0 -/
  held : BitVec 4 := 0
  /-- DEF: coalesced arrivals await their deferred release | 1 | 03 R97, 04 R154 | 0 -/
  defr : Bool := false
  /-- DLV: copies stand, or a holding place holds the instance | 1 | 03 R95, 05 R176 | 0 -/
  dlv : Bool := false
  /-- RPT: a contribution was released while DLV was 1 | 1 | 03 R122, 04 R154 | 0 -/
  rpt : Bool := false
  /-- LVL: level-mode line's accepted level | 1 | 03 R102, 04 R154 | 0 -/
  lvl : Bool := false
  /-- SHR: the standing copies are shared | 1 | 03 R105, 04 R154 | 0 -/
  shr : Bool := false
  /-- USED: the slot holds a mapped source | 1 | 04 R154 | 0 -/
  used : Bool := false
  /-- DEM: the pending instance carries a demoted rank | 1 | 04 R150, R154 | 0 -/
  dem : Bool := false
  /-- RTV: RTGT holds a target supplied by EMIT | 1 | 04 R154 | 0 -/
  rtv : Bool := false
  /-- RCLASS: class of the pending instance | 2 | 04 R154 | 0 -/
  rclass : BitVec 2 := 0
  /-- RPRIO: priority of the pending instance | 8 | 04 R154 | 0 -/
  rprio : BitVec 8 := 0
  /-- GEN: domain generation under which the entry was last written | 8 | 04 R154 | 0 -/
  gen : BitVec 8 := 0
  /-- RTGT: target context supplied by EMIT | 10 | 04 R154 | 0 -/
  rtgt : BitVec 10 := 0
  /-- STAMP: time base bits [19:6] of the earliest release not yet claimed | 14 | 04 R612 | 0 -/
  stamp : BitVec 14 := 0
  deriving DecidableEq, Repr

/-- One State Store slot: its entry and its owner index (04 R154). -/
structure Slot where
  /-- The 64-bit entry | 64 | 04 R154 | 0 -/
  entry : Entry := {}
  /-- Owner index: STT index of the slot's source | 19 | 04 R154 | 0 -/
  owner : Nat := 0
  deriving DecidableEq, Repr

/-- Class, priority and order of a source (04 R138). -/
structure ClassCfg where
  /-- CLASS: 3 CRITICAL, 2 FIRM, 1 STANDARD, 0 BULK | 2 | 04 R138, 05 R164 | 0 -/
  cls : BitVec 2 := 0
  /-- PRIO | 8 | 04 R138 | 0 -/
  prio : BitVec 8 := 0
  /-- ORD | 1 | 03 R125, 04 R138 | 0 -/
  ord : Bool := false
  deriving DecidableEq, Repr

/-- Envelope attachment of a source (04 R138). -/
structure EnvAtt where
  /-- ENVV: an envelope is attached | 1 | 04 R138 | 0 -/
  envv : Bool := false
  /-- ENV: envelope index | 14 | 04 R138 | 0 -/
  env : Nat := 0
  deriving DecidableEq, Repr

/-- Clause attachment of a source (07 R265). -/
structure ClauseAtt where
  /-- CV: a clause attachment is present | 1 | 07 R265 | 0 -/
  cv : Bool := false
  /-- CLUS: cluster | 4 | 07 R265 | 0 -/
  clus : Nat := 0
  /-- AIDX: attachment table index | 10 | 07 R265 | 0 -/
  aidx : Nat := 0
  deriving DecidableEq, Repr

/-- Route attachment of a source (05 R181). -/
structure RouteAtt where
  /-- RV: a route is attached | 1 | 05 R181 | 0 -/
  rv : Bool := false
  /-- RIDX: Route Table index | 13 | 05 R181 | 0 -/
  ridx : Nat := 0
  deriving DecidableEq, Repr

/-- KIND of a source, Table 4-3 (04 R138). -/
inductive SrcKind where
  | msi | data | edge | level | core | internal
  deriving DecidableEq, Repr

/-- Source Translation Table entry, Table 4-3 (04 R138). -/
structure Stt where
  /-- VALID: the index names a mapped source | 1 | 04 R138 | 0 -/
  valid : Bool := false
  /-- KIND | 3 | 04 R138 | 0 (MSI or MSI-X) -/
  kind : SrcKind := .msi
  /-- MAPGEN | 8 | 04 R138 | 0 -/
  mapgen : BitVec 8 := 0
  /-- DOMID | 12 | 04 R138 | 0 -/
  domid : Nat := 0
  /-- VINTID | 24 | 04 R138 | 0 -/
  vintid : Word24 := 0
  /-- POL: wired lines, 1 when the active level is high | 1 | 04 R138 | 0 -/
  pol : Bool := false
  /-- RES: 1 when the state lives in a State Store slot | 1 | 04 R138 | 0 -/
  res : Bool := false
  /-- SLOT | 18 | 04 R138 | 0 -/
  slot : Nat := 0
  /-- CLASS, PRIO, ORD | 11 | 04 R138 | 0 -/
  rank : ClassCfg := {}
  /-- ENVV, ENV | 15 | 04 R138 | 0 -/
  env : EnvAtt := {}
  /-- CV, CLUS, AIDX | 15 | 07 R265 | 0 -/
  clause : ClauseAtt := {}
  /-- RV, RIDX | 14 | 05 R181 | 0 -/
  route : RouteAtt := {}
  deriving DecidableEq, Repr

/-- Requester Table entry, Table 4-2 (04 R133). -/
structure Requester where
  /-- VALID | 1 | 04 R133 | 0 -/
  valid : Bool := false
  /-- PMODE | 1 | 04 R133 | 0 -/
  pmode : Bool := false
  /-- PCOUNT (the count itself, 1 to 256) | 8 | 04 R133 | 1 -/
  pcount : Nat := 1
  /-- MBASE | 19 | 04 R133 | 0 -/
  mbase : Nat := 0
  /-- MCOUNT | 17 | 04 R133 | 0 -/
  mcount : Nat := 0
  /-- CBASE | 19 | 04 R133 | 0 -/
  cbase : Nat := 0
  /-- CCOUNT | 17 | 04 R133 | 0 -/
  ccount : Nat := 0
  deriving DecidableEq, Repr

/-- Arrival envelope (04 R147, 05 R167). -/
structure Envelope where
  /-- P: period in ns | 24 | 04 R147 | 0 -/
  p : Nat := 0
  /-- B: burst | 16 | 04 R147 | 0 -/
  b : Nat := 0
  /-- TAT: theoretical arrival time | 64 | 04 R147 | 0 -/
  tat : Dword := 0
  /-- Excess count, saturating at 65,535 | 16 | 04 R147 | 0 -/
  excess : BitVec 16 := 0
  /-- DL: deadline budget in ns | 24 | 05 R167 | 0 -/
  dl : Nat := 0
  deriving DecidableEq, Repr

/-- What a clause run is told of the arrival that dispatched it (07 R270, R277). -/
structure Payload where
  ns : Nat := 0
  seq : BitVec 8 := 0
  chan : Word24 := 0
  samples : List Word24 := []
  deriving DecidableEq, Repr

/-- An accepted event on its way to its entry: what a lane puts into a holding register (04 R131, R145). -/
inductive EventKind where
  /-- one arrival of a discrete source -/
  | arrival
  /-- the accepted level of a level-mode line -/
  | level (active : Bool)
  deriving DecidableEq, Repr

/-- An event with what the lane decided of it (04 R131, R149, R155). -/
structure Event where
  stt : Nat
  mapgen : BitVec 8
  /-- domain generation read at stage q+2 (11 R428) -/
  gen : BitVec 8 := 0
  kind : EventKind := .arrival
  /-- arrival timestamp (02 R48, R63) -/
  time : Dword := 0
  /-- the arrival was excess under R147 -/
  exc : Bool := false
  pl : Payload := {}
  deriving DecidableEq, Repr

/-- One-event latch of a wired line (04 R140). -/
structure WLatch where
  /-- The latch holds a change | 1 | 04 R140 | 0 -/
  full : Bool := false
  /-- LEVEL: newest accepted level | 1 | 04 R140 | 0 -/
  level : Bool := false
  /-- EDGE: an accepted transition to the active level | 1 | 04 R140 | 0 -/
  edge : Bool := false
  /-- Timestamp captured when the latch filled | 64 | 04 R140 | 0 -/
  time : Dword := 0
  deriving DecidableEq, Repr

/-- One beat of an MIP: MIPn_DATA, MIPn_SOM, MIPn_VALID, and MIPn_CHK where it is a parity, else what its SECDED code found
(02 R44, R50). -/
structure RxBeat where
  data : Word
  som : Bool
  vld : Bool
  chk : Option (BitVec 7) := none
  ecc : BeatEcc := .clean
  deriving DecidableEq, Repr

/-- The receive stage of an MIP between records (02 R54). -/
inductive RxFrame where
  /-- the next beat is beat 0 of a record -/
  | between
  /-- a record was broken: beats pass until one with MIPn_SOM high -/
  | hunting
  /-- beats of a record that is not complete, beat 0 first -/
  | within (bs : List RxBeat)
  deriving DecidableEq, Repr

/-- A record in a MIP's receive buffer, with its timestamp (02 R48, 04 R130). -/
structure RxRec where
  mip : Nat
  /-- TB_NS in the HCLK of beat 0 -/
  time : Dword
  msg : MsgRec
  /-- the HCLK of beat 0: frame count, HCLK within the frame, and TB_NS -/
  at_ : Nat × Nat × Dword := (0, 0, 0)
  deriving DecidableEq, Repr

/-- One message lane's, wired lane's or the internal lane's stages (04 R130, R142, R145). -/
structure Lane where
  /-- Records of the group's receive buffers, oldest first | 4 per MIP | 04 R130 | empty -/
  rx : List RxRec := []
  /-- Event held in stage q+3 behind an occupied holding register | 1 event | 04 R145 | none -/
  stall : Option Event := none
  /-- Holding register per State Store bank | 1 event each of 16 | 04 R145 | empty -/
  hold : Tab Event := []
  /-- Wired lane: line last taken in round-robin order | 7 | 04 R142 | 127 -/
  last : Nat := 127
  /-- Internal lane: reports not yet taken | 256 sources | 04 R143 | empty -/
  reports : List Nat := []
  deriving DecidableEq, Repr

/-- A new TAT that a record prepared at stage q+2 and that its discard at stage q+3 cancelled (04 R148). -/
structure VoidTat where
  /-- frame count and HCLK within the frame of the decision -/
  at_ : Nat × Nat
  /-- place of the lane among those deciding in one HCLK: twice its group, and one more for a wired lane -/
  lane : Nat
  env : Nat
  tat : Dword
  deriving DecidableEq, Repr

/-- Ingress: lanes, latches and the credits the package fabric holds (chapters 02, 04). -/
structure Ingress where
  /-- Lanes 0 to 11 message, 12 to 23 wired, 24 internal | 25 lanes | 04 R145, R146 | empty -/
  lanes : Tab Lane := []
  /-- Wired-line latches, index 64n + m | 1,536 | 04 R140 | empty -/
  latch : Tab WLatch := []
  /-- Accepted level of each wired line after its filter | 1,536 x 1 | 02 R61, R64 | 0 -/
  level : NSet := []
  /-- Two synchroniser stages and the last three filter samples of each wired line, newest in bit 0; the change detector
  of IDLE takes bits 2 and 3 | 1,536 x 5 | 02 R61, R66 | 0 -/
  sync : Tab (BitVec 5) := []
  /-- Credits the package fabric holds, per MIP | 3 per MIP | 02 R46, R47 | 0 until the release of Hub reset -/
  credit : Tab Nat := []
  /-- Receive stage of each MIP after its last beat | - | 02 R54 | between records -/
  frame : Tab RxFrame := []
  /-- Cancelled TATs that decisions of the same HCLK still see, newest first | - | 04 R148 | none -/
  voids : List VoidTat := []
  /-- Input 6 round-robin: requester served last, per bank | 5 per bank | 04 R146 | 24 -/
  rr6 : Tab Nat := []
  /-- MIPn_HELD inputs | 96 x 1 | 02 R44 | 0 -/
  held : NSet := []
  deriving DecidableEq, Repr

/-- A claim, completion, release or claim request named by a Tile Link record (06 R233), or the same for a
proxy of a federated peer (12 R469). -/
inductive NoticeKind where
  | claimed | claimReq | complete | released
  deriving DecidableEq, Repr

/-- What a recorded action of a run asks for (07 R286, 08 R330). -/
structure RankNames where
  cls : Option (BitVec 2) := none
  prio : Option (BitVec 8) := none
  tgt : Option (BitVec 10) := none
  deriving DecidableEq, Repr

/-- Result actions of a run (07 R286). -/
inductive ResultAct where
  | emit (n : RankNames)
  | suppress
  | coalesce (n : RankNames)
  deriving DecidableEq, Repr

/-- A LOG action (07 R286, R293). -/
structure LogAct where
  code : BitVec 8
  words : List Word24
  deriving DecidableEq, Repr

/-- Everything a run has recorded (07 R286, R288). -/
structure Acts where
  result : Option ResultAct := none
  logs : List LogAct := []
  timer : Option Word24 := none
  deriving DecidableEq, Repr

/-- Attachment table entry, Table 7-1 (07 R266). -/
structure Attach where
  /-- VALID | 1 | 07 R266 | 0 -/
  valid : Bool := false
  /-- PADDR | 13 | 07 R266 | 0 -/
  paddr : BitVec 13 := 0
  /-- REGION | 6 | 07 R266 | 0 -/
  region : Nat := 0
  /-- BUDGET | 8 | 07 R266 | 0 -/
  budget : Nat := 0
  /-- HBASE | 12 | 07 R266 | 0 -/
  hbase : Nat := 0
  /-- HLEN | 12 | 07 R266 | 0 -/
  hlen : Nat := 0
  /-- TBASE | 12 | 07 R266 | 0 -/
  tbase : Nat := 0
  /-- TLEN | 12 | 07 R266 | 0 -/
  tlen : Nat := 0
  /-- PARAM | 24 | 07 R266 | 0 -/
  param : Word24 := 0
  /-- TEN | 1 | 07 R266 | 0 -/
  ten : Bool := false
  /-- OWNER | 19 | 07 R266 | 0 -/
  owner : Nat := 0
  /-- CINT | 24 | 07 R266 | 0 -/
  cint : Nat := 0
  /-- TMIN | 24 | 07 R266 | 0 -/
  tmin : Nat := 0
  deriving DecidableEq, Repr

/-- CAUSE of a dispatch, Table 7-2 (07 R268). -/
inductive Cause where
  | arrival | timer | lost
  deriving DecidableEq, Repr

/-- A dispatch record (07 R270). -/
structure Dispatch where
  stt : Nat
  mapgen : BitVec 8
  domid : Nat
  vintid : Word24
  gen : BitVec 8
  rank : ClassCfg
  dcls : BitVec 2
  cause : Cause
  exc : Bool
  pl : Payload
  time : BitVec 48
  clus : Nat
  aidx : Nat
  att : Attach
  /-- place of the record in the order in which the sources' arrivals were accepted: the model's own field, which no read
  shows (03 R125) -/
  nth : Nat := 0
  deriving DecidableEq, Repr

/-- A closing on its way to its entry (07 R289). -/
structure Closing where
  d : Dispatch
  acts : Acts
  deriving DecidableEq, Repr

/-- Why a held instance is re-offered (05 R189, R203; 11 R427). -/
inductive ReofferFrom where
  | parked
  | geyser (ch : Nat)
  | posted
  deriving DecidableEq, Repr

/-- An offer standing in an offer register (05 R176). -/
structure Offer where
  stt : Nat
  mapgen : BitVec 8
  gen : BitVec 8
  rclass : BitVec 2
  rprio : BitVec 8
  dem : Bool
  rtv : Bool
  rtgt : Nat
  stamp : BitVec 14
  /-- the offer is made by a Geyser release (05 R204) -/
  geyser : Bool := false
  /-- the offer is made by a posted rescan (11 R423) -/
  reposted : Bool := false
  deriving DecidableEq, Repr

/-- One update of an entry (04 R155): what it does there. -/
inductive UpdKind where
  | event (e : Event)
  /-- an arrival taken from the spill arrival bitmap (04 R159) -/
  | lostArrival (time : Dword) (gen : BitVec 8)
  /-- one core-message arrival, of the descriptor with this ring and DSEQ (05 R205), or of a notification (10 R392) -/
  | coreMsg (gen : BitVec 8) (by_ : Option (RingId × Nat))
  | closing (c : Closing)
  /-- expiry of timer `key` = 1024 * cluster + attachment, with its expiry time (07 R301; 11 R428) -/
  | timer (key : Nat) (time : Dword) (gen : BitVec 8)
  | reoffer (f : ReofferFrom) (gen : BitVec 8)
  /-- a notice of a handle of a link, or of a proxy of peer `link` - 16 -/
  | notice (k : NoticeKind) (link handle ctx : Nat) (gen : BitVec 8)
  /-- SHR of a broadcast offer with its tracking entry; its copies for physical contexts `ps` leave after it, and its
  candidate holds epoch `epoch` until then (05 R191, R194) -/
  | bcast (o : Offer) (track : Nat) (epoch : Bool) (intid key : Word24) (ps : List Nat)
  /-- the clearing of an entry by RESET_DOMAIN or a failed RESTORE_DOMAIN under the new generation (11 R432 step 3) -/
  | wipe (gen : BitVec 8)
  /-- an entry written by RESTORE_DOMAIN or RESTORE_ALL under the current generation (11 R445; 16 R595) -/
  | put (e : Entry) (gen : BitVec 8)
  /-- the settle of a spilled entry (16 R585) -/
  | settle
  deriving DecidableEq, Repr

/-- An update with the name of its source (04 R155). -/
structure Upd where
  stt : Nat
  mapgen : BitVec 8
  kind : UpdKind
  deriving DecidableEq, Repr

/-! ## Ranking and routes (chapter 05) -/

/-- Route Table entry, Table 5-2 (05 R182). -/
structure Route where
  /-- VALID | 1 | 05 R182 | 0 -/
  valid : Bool := false
  /-- DOMID | 12 | 05 R182 | 0 -/
  domid : Nat := 0
  /-- KIND: 0 fixed, 1 lowest running priority, 2 round robin, 3 broadcast | 2 | 05 R182 | 0 -/
  kind : BitVec 2 := 0
  /-- TARGET | 10 | 05 R182 | 0 -/
  target : Nat := 0
  /-- GROUP | 11 | 05 R182 | 0 -/
  group : Nat := 0
  /-- GCH: Geyser channel | 4 | 05 R182 | 0 -/
  gch : Nat := 0
  deriving DecidableEq, Repr

/-- Route Group Table group (05 R183); the rotation pointer is held apart, once. -/
structure RGroup where
  /-- DOMID | 12 | 05 R183 | 0 -/
  domid : Nat := 0
  /-- Member mask over virtual target contexts | 1,024 | 05 R183 | empty -/
  members : NSet := []
  deriving DecidableEq, Repr

/-- One copy of the two tables (05 R194). -/
structure RtCopy where
  /-- Route Table | 8,192 entries | 05 R182 | all VALID = 0 -/
  routes : Tab Route := []
  /-- Route Group Table | 2,048 groups | 05 R183 | empty masks -/
  groups : Tab RGroup := []
  deriving DecidableEq, Repr

/-- Broadcast tracking entry (05 R192). -/
structure Bcast where
  /-- STT index of the shared instance | 19 | 05 R192 | free -/
  stt : Nat := 0
  /-- MAPGEN | 8 | 05 R192 | free -/
  mapgen : BitVec 8 := 0
  /-- GEN | 8 | 05 R192 | free -/
  gen : BitVec 8 := 0
  /-- Mask of the tiles that hold its copies | 16 | 05 R192 | free -/
  tiles : NSet := []
  /-- WON | 1 | 05 R192 | 0 -/
  won : Bool := false
  deriving DecidableEq, Repr

/-- Geyser channel: HCTL.GEYn_CFG, HCTL.GEYn_PHASE and its burst (05 R201, R203, R209). -/
structure Geyser where
  /-- PERIOD in force | 16 | 05 R209 | 0 -/
  period : BitVec 16 := 0
  /-- BURST_M1 in force | 12 | 05 R209 | 0 -/
  burst : BitVec 12 := 0
  /-- PHASE in force | 16 | 05 R209 | 0 -/
  phase : BitVec 16 := 0
  /-- HCTL.GEYn_CFG as written, in force from the channel's next firing | 28 | 05 R209 | 0 -/
  cfgW : Word := 0
  /-- HCTL.GEYn_PHASE as written | 16 | 05 R209 | 0 -/
  phaseW : Word := 0
  /-- Resume point: last index taken, none before the first burst | 19 | 05 R203 | none -/
  resume : Option Nat := none
  deriving DecidableEq, Repr

/-- A weighted round robin among domains: the domain being served and its grants in this turn
(05 R177, 07 R272). -/
structure Wrr where
  cur : Nat := 0
  used : Nat := 0
  /-- weights still in force until the next round, of domains whose share was changed in this one (11 R413) -/
  old : Tab Nat := []
  deriving DecidableEq, Repr

/-- The Ranking Unit and the Delivery Crossbar's tables (chapter 05). -/
structure Ranking where
  /-- Offer registers 0 to 15 of the banks, 16 of the spill path | 17 | 05 R176 | empty -/
  offers : Tab Offer := []
  /-- Parked bitmap | 524,288 | 05 R189 | 0 -/
  parked : NSet := []
  /-- A rescan of the parked bitmap is running (HCTL.PARK_STAT.RESCAN), at this index | 20 | 05 R189, R209 | none -/
  rescan : Option Nat := none
  /-- A trigger fell during the rescan | 1 | 05 R190 | 0 -/
  rescanAgain : Bool := false
  /-- A posted rescan is running, at this index | 20 | 11 R427 | none -/
  postScan : Option Nat := none
  /-- A trigger fell during the posted rescan | 1 | 11 R427 | 0 -/
  postAgain : Bool := false
  /-- Re-offer requests issued and not yet taken, oldest first | - | 05 R189, R203 | empty -/
  reoffers : List Upd := []
  /-- Geyser bitmap with the recorded channel | 524,288 | 05 R201 | 0 -/
  geyserBits : Tab (Option Nat) := []
  /-- Geyser channels | 16 | 05 R201, R209 | 0 -/
  geysers : Tab Geyser := []
  /-- Posted bitmap | 524,288 | 11 R427 | 0 -/
  posted : NSet := []
  /-- Context Priority Table, T per physical context | 11 x 1,024 | 05 R175 | 0 (DESIGN CHOICE 8) -/
  cpt : Tab (BitVec 11) := []
  /-- Broadcast tracking entries | 256 | 05 R192 | free -/
  bcast : Tab Bcast := []
  /-- Rotation pointers of the groups | 10 x 2,048 | 05 R183 | 0 -/
  rot : Tab Nat := []
  /-- HCTL.ROUTE_OVR_CNT | 32 | 05 R188 | 0 -/
  routeOvr : Word := 0
  /-- The two table copies, 0 and 1 | 2 | 05 R194 | empty -/
  copy0 : RtCopy := {}
  copy1 : RtCopy := {}
  /-- HCTL.RT_EPOCH.EPOCH: the live copy | 1 | 05 R209 | 0 -/
  epoch : Bool := false
  /-- HCTL.RT_EPOCH.RESYNC | 1 | 05 R195 | 0 -/
  resync : Bool := false
  /-- HCTL.RT_EPOCH.FLIPS | 16 | 05 R209 | 0 -/
  flips : BitVec 16 := 0
  /-- Route entries and groups written before the last flip and not yet resynchronised | lists | 05 R195 | empty -/
  dirtyR : NSet := []
  dirtyG : NSet := []
  deriving DecidableEq, Repr

/-- Ranking-lane pointers (05 R177): kept apart from the tables. -/
structure RankPtrs where
  /-- CRITICAL step's pointer: register last granted | 5 | 05 R177 | 16 -/
  crit : Nat := 16
  /-- FIRM step's pointer | 5 | 05 R177 | 16 -/
  firm : Nat := 16
  /-- Weighted step: one pointer for each domain | 5 x 4,096 | 05 R177 | 16 -/
  dom : Tab Nat := []
  /-- Weighted round robin among domains | 12 + 8 | 05 R177 | 0 -/
  wrr : Wrr := {}
  deriving DecidableEq, Repr

/-! ## Tile Links and Tile Agents (chapter 06) -/

/-- A flit on a wire: four beats of 24 bits (06 R221). -/
structure Flit where
  b0 : Word24
  b1 : Word24
  b2 : Word24
  crc : Word24
  deriving DecidableEq, Repr

/-- Handle states, Table 6-3 (06 R233). -/
inductive HState where
  | free | queued | standing | active
  deriving DecidableEq, Repr

/-- Handle table entry (06 R232). -/
structure Handle where
  /-- State of Table 6-3 | 2 | 06 R233 | FREE -/
  st : HState := .free
  /-- STT index | 19 | 06 R232 | 0 -/
  stt : Nat := 0
  /-- MAPGEN | 8 | 06 R232 | 0 -/
  mapgen : BitVec 8 := 0
  /-- GEN | 8 | 06 R232 | 0 -/
  gen : BitVec 8 := 0
  /-- SHR | 1 | 06 R232 | 0 -/
  shr : Bool := false
  /-- Context within the tile of an exclusive copy | 6 | 06 R232 | 0 -/
  ctx : Nat := 0
  /-- A withdrawal of the handle is outstanding | 1 | 03 R106, 06 R242 | 0 -/
  wd : Bool := false
  /-- The handle's CLAIMREQ is decided, and its WON (1) or LOST (0) waits to be sent | 1 + 1 | 06 R233, R242 | none -/
  ans : Option Bool := none
  /-- Peer and proxy to which a forwarded candidate's handle is bound in place of an STT index; proxy 1,024 once the peer has departed | 2 + 10 | 12 R470 | none -/
  prox : Option (Nat × Nat) := none
  deriving DecidableEq, Repr

/-- A candidate in an output queue (06 R218, R222). -/
structure Cand where
  shared : Bool
  ctx : Nat
  handle : Nat
  intid : Word24
  key : Word24
  /-- key by which the queue orders it: the key itself, or of class STANDARD for a forwarded candidate (12 R470) -/
  qkey : Word24
  deriving DecidableEq, Repr

/-- Link states, Table 6-7 (06 R249). -/
inductive LState where
  | down | quiesced | training | up | paused | quiescing | retrain | failed
  deriving DecidableEq, Repr

/-- A sequenced flit in a replay buffer: its SEQ, and the HCLK in which its slot was filled (06 R229). -/
structure Sent where
  seq : BitVec 8
  flit : Flit
  time : Nat
  deriving DecidableEq, Repr

/-- One end's half of CVU-Tn: sequence numbers, replay buffer and waits (06 R225 to R230). -/
structure LinkEnd where
  /-- TX_SEQ | 8 | 06 R225 | 0 -/
  txSeq : BitVec 8 := 0
  /-- RX_EXP | 8 | 06 R225 | 0 -/
  rxExp : BitVec 8 := 0
  /-- Replay buffer: sequenced flits sent, oldest first | 64 flits | 06 R229 | empty -/
  replay : List Sent := []
  /-- Flits of a replay still to send | up to 64 | 06 R229 | empty -/
  resend : List Sent := []
  /-- The receiver waits for a flit that passes its check | 1 | 06 R228 | 0 -/
  nakWait : Bool := false
  /-- A NAK is due in the next outgoing slot | 1 | 06 R228 | 0 -/
  nakDue : Bool := false
  /-- SEQ from which the last replay began, and the HCLK in which it did | 8 + 32 | 06 R229 | none -/
  lastReplay : Option (BitVec 8 × Nat) := none
  /-- Flits launched toward the other end and not yet received | flight of 36 HCLK | 06 R247 | empty -/
  wire : List Flit := []
  /-- Records of the flit received last that have not yet been acted on | 3 | 06 R223 | empty -/
  inbox : List Word24 := []
  deriving DecidableEq, Repr

/-- Error counts of a link: TDM.LINKn_ERR and TDM.LINKn_BOUNCE (06 R260). -/
structure LinkErr where
  /-- CRC | 8 | 06 R228 | 0 -/
  crc : BitVec 8 := 0
  /-- REPLAY | 8 | 06 R229 | 0 -/
  replay : BitVec 8 := 0
  /-- PROTO | 8 | 06 R224 | 0 -/
  proto : BitVec 8 := 0
  /-- UNPOP | 8 | 06 R237 | 0 -/
  unpop : BitVec 8 := 0
  /-- TDM.LINKn_BOUNCE | 32 | 06 R219 | 0 -/
  bounce : Word := 0
  deriving DecidableEq, Repr

/-- Training and pause progress of a link at the Hub (06 R250, R252). -/
inductive LPhase where
  | none
  /-- IDLE flits with frame markers are being sent; the Tile Agent has not yet aligned -/
  | idling
  /-- the Tile Agent has aligned and sends IDLE flits upstream -/
  | aligned
  /-- CLEAR or RESYNC_REQ has been sent -/
  | asked
  /-- PAUSE has been sent -/
  | pausing
  deriving DecidableEq, Repr

/-- One Tile Link at the Hub (chapter 06). -/
structure Link where
  /-- TDM.LINKn_STAT.STATE | 3 | 06 R249 | 0b000 DOWN -/
  st : LState := .down
  /-- TDM.LINKn_STAT.POP | 1 | 06 R260 | 0 -/
  pop : Bool := false
  /-- TDM.LINKn_STAT.RETRAINS | 8 | 06 R260 | 0 -/
  retrains : BitVec 8 := 0
  /-- TDM.LINKn_CTL.QUIESCE | 1 | 06 R254 | 0 -/
  quiesce : Bool := false
  /-- TDM.LINKn_CTL.WAKE_EN | 1 | 06 R257 | 0 -/
  wakeEn : Bool := false
  /-- TLn_CLK is driven | 1 | 02 R44, R68 | 0 -/
  clkOn : Bool := false
  /-- TDM.LIVEn: live slot table | 64 | 06 R212 | 0 -/
  live : Dword := 0
  /-- TDM.SHADn: shadow slot table | 64 | 06 R216 | 0 -/
  shad : Dword := 0
  /-- A shadow written outside a session waits for the frame boundary | 1 | 06 R216 | 0 -/
  shadDue : Bool := false
  /-- Output queue, highest-ranked first | 64 candidates | 06 R218 | empty -/
  outq : List Cand := []
  /-- Control records waiting, oldest first | no fixed limit | 06 R213 | empty -/
  ctl : List Word24 := []
  /-- Hub end of CVU-Tn | - | 06 R225 | 0 -/
  e : LinkEnd := {}
  /-- TDM.LINKn_ERR, TDM.LINKn_BOUNCE | 32 + 32 | 06 R260 | 0 -/
  err : LinkErr := {}
  /-- Handle table | 1,024 entries | 06 R232 | FREE -/
  handles : Tab Handle := []
  /-- The Hub holds a handle table for the link, so training ends with RESYNC_REQ | 1 | 06 R250, R259 | 0 -/
  hasTab : Bool := false
  /-- Training or pause progress | - | 06 R250, R252 | none -/
  ph : LPhase := .none
  /-- Failed training attempts of the series | 3 | 06 R250 | 0 -/
  tries : Nat := 0
  /-- RSYNC reports received: handle, context, active | list | 06 R251 | empty -/
  reports : List (Nat × Nat × Bool) := []
  /-- Service was requested while QUIESCING | 1 | 06 R255 | 0 -/
  service : Bool := false
  /-- Notice holding registers by bank, with the notices held behind | 16 | 06 R234 | empty -/
  notices : Tab (List Upd) := []
  /-- A CRITICAL instance is parked waiting for the link: the wake pattern is being sent | 1 | 06 R257 | 0 -/
  waking : Bool := false
  deriving DecidableEq, Repr

/-- A copy in a Ready List, or a claimed copy on an active stack (06 R235, 03 R115). -/
structure Copy where
  shared : Bool
  handle : Nat
  intid : Word24
  key : Word24
  deriving DecidableEq, Repr

/-- An access that waits at a context page (06 R239, R251). -/
inductive Access where
  | read (off size : Nat)
  | floor (size : Nat) (val : Word)
  | complete (off size : Nat) (val : Word)
  deriving DecidableEq, Repr

/-- State of one target context at its Tile Agent (06 R235 to R246, 05 R171 to R174). -/
structure Ctx where
  /-- Ready List, highest-ranked first | 4 copies | 06 R235 | empty -/
  ready : List Copy := []
  /-- Active stack, top first; its top gives the running priority | 8 copies | 03 R115, 05 R171 | empty, IDLE -/
  stack : List Copy := []
  /-- FLOOR: priority floor PF | 11 | 05 R172 | 0x000 -/
  pf : BitVec 11 := 0
  /-- CFAULT count | 16 | 03 R118, 06 R246 | 0 -/
  cfault : BitVec 16 := 0
  /-- The shared copy of the held claim read | 1 copy | 06 R238 | none -/
  held : Option Copy := none
  /-- Accesses waiting behind a held read or a training | list | 06 R239, R251 | empty -/
  waiting : List Access := []
  /-- Read data returned by the context page, newest first | 32 each | 03 R109 | empty -/
  resp : List Word := []
  deriving DecidableEq, Repr

/-- One Tile Agent (chapter 06). -/
structure Agent where
  /-- TA_RST_N asserted | 1 | 02 R77 | 0 -/
  inReset : Bool := false
  /-- Target contexts of the tile | 64 | 01 R18 | empty -/
  ctxs : Tab Ctx := []
  /-- Upstream record queue, oldest first | 2,112 records | 06 R245 | empty -/
  upq : List Word24 := []
  /-- Tile Agent end of CVU-Tn | - | 06 R225 | 0 -/
  e : LinkEnd := {}
  /-- Aligned to the frame and sending IDLE flits | 1 | 06 R250 | 0 -/
  aligned : Bool := false
  /-- Accesses are held until TRAINED | 1 | 06 R251, 16 R581 | 0 -/
  hold : Bool := false
  /-- PAUSE received and not yet answered | 1 | 06 R252 | 0 -/
  pausing : Bool := false
  /-- An upstream wake pattern stands | 1 | 06 R257 | 0 -/
  wake : Bool := false
  deriving DecidableEq, Repr

/-! ## Clause Engines (chapters 07, 08) -/

/-- Region table entry (08 R335). -/
structure Region where
  /-- VALID | 1 | 08 R335 | 0 -/
  valid : Bool := false
  /-- PBASE | 13 | 08 R335 | 0 -/
  pbase : Nat := 0
  /-- PLEN | 14 | 08 R335 | 0 -/
  plen : Nat := 0
  deriving DecidableEq, Repr

/-- The flags of a run (08 R315). -/
structure Flags where
  /-- Z | 1 | 08 R315 | 0 -/
  z : Bool := false
  /-- N | 1 | 08 R315 | 0 -/
  n : Bool := false
  /-- C | 1 | 08 R315 | 0 -/
  c : Bool := false
  /-- V | 1 | 08 R315 | 0 -/
  v : Bool := false
  deriving DecidableEq, Repr

/-- A run on an engine (08 R315). -/
structure Run where
  d : Dispatch
  /-- G0 to G15 | 24 each | 08 R315, 07 R277 | as Table 7-3 at the first step -/
  g : Tab Word24 := []
  /-- Z, N, C, V | 4 | 08 R315 | 0 -/
  f : Flags := {}
  /-- PC | 13 | 08 R315 | PADDR at the first step -/
  pc : BitVec 13
  /-- Step count | 8 | 08 R315 | 0 -/
  steps : Nat := 0
  /-- Recorded actions | - | 08 R315, 07 R286 | none -/
  acts : Acts := {}
  /-- The record is being re-run after a watchdog expiry | 1 | 07 R306 | 0 -/
  again : Bool := false
  /-- The engine has stopped sequencing, by injection point 19 | 1 | 14 R545 | 0 -/
  stuck : Bool := false
  deriving DecidableEq, Repr

/-- What an engine is doing (07 R274, R281). -/
inductive EngSt where
  | idle
  | running (r : Run)
  | closing (c : Closing) (again : Bool)
  deriving DecidableEq, Repr

/-- One engine (07 R261). -/
structure Engine where
  /-- Idle, running or closing | - | 07 R274, R281 | idle -/
  st : EngSt := .idle
  /-- Its watchdog expired once with no run closing normally since | 1 | 07 R308 | 0 -/
  wd : Bool := false
  deriving DecidableEq, Repr

/-- ENG.CLn_FCAP, Table 7-11 (07 R304, R314). -/
structure FCap where
  /-- ENGINE | 4 | 07 R314 | 0 -/
  engine : Nat := 0
  /-- ADDR | 13 | 07 R314 | 0 -/
  addr : BitVec 13 := 0
  /-- CAUSE | 4 | 07 R314 | 0 -/
  cause : Nat := 0
  /-- VALID | 1 | 07 R314 | 0 -/
  valid : Bool := false
  deriving DecidableEq, Repr

/-- Cluster state, Table 7-9 STATE (07 R314); FAILED is read off the engines. -/
inductive ClState where
  | enabled | busy | disabled
  deriving DecidableEq, Repr

/-- ENG registers of a cluster (07 R314). -/
structure ClRegs where
  /-- ENG.CLn_CTL.EN | 1 | 07 R314 | 1 -/
  en : Bool := true
  /-- ENG.CLn_CTL.RSV | 4 | 07 R314 | 0 -/
  rsv : Nat := 0
  /-- ENG.CLn_STAT.STATE | 2 | 07 R314 | 0b00 ENABLED -/
  st : ClState := .enabled
  /-- ENG.CLn_STAT.OFFLINE | 16 | 07 R308 | 0 -/
  offline : NSet := []
  /-- ENG.CLn_FAULT_CNT | 32 | 07 R304 | 0 -/
  faultCnt : Word := 0
  /-- ENG.CLn_COAL_CNT | 32 | 07 R292 | 0 -/
  coalCnt : Word := 0
  /-- ENG.CLn_BYPASS_CNT | 32 | 07 R312 | 0 -/
  bypassCnt : Word := 0
  /-- ENG.CLn_FCAP | 32 | 07 R314 | 0 -/
  fcap : FCap := {}
  deriving DecidableEq, Repr

/-- One Clause Engine cluster (07 R261, 08 R335). -/
structure Cluster where
  /-- Program store | 8,192 x 24 | 07 R261 | 0 -/
  prog : Tab Word24 := []
  /-- Data store | 4,096 x 24 | 07 R261 | 0 -/
  data : Tab Word24 := []
  /-- Program store words with an uncorrectable error | 8,192 x 1 | 07 R302 | none -/
  progBad : NSet := []
  /-- Data store words poisoned until written | 4,096 x 1 | 07 R305 | none -/
  dataBad : NSet := []
  /-- Attachment table | 1,024 entries | 07 R261, R266 | VALID = 0 -/
  att : Tab Attach := []
  /-- Region table | 64 entries | 08 R335 | VALID = 0 -/
  regions : Tab Region := []
  /-- Dispatch queue, oldest first | 64 records | 07 R261, R271 | empty -/
  queue : List Dispatch := []
  /-- A record to be re-run ahead of every queued record, with the engine revoked | 1 each | 07 R306 | none -/
  rerun : List (Nat × Dispatch) := []
  /-- Engines | 16 | 07 R261 | idle -/
  engines : Tab Engine := []
  /-- Weighted round robin among domains | 12 + 8 | 07 R272 | 0 -/
  wrr : Wrr := {}
  /-- Registers of block ENG | - | 07 R314 | as Tables 7-8 to 7-11 -/
  regs : ClRegs := {}
  /-- Closings made without a run (07 R307, R309), waiting for input 5 | list | 07 R309 | empty -/
  forced : List Closing := []
  deriving DecidableEq, Repr

/-- The Source Timer Unit (07 R297). -/
structure Timers where
  /-- Armed timers, key 1024 * cluster + attachment: expiry tick in µs | 16,384 | 07 R297, R298 | disarmed -/
  armed : Tab Nat := []
  /-- Expiries taken whose update waits (HELD = 15, a full queue): expiry time | 16,384 | 07 R301 | none -/
  waiting : Tab Dword := []
  /-- The 1 µs tick count derived from REFCLK_100 | 64 | 07 R297 | 0 -/
  tick : Nat := 0
  deriving DecidableEq, Repr

/-! ## Envelope groups, staging sessions and the admission report (chapters 09, 10) -/

/-- Admission report (09 R355). -/
structure Report where
  /-- CODE | 8 | 09 R355 | 0 -/
  code : Nat := 0
  /-- RKIND | 4 | 09 R355 | 0 -/
  rkind : Nat := 0
  /-- RNUM | 16 | 09 R355 | 0 -/
  rnum : Nat := 0
  /-- SRC | 19 | 09 R355 | 0 -/
  src : Nat := 0
  /-- BOUND | 32 | 09 R355 | 0 -/
  bound : Nat := 0
  /-- LIMIT | 32 | 09 R355 | 0 -/
  limit : Nat := 0
  deriving DecidableEq, Repr

/-- A change staged in a session (10 Table 10-4, R386). -/
inductive Staged where
  | cls (idx : Nat) (c : ClassCfg)
  | envWrite (env p b dl igrp : Nat)
  | envAtt (idx : Nat) (e : EnvAtt)
  | routeAtt (idx : Nat) (r : RouteAtt)
  /-- an attachment, with the entry it writes unless KEEP or CV = 0, and a zeroed history window -/
  | clause (idx : Nat) (c : ClauseAtt) (w : Option Attach)
  /-- a wired-line mapping, or a change of its mode and polarity -/
  | mapLine (idx : Nat) (kind : SrcKind) (pol : Bool) (domid : Nat) (vintid : Word24)
  /-- a prepared move to resident (10 R387) -/
  | resident (idx slot : Nat)
  /-- a switch-in that ends at COMMIT (11 R419) -/
  | vctxIn (dom v p : Nat)
  deriving DecidableEq, Repr

/-- The open staging session (10 R386). -/
structure Session where
  /-- the ring that opened it -/
  ring : RingId
  /-- staged changes, oldest first -/
  staged : List Staged := []
  /-- route entries and groups written since STAGE_BEGIN (05 R197) -/
  routes : NSet := []
  groups : NSet := []
  /-- links whose shadow slot table was written since STAGE_BEGIN (06 R216) -/
  links : NSet := []
  deriving DecidableEq, Repr

/-! ## Rings (chapter 10) -/

/-- State of a ring (10 R391). -/
inductive RState where
  | disabled | enabled | busy
  deriving DecidableEq, Repr

/-- One virtual-context switch in progress (11 R419, R420). -/
inductive VSwitch where
  /-- a switch-in of context `v` on `p` -/
  | into (v p : Nat)
  /-- a switch-out of context `v` from `p`, and the context it then switches into -/
  | out (v p : Nat) (next : Option Nat)
  deriving DecidableEq, Repr

/-- What an executing descriptor waits for (10 R383). -/
inductive Wait where
  /-- SET_ROUTE waits for resynchronisation; a staged one carries its session's mark (05 R196) -/
  | resync (staged : Bool)
  /-- the Sequencer cannot take the command (01 R21) -/
  | sequencer
  /-- virtual context switches (11 R421) -/
  | vctx (dom : Nat) (sw : List VSwitch)
  /-- a freeze that has not reached its boundary (11 R438) -/
  | freeze (dom : Nat)
  /-- a snapshot whose body lines are not all acknowledged: lines outstanding, header address and header (11 R441) -/
  | snapBody (left : NSet) (hdr : Nat) (line : BitVec 512) (lines : Nat)
  /-- a snapshot whose header is not acknowledged (11 R441) -/
  | snapHdr (hdr lines : Nat)
  /-- a flush: lines not yet in a line buffer, lines whose write-back is not acknowledged, lines written back, and
  whether its scope is all lines (10 R399) -/
  | flush (todo left : NSet) (n : Nat) (all : Bool)
  /-- an accepted COMMIT waiting for its frame boundary (09 R344) -/
  | commit (r : Report)
  /-- a slot table written outside a session that waits for its frame boundary (06 R216) -/
  | slotLive (link : Nat)
  /-- a command that cannot begin now and tries again: held lines or fills, an operation of block OPS (04 R161, 10 R396,
  R400, 16 R593) -/
  | again
  /-- a Spill State line that cannot be had now (10 R396, R397) -/
  | line (n : Nat)
  /-- the arrivals of a SEND_CORE_MSG that are not yet applied, and its targets skipped (04 R144; 05 R206) -/
  | arrivals (skipped : Nat)
  /-- items in flight that carry the generation which the reset of a domain will assign (11 R431) -/
  | generation (dom : Nat)
  /-- entries of a domain that the spill path has still to write, and whether the command has succeeded (11 R432, R445) -/
  | entries (dom : Nat) (good : Bool)
  /-- the second reading of a restore image, with its CHECK: passed over once, so that it is made in a later step (11 R445) -/
  | secondReading (dom : Nat) (check : Word) (due : Bool)
  /-- drains of the rings the command disabled (11 R432) -/
  | drains (dom : Nat)
  deriving DecidableEq, Repr

/-- A fetched descriptor without a completion record (10 R381, R383). -/
structure Exec where
  /-- DSEQ -/
  seq : Nat
  /-- its sixteen words -/
  line : BitVec 512
  wait : Wait
  deriving DecidableEq, Repr

/-- A ring of records or descriptors: where it lies and its counts (10 R365, R366). -/
structure RingQ where
  /-- Base address, 4 KiB aligned | 64 | 10 R365 | 0 -/
  base : Nat := 0
  /-- LOG2SZ | 4 | 10 R365 | 0 -/
  log2sz : Nat := 0
  /-- PSEQ of a command ring, WSEQ of a record ring | 24 | 10 R366 | 0 -/
  w : Nat := 0
  /-- FSEQ of a command ring, CSEQ of a record ring | 24 | 10 R366 | 0 -/
  r : Nat := 0
  deriving DecidableEq, Repr

/-- A ring pair (10 R364): command ring (w = PSEQ, r = FSEQ) and completion ring (w = WSEQ, r = CSEQ). -/
structure Pair where
  /-- Command ring | - | 10 R364 | 0 -/
  cmd : RingQ := {}
  /-- Completion ring | - | 10 R364 | 0 -/
  cpl : RingQ := {}
  /-- State | 2 | 10 R391 | DISABLED -/
  st : RState := .disabled
  /-- Executing descriptors, oldest first | 32 | 10 R381 | empty -/
  exec : List Exec := []
  /-- EN = 1 written while BUSY | 1 | 10 R391 | 0 -/
  again : Bool := false
  /-- RING.MCTLm.EN | 1 | 10 R405 | 0 -/
  en : Bool := false
  /-- RING.MCTLm.AGENT | 4 | 10 R405 | 0 -/
  agent : Nat := 0
  deriving DecidableEq, Repr

/-- An Event Log Queue (10 R388, R389). -/
structure Elq where
  /-- Base, size, WSEQ (w) and CSEQ (r) | - | 10 R365, R366 | 0 -/
  ring : RingQ := {}
  /-- State | 2 | 10 R391 | DISABLED -/
  st : RState := .disabled
  /-- OVERFLOW | 1 | 10 R388 | 0 -/
  overflow : Bool := false
  /-- LOST | 32 | 10 R388 | 0 -/
  lost : Word := 0
  deriving DecidableEq, Repr

/-- A line of the Line Cache (10 R396). -/
structure CLine where
  /-- Line number: host address / 64 -/
  line : Nat
  data : BitVec 512
  dirty : Bool := false
  held : Bool := false
  /-- retries made of its write-back (14 R522) -/
  tries : Nat := 0
  deriving DecidableEq, Repr

/-- The Line Cache (10 R393 to R405). -/
structure LCache where
  /-- LCACHE.CTL.EN | 1 | 10 R405 | 0 -/
  en : Bool := false
  /-- LCACHE.STAT.STATE | 2 | 10 R405 | 0b10 DISABLED -/
  st : RState := .disabled
  /-- EN = 1 written while BUSY | 1 | 10 R403 | 0 -/
  again : Bool := false
  /-- Valid lines, most recently used first | 48 | 10 R396, R405 | empty -/
  lines : List CLine := []
  /-- Line numbers whose fill is outstanding | - | 10 R396 | empty -/
  fills : NSet := []
  /-- Outstanding fills of which an attempt has failed | - | 14 R522 | empty -/
  fillFailed : NSet := []
  /-- Line buffers whose write-back is not acknowledged | 4 | 10 R397 | empty -/
  bufs : List CLine := []
  /-- LCACHE.STAT.STALE | 1 | 10 R403 | 0 -/
  stale : Bool := false
  /-- LCACHE.STAT.DIRTY_AT_DISABLE | 1 | 10 R401 | 0 -/
  dirtyAtDisable : Bool := false
  /-- A CACHE_INVALIDATE of scope all has completed since the disable began | 1 | 10 R403 | 0 -/
  invalSince : Bool := false
  /-- LCACHE.STAT.DROPPED_DIRTY | 8 | 10 R400 | 0 -/
  dropped : BitVec 8 := 0
  /-- LCACHE.MISS_CNT | 32 | 10 R405 | 0 -/
  missCnt : Word := 0
  /-- LCACHE.EVICT_CNT | 32 | 10 R405 | 0 -/
  evictCnt : Word := 0
  deriving DecidableEq, Repr

/-- What an outstanding whole-line write belongs to (14 R522). -/
inductive WKind where
  | completion (r : RingId)
  | event (d : Nat)
  | header (d : Nat)
  | snapshot
  | spillImage
  | spillState
  deriving DecidableEq, Repr

/-- A whole-line write issued and not yet acknowledged (02 R71, 11 R441). -/
structure OutW where
  line : Nat
  data : BitVec 512
  kind : WKind
  /-- retries made (14 R522) -/
  tries : Nat := 0
  /-- it stands in a line buffer, the cache being DISABLED (10 R402) -/
  buf : Bool := false
  deriving DecidableEq, Repr

/-- A record whose line cannot be had now (10 R397, R402). -/
structure RecW where
  line : Nat
  /-- half of the line -/
  half : Nat
  data : BitVec 256
  kind : WKind
  deriving DecidableEq, Repr

/-- An MMIO access that FP4 or FP5 has received and holds until the Hub is back in RUN (13 Table 13-5, R485). -/
inductive PortAcc where
  /-- an access of the Hub Control Space at FP4 -/
  | reg (id : BitVec 8) (write : Bool) (off size : Nat) (val : Word) (parityError : Bool) (fail : Option Nat)
  /-- a write of a doorbell page at FP5 -/
  | db (dom off size : Nat) (val : Word) (parityError : Bool)
  deriving DecidableEq, Repr

/-- The Fabric Ports and the block's own accesses to host memory (02 R70, R71). -/
structure Fabric where
  /-- Accesses held at FP4 and FP5, oldest first | - | 13 R485, R491 | empty -/
  held : List PortAcc := []
  /-- Ports FP4 to FP7 whose next inbound transfer fails its data check | 4 x 1 | 02 R73 | 0 (DESIGN CHOICE 9): an input -/
  badIn : NSet := []
  /-- Whole-line writes outstanding, oldest first | - | 02 R71 | empty -/
  out : List OutW := []
  /-- Records that wait for a place of their line, oldest first | - | 10 R395, R397 | empty -/
  recs : List RecW := []
  /-- Attempts of the next reads of a line that the package fabric will fail | per line | 02 R73, 14 R522 | 0 (DESIGN CHOICE 25): an input -/
  fail : Tab Nat := []
  /-- RING.DB_ERR_CNT | 32 | 10 R405 | 0 -/
  dbErr : Word := 0
  deriving DecidableEq, Repr

/-- The Ring Processor and its spill path (04 R158, R159, 10 R364). -/
structure Rings where
  /-- Manager ring pairs | 8 | 10 R364 | DISABLED -/
  mgr : Tab Pair := []
  /-- The open staging session | - | 10 R386 | none -/
  session : Option Session := none
  /-- Spill-path queue, oldest first | 64 | 04 R158 | empty -/
  spillq : List Upd := []
  /-- Updates other than arrivals that wait for a place, in the order in which they began to | - | 04 R613 | empty -/
  spillw : List Upd := []
  /-- Updates of the Ring Processor that wait for input 4 of a bank, oldest first | - | 03 R99, 04 R144 | empty -/
  rpWait : List Upd := []
  /-- Spill arrival bitmap | 524,288 | 04 R159 | 0 -/
  spillBits : NSet := []
  /-- HCTL.SPILL_OVF_CNT | 32 | 04 R159 | 0 -/
  spillOvf : Word := 0
  /-- Frozen arrival bitmap | 524,288 | 11 R435 | 0 -/
  frozenBits : NSet := []
  /-- Domains whose core message NCTX a written record has notified, the arrival not yet applied | - | 10 R392 | empty -/
  notes : List Nat := []
  /-- SNAPSEQ: snapshot count | 24 | 11 R439 | 0 -/
  snapSeq : Nat := 0
  deriving DecidableEq, Repr

/-! ## Domains (chapter 11) -/

/-- Domain states, Table 11-1 (11 R406). -/
inductive DState where
  | absent | live | freezing | frozen | resetting | restoring
  deriving DecidableEq, Repr

/-- Virtual Context Table entry (11 R416). -/
structure VEntry where
  /-- RUN | 1 | 11 R416 | 0 -/
  run : Bool := false
  /-- PCTX | 10 | 11 R416 | 0 -/
  pctx : Nat := 0
  /-- SW | 1 | 11 R416 | 0 -/
  sw : Bool := false
  deriving DecidableEq, Repr

/-- Ring enables recorded for a FROZEN domain (11 R451): LOG2SZ and base of each ring. -/
structure RecEnables where
  cmd : Option RingQ := none
  cpl : Option RingQ := none
  elq : Option RingQ := none
  deriving DecidableEq, Repr

/-- The domain line of an image, Table 11-8 (11 R439). -/
structure DomLine where
  cmd : RingQ := {}
  cmdEn : Bool := false
  cpl : RingQ := {}
  cplEn : Bool := false
  elq : RingQ := {}
  elqEn : Bool := false
  overflow : Bool := false
  lost : Word := 0
  /-- old base address bits [36:5] of the two record rings -/
  cplBase : Word := 0
  elqBase : Word := 0
  deriving DecidableEq, Repr

/-- Shares and core-message run of a domain, Table 11-3 (11 R409, R413). -/
structure Shares where
  /-- RSHARE | 19 | 11 R413 | 0; domain 0: 260,352 -/
  rshare : Nat := 0
  /-- ELIMIT | 24 | 11 R413 | 0; domain 0: 0xFF_FFFF -/
  elimit : Nat := 0
  /-- RWEIGHT | 8 | 11 R413 | 1 -/
  rweight : Nat := 1
  /-- EWEIGHT | 8 | 11 R413 | 1 -/
  eweight : Nat := 1
  /-- CMBASE | 19 | 11 R409 | 0 -/
  cmbase : Nat := 0
  /-- CMCOUNT | 11 | 11 R409 | 0 -/
  cmcount : Nat := 0
  /-- Base of the domain's Virtual Context Table run | 15 | 11 R416 | 0 -/
  vbase : Nat := 0
  deriving DecidableEq, Repr

/-- A domain (11 R406 to R451). -/
structure Dom where
  /-- State | 3 | 11 R406 | ABSENT; domain 0 LIVE from the end of a start -/
  st : DState := .absent
  /-- State to which a reset returns the domain | 3 | 11 R432 | ABSENT -/
  back : DState := .absent
  /-- Generation | 8 | 11 R428 | 0 -/
  gen : BitVec 8 := 0
  /-- Shares and core-message run | - | 11 R413 | as Table 11-3 -/
  sh : Shares := {}
  /-- Guest Ring pair | - | 10 R364 | DISABLED -/
  pair : Pair := {}
  /-- Event Log Queue | - | 10 R364 | DISABLED -/
  elq : Elq := {}
  /-- CNOTE | 1 | 10 R392 | 0 -/
  cnote : Bool := false
  /-- ENOTE | 1 | 10 R392 | 0 -/
  enote : Bool := false
  /-- NCTX | 10 | 10 R392 | 0 -/
  nctx : Nat := 0
  /-- Enables recorded while FROZEN | - | 11 R451 | none -/
  recEn : RecEnables := {}
  /-- Domain line recorded by RESTORE_DOMAIN | - | 11 R445 | none -/
  line : Option DomLine := none
  /-- RESTORE_DOMAIN has written the domain since its freeze | 1 | 11 R450 | 0 -/
  restored : Bool := false
  /-- Timers recorded by RESTORE_DOMAIN: key and REMAIN, 0 when EXPIRED | - | 11 R445 | empty -/
  timers : Tab Nat := []
  /-- Timers that expired while FREEZING or FROZEN | - | 11 R435 | empty -/
  expired : NSet := []
  /-- PSEQ up to which descriptors are fetched while FREEZING or FROZEN | 24 | 11 R438 | none -/
  fetchTo : Option Nat := none
  deriving DecidableEq, Repr

/-! ## Federation (chapter 12) -/

/-- A ZBL message with its fields, Table 12-1 (12 R454). -/
inductive ZMsg where
  | hello (proto fwver hubid fedid : Nat) (digest : Word)
  | helloAck (proto fwver hubid fedid : Nat) (digest : Word)
  | timeReq (t1 : Dword)
  | timeRsp (t1 t2 t3 : Dword)
  | own (domid v : Nat) (run : Bool)
  /-- the OWN-class report that shows a peer the measured OFFSET, negated (12 R462) -/
  | offset (val : Word)
  | leave (cause : Nat)
  | fwd (stt : Nat) (mapgen gen : BitVec 8) (domid : Nat) (vintid : Word24) (v : Nat) (cls : BitVec 2)
      (prio : BitVec 8) (stamp : BitVec 14) (dl proxy : Nat)
  | wdraw (proxy : Nat)
  | released (proxy : Nat) (gen : BitVec 8)
  | claimed (proxy : Nat) (gen : BitVec 8)
  | complete (proxy : Nat) (gen : BitVec 8)
  deriving DecidableEq, Repr

/-- Sequences of one class toward one peer (12 R454). -/
structure ZClass where
  /-- Send sequence | 24 | 12 R454 | 0 -/
  tx : Nat := 0
  /-- Receive sequence | 24 | 12 R454 | 0 -/
  rx : Nat := 0
  /-- Messages sent and not acknowledged, oldest first, with their sequence | - | 12 R454 | empty -/
  unacked : List (Nat × ZMsg) := []
  /-- What the class has put on its Fabric Port, in order: messages and their repeats | - | 12 R453, R454 | empty -/
  wire : List (Nat × ZMsg) := []
  /-- Sequences acknowledged to the peer, in order | - | 12 R454 | empty -/
  acks : List Nat := []
  deriving DecidableEq, Repr

/-- One peer of the federation (12 R458 to R474). -/
structure Peer where
  /-- FED.STAT.JOINED bit | 1 | 12 R460 | 0 -/
  joined : Bool := false
  /-- FED.STAT.PROTO_MIS bit | 1 | 12 R459 | 0 -/
  protoMis : Bool := false
  /-- FED.STAT.DIGEST_MIS bit | 1 | 12 R459 | 0 -/
  digestMis : Bool := false
  /-- FED.STAT.FW_DIFF bit | 1 | 12 R459 | 0 -/
  fwDiff : Bool := false
  /-- FED.STAT.OFFSET_OUT bit | 1 | 12 R463 | 0 -/
  offsetOut : Bool := false
  /-- Consecutive in-range measurements since it went out of range | 2 | 12 R463 | 0 -/
  good : Nat := 0
  /-- FED.OFFSETn | 32 | 12 R474 | 0 -/
  offset : Word := 0
  /-- FED.PEERn.FWVER | 16 | 12 R474 | 0 -/
  fwver : Nat := 0
  /-- FED.PEERn.LOST | 1 | 12 R474 | 0 -/
  lost : Bool := false
  /-- A join proceeds: its time measurement is not complete | 1 | 12 R460 | 0 -/
  joining : Bool := false
  /-- T1 of the measurement in progress | 64 | 12 R462 | none -/
  t1 : Option Dword := none
  /-- DELAY of the last measurement, signed | 64 | 12 R462 | 0 (DESIGN CHOICE 9) -/
  delay : Dword := 0
  /-- Event class (FP6) sequences | - | 12 R453, R454 | 0 -/
  ev : ZClass := {}
  /-- Control class (FP7) sequences | - | 12 R453, R454 | 0 -/
  ct : ZClass := {}
  /-- Proxies toward the peer | 1,024 | 12 R469 | FREE -/
  proxies : Tab Handle := []
  /-- Views of the peer's virtual contexts: RUN of the last OWN received, key 1024 * DOMID + context | - | 12 R466 | none -/
  view : Tab (Option Bool) := []
  deriving DecidableEq, Repr

/-- A federated domain of the loaded configuration (12 R455). -/
structure FedDom where
  /-- CMCOUNT | 11 | 12 R455 | - -/
  cmcount : Nat := 0
  /-- HOME of each virtual context, 2 bits each | 2 x 1,024 | 12 R455 | - -/
  home : Tab Nat := []
  deriving DecidableEq, Repr

/-- The Federation Unit (chapter 12). -/
structure Fed where
  /-- FED.CTL.EN | 1 | 12 R474 | 0 -/
  en : Bool := false
  /-- FED.CTL.HUBID | 2 | 12 R474 | 0 -/
  hubid : Nat := 0
  /-- FED.CFG_LO | 32 | 12 R474 | 0 -/
  cfgLo : Word := 0
  /-- FED.CFG_HI | 32 | 12 R474 | 0 -/
  cfgHi : Word := 0
  /-- FED.STAT.LOADED | 1 | 12 R474 | 0 -/
  loaded : Bool := false
  /-- FED.STAT.CFG_ERR | 1 | 12 R474 | 0 -/
  cfgErr : Bool := false
  /-- FED.STAT.CONFLICT | 1 | 12 R474 | 0 -/
  conflict : Bool := false
  /-- FED.CONFLICT_CNT | 32 | 12 R474 | 0 -/
  conflictCnt : Word := 0
  /-- FED.DIGEST | 32 | 12 R456, R474 | 0 -/
  digest : Word := 0
  /-- FEDID of the loaded configuration | 16 | 12 R455 | 0 -/
  fedid : Nat := 0
  /-- MEMBERS of the loaded configuration | 4 | 12 R455 | 0 -/
  members : BitVec 4 := 0
  /-- Federated domains of the loaded configuration | 64 | 12 R455 | none -/
  doms : Tab FedDom := []
  /-- Peers | 4 | 12 R452 | not joined -/
  peers : Tab Peer := []
  deriving DecidableEq, Repr

/-! ## Clocks and power (chapters 01, 13) -/

/-- The clock controller (01 R22 to R42). -/
structure Clk where
  /-- CLK.OPCTL.TARGET | 2 | 01 R42 | 0b10 -/
  target : BitVec 2 := 2
  /-- CLK.OPCTL.FLOOR | 2 | 01 R42 | 0b10 -/
  floor : BitVec 2 := 2
  /-- CLK.OPCTL.FLOOR_LIVE | 2 | 09 R344 | 0b10 -/
  floorLive : BitVec 2 := 2
  /-- CLK.STATUS.LOCK | 1 | 01 R25 | 0 -/
  lock : Bool := false
  /-- CLK.STATUS.BYPASS | 1 | 01 R34 | 0 -/
  bypass : Bool := false
  /-- CLK.STATUS.SWITCHING | 1 | 01 R28 | 0 -/
  switching : Bool := false
  /-- CLK.STATUS.CUR_OP | 2 | 01 R28 | 0b10 -/
  curOp : BitVec 2 := 2
  /-- CLK.STATUS.LOCK_LOST | 1 | 01 R34 | 0 -/
  lockLost : Bool := false
  /-- CLK.STATUS.OPREQ_REFUSED | 1 | 01 R29 | 0 -/
  refused : Bool := false
  /-- CLK.STATUS.REFUSE_CAUSE | 2 | 01 R29 | 0b00 -/
  cause : BitVec 2 := 0
  /-- The IRQPLL is enabled | 1 | 01 R25, R42 | 0 -/
  pllOn : Bool := false
  /-- The post-divider switch is ready for the next frame boundary: the new point | 2 | 01 R28 | none -/
  ready : Option (BitVec 2) := none
  /-- The IRQPLL has locked in bypass: the return waits for the next frame boundary | 1 | 01 R37 | 0 -/
  back : Bool := false
  deriving DecidableEq, Repr

/-- The occasion of an AVSBus voltage write, Table 13-10 (13 R509). -/
inductive AvsOcc where
  | opUp (old new : BitVec 2)
  | opDown (new : BitVec 2)
  | aging
  | startAging
  | deepEntry (again : Bool)
  | exitDeep
  | exitOff
  deriving DecidableEq, Repr

/-- An AVSBus frame of the master, Table 2-9 (02 R82): standard command group 0, no broadcast. -/
structure AvsFrame where
  /-- CmdType: a write and commit, else a read -/
  write : Bool
  /-- CmdDataType -/
  dataType : BitVec 4
  /-- the rail addressed -/
  rail : BitVec 4
  /-- CmdData: the target in mV of a write -/
  data : BitVec 16 := 0
  deriving DecidableEq, Repr

/-- Power states (13 R475). -/
inductive PState where
  | run | idle | sleep | deep | off
  deriving DecidableEq, Repr

/-- What the power controller's sequence is doing (13 R485, R487, R503 to R505). -/
inductive PSeq where
  | none
  /-- E1: client `k` answered DELAY and is asked again -/
  | poll (tgt : PState) (k : Nat)
  /-- E2: the clock branches are being gated -/
  | gate (tgt : PState)
  /-- E3 of DEEP: the wake alarm and the Caldera image are written; of OFF: the spill image's body or header is not all
  acknowledged -/
  | save (tgt : PState) (left : NSet) (hdr : Bool)
  /-- E4: the acknowledgement is outstanding -/
  | power (tgt : PState)
  /-- an exit waits for its voltage, its lock or PG_IRQ; whether it abandons an entry at AP4, and for a voltage timeout -/
  | exit (from_ : PState) (entry volt : Bool)
  deriving DecidableEq, Repr

/-- Block PWR (13 R514). -/
structure PwrRegs where
  /-- PWR.CTL.REQ | 3 | 13 R514 | 0b000 -/
  req : BitVec 3 := 0
  /-- PWR.CTL.AUTO_IDLE | 1 | 13 R480 | 0 -/
  autoIdle : Bool := false
  /-- PWR.CTL.DLY_TIMEOUT | 10 | 13 R483 | 0x064 -/
  dlyTimeout : BitVec 10 := 0x64
  /-- PWR.STAT.STATE and CW_PSTATE after the start | 3 | 13 R475 | 0b000 RUN -/
  state : PState := .run
  /-- PWR.STAT.ABORT_AP | 3 | 13 R494 | 0b000 -/
  abortAp : BitVec 3 := 0
  /-- PWR.STAT.ABORTED | 1 | 13 R494 | 0 -/
  aborted : Bool := false
  /-- PWR.STAT.REFUSE_CAUSE | 4 | 13 R478 | 0 -/
  cause : BitVec 4 := 0
  /-- PWR.STAT.REF_CLIENT | 6 | 13 R488 | 0 -/
  refClient : BitVec 6 := 0
  /-- PWR.STAT.DLY_TO | 1 | 13 R483 | 0 -/
  dlyTo : Bool := false
  /-- PWR.STAT.REFUSED | 1 | 13 R478 | 0 -/
  refused : Bool := false
  /-- PWR.STAT.VTIMEOUT | 1 | 13 R509 | 0 -/
  vtimeout : Bool := false
  deriving DecidableEq, Repr

/-- The rest of block PWR (13 R514). -/
structure PwrCfg where
  /-- PWR.WAKE_CFG.EN | 8 | 13 R492 | 0 -/
  wakeEn : BitVec 8 := 0
  /-- PWR.WAKE_CFG.POL | 8 | 13 R492 | 0 -/
  wakePol : BitVec 8 := 0
  /-- PWR.WAKE_STAT.CAUSE | 4 | 13 R494 | 0 -/
  wakeCause : BitVec 4 := 0
  /-- PWR.WAKE_STAT.INDEX | 8 | 13 R494 | 0 -/
  wakeIdx : BitVec 8 := 0
  /-- PWR.WAKE_STAT.ENTRY | 1 | 13 R494 | 0 -/
  wakeEntry : Bool := false
  /-- PWR.AGING.OFFSET | 6 | 13 R511 | 0 -/
  offset : BitVec 6 := 0
  /-- PWR.AGING.MEASURED | 1 | 13 R512 | 0 -/
  measured : Bool := false
  /-- PWR.AGING.STEPS | 8 | 13 R511 | 0 -/
  steps : BitVec 8 := 0
  /-- PWR.SPILL_LO | 32 | 13 R498 | 0 -/
  spillLo : Word := 0
  /-- PWR.SPILL_HI | 32 | 13 R498 | 0 -/
  spillHi : Word := 0
  /-- PWR.IDLE_DLY.DELAY | 16 | 13 R480 | 0x0064 -/
  idleDly : BitVec 16 := 0x64
  /-- PWR.AVS_CFG.SELECT | 4 | 02 R82 | 0 -/
  avsSel : BitVec 4 := 0
  /-- PWR.REFUSE_CNT | 32 | 13 R478 | 0 -/
  refuseCnt : Word := 0
  /-- PWR.ABORT_CNT | 32 | 13 R494 | 0 -/
  abortCnt : Word := 0
  deriving DecidableEq, Repr

/-- The power controller's sequence and the always-on controller (13 R476 to R513). -/
structure PwrSeq where
  /-- Sequence in progress | - | 13 R485 | none -/
  seq : PSeq := .none
  /-- Power clients that have stopped | 48 | 13 R481 | none -/
  stopped : NSet := []
  /-- Wake event kept until the next abort point or E5: cause and index | 4 + 8 | 13 R486, R490 | none -/
  wake : Option (Nat × Nat) := none
  /-- HCLK in which the kept wake event fell: frame count and HCLK within the frame | 24 + 8 | 13 R494 | 0 -/
  wakeAt : Nat × Nat := (0, 0)
  /-- Wake alarm of the always-on controller, in AONCLK periods | - | 13 R493 | disarmed -/
  alarm : Option Nat := none
  /-- AONCLK periods counted in DEEP or OFF | - | 13 R493 | 0 -/
  aon : Nat := 0
  /-- AVSBus write in progress: occasion and target mV | - | 02 R82, 13 R509 | none -/
  avs : Option (AvsOcc × Nat) := none
  /-- AVSBus frames of the write in progress, or of the last one, in order | 32 each | 02 R82, R83 | none -/
  bus : List AvsFrame := []
  /-- Target voltage last acknowledged by the rail, mV | 12 | 02 R83 | 0 -/
  mv : Nat := 0
  /-- An aging step is due | 1 | 13 R511 | 0 -/
  agingDue : Bool := false
  /-- A voltage timeout is to be raised at the next RUN | 1 | 13 R509 | 0 -/
  vtDue : Bool := false
  /-- The Hub main isolation clamps are applied | 1 | 02 R80 | 0 -/
  clamp : Bool := false
  /-- VDD_OFF_REQ | 1 | 02 R77 | 0 -/
  offReq : Bool := false
  /-- CW_PSTATE | 3 | 02 R77 | 0b100 OFF -/
  cwPstate : PState := .off
  /-- The Hub main domain is held in reset | 1 | 13 R508, 16 R575 | 1 -/
  hubReset : Bool := true
  deriving DecidableEq, Repr

/-! ## Errors, arbitration, check units, injection and the Setup Lock (chapter 14) -/

/-- A captured record: ERR.ING_MALF_CAP and ERR.ING_UNMAP_CAP (04 R139, 14 R550). -/
structure IngCap where
  /-- MIP | 7 | 14 R550 | 0 -/
  mip : Nat := 0
  /-- CAUSE | 4 | 14 R550 | 0 -/
  cause : Nat := 0
  /-- REQID | 16 | 14 R550 | 0 -/
  reqid : Nat := 0
  /-- VALID | 1 | 14 R550 | 0 -/
  valid : Bool := false
  deriving DecidableEq, Repr

/-- ERR.UE_CAP, Table 14-11 (14 R516). -/
structure UeCap where
  /-- CODE | 5 | 14 R550 | 0 -/
  code : Nat := 0
  /-- CLASS | 2 | 14 R550 | 0 -/
  cls : Nat := 0
  /-- INDEX | 24 | 14 R550 | 0 -/
  index : Nat := 0
  /-- VALID | 1 | 14 R550 | 0 -/
  valid : Bool := false
  deriving DecidableEq, Repr

/-- ERR.ACC_CAP, Table 14-13 (14 R544). -/
structure AccCap where
  /-- KIND | 2 | 14 R550 | 0 -/
  kind : Nat := 0
  /-- OFFSET: word offset | 18 | 14 R550 | 0 -/
  offset : Nat := 0
  /-- WRITE | 1 | 14 R550 | 0 -/
  write : Bool := false
  /-- VALID | 1 | 14 R550 | 0 -/
  valid : Bool := false
  deriving DecidableEq, Repr

/-- ERR.STATUS, Table 14-10; ADM_VOID and TB_INVALID follow the clock and the pin (14 R550). -/
structure ErrStat where
  /-- CE | 1 | 14 R515 | 0 -/
  ce : Bool := false
  /-- UE_REC | 1 | 14 R516 | 0 -/
  ueRec : Bool := false
  /-- UE_SURPLUS | 1 | 14 R516 | 0 -/
  ueSur : Bool := false
  /-- FATAL | 1 | 14 R517 | 0 -/
  fatal : Bool := false
  /-- ACCESS | 1 | 14 R544 | 0 -/
  access : Bool := false
  /-- FP_FAIL | 1 | 14 R522 | 0 -/
  fpFail : Bool := false
  /-- SCRUB_LATE | 1 | 14 R533 | 0 -/
  scrubLate : Bool := false
  deriving DecidableEq, Repr

/-- Block ERR (14 R550). -/
structure Err where
  /-- ERR.STATUS | 32 | 14 R550 | 0 -/
  st : ErrStat := {}
  /-- ERR.CE_CNT | 32 | 14 R515 | 0 -/
  ceCnt : Word := 0
  /-- ERR.UE_CNT | 32 | 14 R516 | 0 -/
  ueCnt : Word := 0
  /-- ERR.UE_CAP | 32 | 14 R516 | 0 -/
  ueCap : UeCap := {}
  /-- ERR.ING_MALF_CNT | 32 | 02 R54 | 0 -/
  malfCnt : Word := 0
  /-- ERR.ING_MALF_CAP | 32 | 02 R54 | 0 -/
  malfCap : IngCap := {}
  /-- ERR.ING_UNMAP_CNT | 32 | 04 R139 | 0 -/
  unmapCnt : Word := 0
  /-- ERR.ING_UNMAP_CAP | 32 | 04 R139 | 0 -/
  unmapCap : IngCap := {}
  /-- ERR.WL_COAL_CNTg | 12 x 32 | 04 R141 | 0 -/
  wlCoal : Tab Word := []
  /-- ERR.ACC_CNT | 32 | 14 R544 | 0 -/
  accCnt : Word := 0
  /-- ERR.ACC_CAP | 32 | 14 R544 | 0 -/
  accCap : AccCap := {}
  /-- ERR.FP_FAIL_CNT | 32 | 14 R522 | 0 -/
  fpFailCnt : Word := 0
  /-- ERR.SCRUB_CFG.PERIOD | 8 | 14 R550 | 0x10 -/
  scrubPeriod : BitVec 8 := 0x10
  /-- ERR.SCRUB_CFG.EN | 1 | 14 R550 | 1 -/
  scrubEn : Bool := true
  /-- ERR.SCRUB_LATE_CNT | 32 | 14 R533 | 0 -/
  scrubLateCnt : Word := 0
  deriving DecidableEq, Repr

/-- Counters of one input of one bank's arbiter (14 R532). -/
structure ArbCnt where
  /-- ARB.GRANTi | 32 | 14 R532 | 0 -/
  grant : Word := 0
  /-- ARB.WAITi | 32 | 14 R532 | 0 -/
  wait : Word := 0
  /-- ARB.MAXWi | 32 | 14 R532 | 0 -/
  maxw : Word := 0
  /-- HCLK that the input's standing request has waited | 32 | 14 R532 | 0 -/
  cur : Word := 0
  deriving DecidableEq, Repr

/-- The State Store Arbiters and the scrubbers (14 R525 to R535). -/
structure Arb where
  /-- ARB.CTL.BANK | 4 | 14 R550 | 0 -/
  bank : BitVec 4 := 0
  /-- ARB.CTL.ALL | 1 | 14 R550 | 0 -/
  all : Bool := false
  /-- ARB.CTL.MODE | 16 | 14 R530 | 0xFFFF -/
  mode : BitVec 16 := 0xFFFF
  /-- Counters, key 8 * bank + input | 128 | 14 R532 | 0 -/
  cnt : Tab ArbCnt := []
  /-- ARB.REVOKE_CNT | 32 | 14 R531 | 0 -/
  revoke : Word := 0
  /-- A grant held without the end of its transfer, per bank: the input | 16 | 14 R531 | none -/
  stuck : Tab Nat := []
  /-- Next row the scrubber requests, per bank | 14 x 16 | 14 R533 | 0 -/
  scrubRow : Tab Nat := []
  /-- Input 7 round-robin: link served last, per bank | 4 per bank | 06 R234 | 15 -/
  rr7 : Tab Nat := []
  /-- Banks whose input 5 served the Ranking Unit last, not a clause result | 16 | 05 R179 | none -/
  turn5 : NSet := []
  /-- Banks whose scrub request of the last period has not been granted | 16 | 14 R533 | none -/
  scrubPend : NSet := []
  deriving DecidableEq, Repr

/-- The Check Value Units CVU0 to CVU5 and the link units' status (14 R523, R524). -/
structure Cvu where
  /-- CVU.STAT.HOST | 6 | 14 R550 | 0 -/
  host : NSet := []
  /-- CVU.STAT.LINK | 16 | 14 R550 | 0 -/
  link : NSet := []
  /-- CVU.CNTu.MISMATCH | 6 x 16 | 14 R524 | 0 -/
  mis : Tab (BitVec 16) := []
  /-- CVU.CNTu.DISAGREE | 6 x 16 | 14 R523 | 0 -/
  dis : Tab (BitVec 16) := []
  /-- CVU.CAPu | 6 x 32 | 14 R550 | 0 -/
  cap : Tab Word := []
  deriving DecidableEq, Repr

/-- Block INJ, Table 14-18 (14 R545). -/
structure Inj where
  /-- INJ.ARM | 28 | 14 R545 | 0 -/
  arm : NSet := []
  /-- INJ.CFG | 14 | 14 R550 | 0 -/
  cfg : BitVec 14 := 0
  /-- INJ.STAT.REFUSED | 1 | 14 R546 | 0 -/
  refused : Bool := false
  /-- INJ.STAT.FIRED | 1 | 14 R545 | 0 -/
  fired : Bool := false
  /-- INJ.STAT.LAST | 5 | 14 R545 | 0 -/
  last : Nat := 0
  deriving DecidableEq, Repr

/-- A word with a double-bit error in an SRAM other than the State Store, by the structure of Table 14-1 that it belongs to
(14 R516, R535). -/
inductive Upset where
  /-- codes 3 and 4 -/
  | cacheLine (line : Nat)
  | program (c a : Nat)
  | data (c a : Nat)
  | attachment (c a : Nat)
  | region (c r : Nat)
  /-- code 8 when the error is in the item's STT index, MAPGEN or handle field, code 9 when only in its sample words or
  timestamp: record `k` of a dispatch queue, a lane's holding register of a bank, update `k` of the spill path, a link's
  notice holding register of a bank -/
  | queued (c k : Nat) (names : Bool)
  | holding (lane bank : Nat) (names : Bool)
  | spillPath (k : Nat) (names : Bool)
  | notice (n bank : Nat) (names : Bool)
  | sttEntry (i : Nat)
  | requester (r : Nat)
  | envelope (n : Nat)
  | route (i : Nat)
  | group (g : Nat)
  | vctEntry (k : Nat)
  | priority (p : Nat)
  /-- a handle of a link, or of peer `n` - 16 a proxy -/
  | handle (n h : Nat)
  /-- word `w` of the parked, posted or Geyser bitmap -/
  | parkedWord (w : Nat)
  | postedWord (w : Nat)
  | geyserWord (w : Nat)
  | arrivalWord (w : Nat)
  | frozenWord (w : Nat)
  | timer (c a : Nat)
  | candidate (n k : Nat)
  | replay (n : Nat)
  /-- copy `k` of a context's Ready List, entry `k` of its active stack -/
  | ready (n c k : Nat)
  | active (n c k : Nat)
  | running (n c : Nat)
  | floor (n c : Nat)
  | caldera
  deriving DecidableEq, Repr

/-- Stored words whose SECDED code is broken (14 R515, R516): the content of the check bits that matters. -/
structure Ecc where
  /-- State Store slots whose entry is uncorrectable and not yet rebuilt | 262,144 | 14 R518 | none -/
  entryBad : NSet := []
  /-- State Store slots whose entry holds a single-bit error | 262,144 | 14 R515, R533 | none -/
  entryCe : NSet := []
  /-- Spill State entries in the Line Cache that are uncorrectable | 524,288 | 14 R518 | none -/
  spillBad : NSet := []
  /-- STT entries read as VALID = 0 until MAP_SOURCE rewrites them | 524,288 | 14 R516 code 10 | none -/
  sttBad : NSet := []
  /-- Route Table entries of the live copy read as VALID = 0 | 8,192 | 14 R516 code 12 | none -/
  routeBad : NSet := []
  /-- Route Group Table groups of the live copy read as empty | 2,048 | 14 R516 code 12 | none -/
  groupBad : NSet := []
  /-- Requester Table entries read as VALID = 0 until MAP_SOURCE rewrites them | 65,536 | 14 R516 code 10 | none -/
  reqBad : NSet := []
  /-- Attachment entries, key 1024 * cluster + entry, under which no run starts until ATTACH_CLAUSE rewrites them | 16,384 | 14 R516 code 7 | none -/
  attBad : NSet := []
  /-- Region table entries, key 64 * cluster + region, under which no run starts until LOAD_CLAUSE rewrites them | 1,024 | 14 R516 code 7 | none -/
  regBad : NSet := []
  /-- Envelopes under which every arrival is excess until SET_ENVELOPE rewrites them | 16,384 | 14 R516 code 11 | none -/
  envBad : NSet := []
  /-- Virtual Context Table entries read as not running until SET_SHARE rewrites them | 32,768 | 14 R516 code 13 | none -/
  vctBad : NSet := []
  /-- Handles never freed, key 1024 * link + handle, and from key 16,384 on the proxies toward each peer | 20,480 | 14 R516 code 15 | none -/
  handleBad : NSet := []
  /-- Words of the other SRAMs that hold a double-bit error that no read has found, in the order in which their scrubbers reach
  them: an input | list | 14 R516, R535 | none -/
  upsets : List Upset := []
  /-- Words of the other SRAMs that hold a single-bit error | count | 14 R535 | 0 -/
  otherCe : Nat := 0
  deriving DecidableEq, Repr

/-- One Setup Lock agent slot, Table 14-21 (14 R536). -/
structure LockAgent where
  /-- SRCID | 8 | 14 R536 | 0 -/
  srcid : BitVec 8 := 0
  /-- VALID | 1 | 14 R536 | 0 -/
  valid : Bool := false
  /-- BREAKER | 1 | 14 R541 | 0 -/
  breaker : Bool := false
  /-- The slot has taken its one write since the last start | 1 | 14 R536 | 0 -/
  written : Bool := false
  deriving DecidableEq, Repr

/-- The Setup Lock (14 R536 to R542). -/
structure Lock where
  /-- LOCK.CTL.LEASE | 10 | 14 R550 | 0 -/
  lease : Nat := 0
  /-- LOCK.STAT.HELD | 1 | 14 R538 | 0 -/
  held : Bool := false
  /-- LOCK.STAT.OWNER | 4 | 14 R538 | 0 -/
  owner : Nat := 0
  /-- LOCK.STAT.BROKEN | 1 | 14 R541 | 0 -/
  broken : Bool := false
  /-- LOCK.STAT.BREAK_CAUSE | 2 | 14 R541 | 0b00 -/
  cause : BitVec 2 := 0
  /-- LOCK.STAT.REL_PEND | 1 | 14 R540 | 0 -/
  relPend : Bool := false
  /-- LOCK.STAT.DENIED | 1 | 14 R538 | 0 -/
  denied : Bool := false
  /-- LOCK.STAT.REMAIN | 10 | 14 R539 | 0 -/
  remain : Nat := 0
  /-- LOCK.AGENTa | 16 | 14 R536 | 0 -/
  agents : Tab LockAgent := []
  /-- LOCK.REFUSE_CNT | 32 | 14 R542 | 0 -/
  refuseCnt : Word := 0
  deriving DecidableEq, Repr

/-! ## Debug (chapter 15) -/

/-- Debug levels (15 R554). -/
inductive Level where
  | none | observe | invasive
  deriving DecidableEq, Repr

/-- An observation probe: DBG.PROBEp_CFG, _IDX and _CNT (15 R564, R574). -/
structure Probe where
  /-- EVENT | 4 | 15 R574 | 0 -/
  event : Nat := 0
  /-- EN | 1 | 15 R574 | 0 -/
  en : Bool := false
  /-- TRACE | 1 | 15 R574 | 0 -/
  trace : Bool := false
  /-- DOM_EN | 1 | 15 R574 | 0 -/
  domEn : Bool := false
  /-- CLS_EN | 1 | 15 R574 | 0 -/
  clsEn : Bool := false
  /-- CLASS | 2 | 15 R574 | 0 -/
  cls : BitVec 2 := 0
  /-- DOMID | 12 | 15 R574 | 0 -/
  domid : Nat := 0
  /-- IDX | 19 | 15 R574 | 0 -/
  idx : Nat := 0
  /-- IDX_EN | 1 | 15 R574 | 0 -/
  idxEn : Bool := false
  /-- DBG.PROBEp_CNT | 32 | 15 R564 | 0 -/
  cnt : Word := 0
  deriving DecidableEq, Repr

/-- Trace buffer (15 R565). -/
structure Trace where
  /-- WRAP | 1 | 15 R565 | 0 -/
  wrap : Bool := false
  /-- FULL | 1 | 15 R565 | 0 -/
  full : Bool := false
  /-- DROPPED | 16 | 15 R565 | 0 -/
  dropped : BitVec 16 := 0
  /-- Records, oldest first: low word, high word | 1,024 x 64 | 15 R565 | empty -/
  recs : List (Word × Word) := []
  deriving DecidableEq, Repr

/-- Memory window: DBG.MEM_CTL, MEM_ADDR, MEM_DATA (15 R568, R574). -/
structure MemWin where
  /-- SPACE | 3 | 15 R574 | 0 -/
  space : Nat := 0
  /-- WRITE | 1 | 15 R574 | 0 -/
  write : Bool := false
  /-- CLUSTER | 4 | 15 R574 | 0 -/
  cluster : Nat := 0
  /-- ENGINE | 4 | 15 R574 | 0 -/
  engine : Nat := 0
  /-- DONE | 1 | 15 R568 | 0 -/
  done : Bool := false
  /-- ERR | 1 | 15 R568 | 0 -/
  err : Bool := false
  /-- A State Store operation waits at input 0 of its bank | 1 | 15 R568 | 0 -/
  waits : Bool := false
  /-- DBG.MEM_ADDR | 19 | 15 R574 | 0 -/
  addr : Nat := 0
  /-- DBG.MEM_DATA_LO | 32 | 15 R574 | 0 -/
  lo : Word := 0
  /-- DBG.MEM_DATA_HI | 32 | 15 R574 | 0 -/
  hi : Word := 0
  deriving DecidableEq, Repr

/-- The test access port and authenticated unlock (15 R557 to R563). -/
structure Tap where
  /-- Instruction register | 8 | 15 R557 | IDCODE 0x01 -/
  ir : BitVec 8 := 1
  /-- Pending challenge: N, LEVEL_REQ, and FAILS when it was formed | 128 + 2 + 4 | 15 R560 | none -/
  chal : Option (BitVec 128 × BitVec 2 × Nat) := none
  /-- DBG_CHAL status presented at Capture-DR | 8 | 15 R560 | 0x01 NONE -/
  chalStatus : BitVec 8 := 1
  /-- Response being compared: the bits shifted in, the challenge and its FAILS | 256 | 15 R561 | none -/
  auth : Option (BitVec 256 × BitVec 128 × BitVec 2 × Nat) := none
  /-- Outcome of the last check at Capture-DR | 8 | 15 R561 | 0 (DESIGN CHOICE 9) -/
  outcome : BitVec 8 := 0
  /-- DBG_REG data read by the last access | 32 | 15 R558 | 0 (DESIGN CHOICE 9) -/
  data : Word := 0
  /-- DBG_REG status of the last access | 2 | 15 R558 | 0b00 OK -/
  status : BitVec 2 := 0
  /-- FAILS, in the always-on domain | 4 | 15 R562 | 0 -/
  fails : Nat := 0
  deriving DecidableEq, Repr

/-- Block DBG and the TAP (15 R574). -/
structure Dbg where
  /-- DBG.STAT.LEVEL | 2 | 15 R554 | NONE -/
  level : Level := .none
  /-- DBG.STAT.SRC | 1 | 15 R574 | 0 -/
  src : Bool := false
  /-- DBG.STAT.LVL_REFUSED | 1 | 15 R555 | 0 -/
  lvlRefused : Bool := false
  /-- DBG.STAT.TAINT | 1 | 15 R569 | 0 -/
  taint : Bool := false
  /-- DBG.STAT.LC | 2 | 15 R551 | 0b00 -/
  lc : BitVec 2 := 0
  /-- Probes | 4 | 15 R564 | 0 -/
  probes : Tab Probe := []
  /-- Trace buffer | - | 15 R565 | empty -/
  trace : Trace := {}
  /-- DBG.HALT.CL | 16 | 15 R566 | 0 -/
  haltCl : NSet := []
  /-- DBG.HALT.SEQ | 1 | 15 R566 | 0 -/
  haltSeq : Bool := false
  /-- Memory window | - | 15 R568 | 0 -/
  mw : MemWin := {}
  /-- Sequencer private RAM | 32,768 x 32 | 01 (Units of the Hub), 15 R568 | 0 (DESIGN CHOICE 9) -/
  seqRam : Tab Word := []
  /-- A word of the Sequencer's private RAM is uncorrectable | 1 | 14 R521 | 0 -/
  seqBad : Bool := false
  /-- TAP and unlock | - | 15 R557 | IDCODE -/
  tap : Tap := {}
  /-- Latched HI halves, by agent: key its source identifier, 256 for the debug agent; offset of HI and value
  | 20 + 32 | 17 R603 | none -/
  hiLatch : Tab (Nat × Word) := []
  /-- Value returned by the last register read of each agent, same key | 32 | 00 R6 | 0 (DESIGN CHOICE 9) -/
  rdata : Tab Word := []
  deriving DecidableEq, Repr

/-! ## Hub control, long operations, resets and starts (chapters 04, 16) -/

/-- Registers of block HCTL that no other part holds (04 R156, R135). -/
structure Hctl where
  /-- HCTL.SST_BASE_LO | 32 | 04 R156 | 0 -/
  sstLo : Word := 0
  /-- HCTL.SST_BASE_HI | 32 | 04 R156 | 0 -/
  sstHi : Word := 0
  /-- HCTL.MSIWIN_LO | 32 | 04 R135 | 0 -/
  msiLo : Word := 0
  /-- HCTL.MSIWIN_HI | 32 | 04 R135 | 0 -/
  msiHi : Word := 0
  /-- HID.FW_VERSION.FWVER | 16 | 17 R609 | ROM, loaded in S4; 0 before it (DESIGN CHOICE 9) -/
  fwver : Nat := 0
  /-- HID.TILE_POP | 16 | 17 R609 | Fuse, read in S5; 0 before it (DESIGN CHOICE 9) -/
  tilePop : NSet := []
  /-- Populated target contexts of HID.CTX_POPj | 1,024 | 17 R608, R609 | Fuse, read in S5; 0 before it (DESIGN CHOICE 9) -/
  ctxPop : NSet := []
  deriving DecidableEq, Repr

/-- Progress of a long operation (16 R592). -/
inductive OpProg where
  | none
  | scrub (fixed : Nat)
  /-- SPILL_ALL: lines not yet acknowledged, and whether the header has been issued -/
  | spill (left : NSet) (hdr failed : Bool)
  /-- an operation whose work is done and whose end has not been reported -/
  | ended (result detail : Nat)
  /-- SELFTEST: the unit that fails, and the cluster that drains -/
  | selftest (fail : Option Nat) (k : Nat)
  /-- RESTORE_ALL: the image's checks have passed; its image number -/
  | restore (img : Nat)
  /-- RESTORE_ALL: the sections are written, and spilled entries are being zeroed -/
  | zeroing
  /-- SETTLE: next STT index -/
  | settle (next : Nat)
  deriving DecidableEq, Repr

/-- Block OPS (16 R598). -/
structure Ops where
  /-- OPS.STAT.BUSY | 1 | 16 R592 | 0 -/
  busy : Bool := false
  /-- OPS.STAT.OP | 3 | 16 R592 | 0 -/
  op : Nat := 0
  /-- OPS.STAT.RESULT | 4 | 16 R598 | 0 -/
  result : Nat := 0
  /-- OPS.STAT.DETAIL | 8 | 16 R598 | 0 -/
  detail : Nat := 0
  /-- OPS.STAT.PROGRESS | 8 | 16 R598 | 0 -/
  progress : Nat := 0
  /-- OPS.STAT.DONE | 1 | 16 R598 | 0 -/
  done : Bool := false
  /-- OPS.STAT.REFUSED | 1 | 16 R592 | 0 -/
  refused : Bool := false
  /-- Progress of the running operation | - | 16 R592 | none -/
  prog : OpProg := .none
  deriving DecidableEq, Repr

/-- Kinds of start, encoding of OPS.START_STAT.KIND (16 R598). -/
inductive StartKind where
  | cold | warm | off
  deriving DecidableEq, Repr

/-- OPS.START_STAT, Table 16-11 (16 R598). -/
structure StartStat where
  /-- KIND | 2 | 16 R598 | 0b00 -/
  kind : StartKind := .cold
  /-- CONVERTED | 1 | 16 R584 | 0 -/
  converted : Bool := false
  /-- CONV_CAUSE | 3 | 16 R598 | 0 -/
  convCause : Nat := 0
  /-- RETRIED | 1 | 16 R598 | 0 -/
  retried : Bool := false
  /-- FAILED_BEFORE | 1 | 16 R591 | 0 -/
  failedBefore : Bool := false
  /-- FAIL1 | 4 | 16 R598 | 0 -/
  fail1 : Nat := 0
  /-- FAIL2 | 4 | 16 R598 | 0 -/
  fail2 : Nat := 0
  deriving DecidableEq, Repr

/-- Where a start in progress stands (16 R582): what it waits for. -/
inductive StartAt where
  /-- S2: the IRQPLL has not locked -/
  | s2
  /-- S8: an AVSBus write is not acknowledged -/
  | s8
  /-- S12: links are being trained -/
  | s12
  deriving DecidableEq, Repr

/-- The always-on part of starts (16 R578, R589 to R591). -/
structure Aon where
  /-- Start in progress and its kind | - | 16 R582 | a cold start, at S2 -/
  start : Option (StartKind × StartAt) := some (.cold, .s2)
  /-- LOSS flag | 1 | 16 R578 | 0 -/
  loss : Bool := false
  /-- RESTORE_ALL flag | 1 | 16 R595 | 0 -/
  restoreAll : Bool := false
  /-- CW_FAILED: the FAILED latch | 1 | 02 R77, 16 R590 | 0 -/
  failed : Bool := false
  /-- A failed start has used its retry | 1 | 16 R589 | 0 -/
  retried : Bool := false
  /-- Recorded cause of the first failed attempt | 4 | 16 R589 | 0 -/
  fail1 : Nat := 0
  /-- Recorded cause of the second failed attempt | 4 | 16 R589 | 0 -/
  fail2 : Nat := 0
  /-- The FAILED latch was set before the start in progress | 1 | 16 R591 | 0 -/
  failedBefore : Bool := false
  /-- Conversion of the start in progress: CONV_CAUSE, 0 for none | 3 | 16 R584 | 0 -/
  conv : Nat := 0
  deriving DecidableEq, Repr

/-! ## Images held outside the Hub main domain (chapter 13) -/

/-- What the Caldera's save area keeps of a link, Table 13-7 (13 R495). -/
structure LinkSave where
  st : LState := .down
  quiesce : Bool := false
  wakeEn : Bool := false
  live : Dword := 0
  shad : Dword := 0
  txSeq : BitVec 8 := 0
  rxExp : BitVec 8 := 0
  deriving DecidableEq, Repr

/-- The Caldera save area, Table 13-7 (13 R495): copies of the listed registers. -/
structure SaveArea where
  clk : Clk := {}
  regs : PwrRegs := {}
  cfg : PwrCfg := {}
  hctl : Hctl := {}
  geysers : Tab Geyser := []
  epoch : Bool := false
  mgr : Tab Pair := []
  lcEn : Bool := false
  cls : Tab ClRegs := []
  links : Tab LinkSave := []
  fed : Bool × Nat × Word × Word := (false, 0, 0, 0)
  level : Level := .none
  lc : BitVec 2 := 0
  agents : Tab LockAgent := []
  deriving DecidableEq, Repr

/-- The Caldera: header of Table 13-6 and save area (13 R495). -/
structure Caldera where
  /-- MAGIC, FMT and VERSION are those this block writes | 1 | 13 R495 | 0 -/
  magic : Bool := false
  /-- CALSEQ | 24 | 13 R495 | 0 -/
  calseq : Nat := 0
  /-- VALID | 1 | 13 R497 | 0 -/
  valid : Bool := false
  /-- KIND: DEEP or OFF | 3 | 13 R495 | 0 (RUN: no image written) -/
  kind : PState := .run
  /-- SPILLSEQ | 24 | 13 R495 | 0 -/
  spillseq : Nat := 0
  /-- AGING | 6 | 13 R495 | 0 -/
  aging : BitVec 6 := 0
  /-- CHECK matches the image | 1 | 13 R496 | 0 -/
  check : Bool := false
  /-- Save area | 16 KiB in all | 13 R495 | empty -/
  save : SaveArea := {}
  deriving DecidableEq, Repr

/-- The on-die tables of sources and domains (04, 11). -/
structure Sram where
  /-- State Store slots | 262,144 | 04 R153 | zero -/
  slots : Tab Slot := []
  /-- Source Translation Table | 524,288 | 04 R136 | VALID = 0 -/
  stt : Tab Stt := []
  /-- Requester Table | 65,536 | 04 R133 | VALID = 0 -/
  req : Tab Requester := []
  /-- Envelopes | 16,384 | 04 R147 | 0 -/
  env : Tab Envelope := []
  /-- IGRP of each envelope | 4 x 16,384 | 09 R343 | 0 (DESIGN CHOICE 9) -/
  igrp : Tab Nat := []
  /-- Virtual Context Table | 32,768 | 11 R416 | not running -/
  vct : Tab VEntry := []
  /-- Domains | 4,096 | 11 R406 | ABSENT -/
  doms : Tab Dom := []
  deriving DecidableEq, Repr

/-- What the spill image's sections hold, R499 (13 R499). -/
structure SpillBody where
  sram : Sram := {}
  rank : Ranking := {}
  cls : Tab Cluster := []
  tim : Timers := {}
  handles : Tab (Tab Handle) := []
  spillBits : NSet := []
  frozenBits : NSet := []
  deriving DecidableEq, Repr

/-- The spill image's header counts and private sections (13 R498 to R501). -/
structure Spill where
  /-- SPILLSEQ of the last spill | 24 | 13 R500 | 0 -/
  seq : Nat := 0
  /-- Sections of the spill images written so far, the image named n in line 1 of its host memory at place n; their
  layout is the block's own (DESIGN CHOICE 10) | - | 13 R499 | none -/
  bodies : List SpillBody := []
  deriving DecidableEq, Repr

/-! ## Time and pins (chapters 02, 06) -/

/-- Time base, frame counter and the ticks derived from REFCLK_100 (02 R77, 06 R210, 07 R297). -/
structure Time where
  /-- TB_NS | 64 | 02 R77 | 0 (DESIGN CHOICE 9): an input -/
  tb : Dword := 0
  /-- TB_VALID | 1 | 02 R77 | 0 (DESIGN CHOICE 9): an input -/
  valid : Bool := false
  /-- Sixths of a nanosecond elapsed since TB_NS last advanced | 3 | 09 R346 | 0 -/
  sixths : Nat := 0
  /-- HCLK within the frame; TDM.FRAME.SLOT is its quarter | 8 | 06 R210 | 0 -/
  hclk : Nat := 0
  /-- TDM.FRAME.COUNT | 24 | 06 R260 | 0 -/
  frames : Nat := 0
  /-- Links whose coming slot has its flit | 16 x 1 | 06 R213 | 0 -/
  filled : NSet := []
  /-- Sixths of a nanosecond since the last 1 µs tick | 13 | 07 R297 | 0 -/
  us : Nat := 0
  /-- 1 µs ticks since the last millisecond | 10 | 14 R539 | 0 -/
  ms : Nat := 0
  deriving DecidableEq, Repr

/-- Inputs of the block that hold a level (02 R77), and what the package's parts would answer. -/
structure Pins where
  /-- Level driven on each wired line, index 64n + m | 1,536 x 1 | 02 R61 | 0 (DESIGN CHOICE 9): an input -/
  lines : NSet := []
  /-- WAKE | 8 | 02 R77 | 0 (DESIGN CHOICE 9): an input -/
  wake : BitVec 8 := 0
  /-- PG_IRQ | 1 | 02 R77 | 1 (DESIGN CHOICE 9): an input -/
  pg : Bool := true
  /-- PKG_ISO_REQ | 1 | 02 R77 | 0 (DESIGN CHOICE 9): an input -/
  iso : Bool := false
  /-- LC_STATE | 2 | 02 R77 | 0b10 DEPLOYED (DESIGN CHOICE 9): an input -/
  lc : BitVec 2 := 2
  /-- FUSE_RDATA of each fuse word | 256 x 32 | 02 R77, 15 R553 | the AX12's population, no key (DESIGN CHOICE 9): an input -/
  fuse : Tab Word := []
  /-- The fuse interface acknowledges within 10 µs | 1 | 16 R589 | 1 (DESIGN CHOICE 9): an input -/
  fuseAck : Bool := true
  /-- Outcome a BIST of the block would have | 1 | 16 R589 | 1 (DESIGN CHOICE 9): an input -/
  bistOk : Bool := true
  /-- Aging offset in mV below which the monitors report too little margin | 6 | 13 R511 | 0 (DESIGN CHOICE 9): an input -/
  need : Nat := 0
  deriving DecidableEq, Repr

/-! ## The whole block -/

/-- Block PWR and its sequences. -/
structure Pwr where
  regs : PwrRegs := {}
  cfg : PwrCfg := {}
  seq : PwrSeq := {}
  deriving DecidableEq, Repr

/-- Everything of the block but the command queue and host memory. -/
structure Blk where
  pins : Pins := {}
  time : Time := {}
  clk : Clk := {}
  pwr : Pwr := {}
  ing : Ingress := {}
  sram : Sram := {}
  rank : Ranking := {}
  ptrs : RankPtrs := {}
  /-- Tile Links | 16 | 06 R210 | DOWN -/
  links : Tab Link := []
  /-- Tile Agents | 16 | 01 R18 | empty -/
  tas : Tab Agent := []
  /-- Clause Engine clusters | 16 | 07 R261 | empty -/
  cls : Tab Cluster := []
  tim : Timers := {}
  rings : Rings := {}
  lc : LCache := {}
  fp : Fabric := {}
  fed : Fed := {}
  err : Err := {}
  arb : Arb := {}
  cvu : Cvu := {}
  inj : Inj := {}
  ecc : Ecc := {}
  lock : Lock := {}
  dbg : Dbg := {}
  hctl : Hctl := {}
  ops : Ops := {}
  ss : StartStat := {}
  aon : Aon := {}
  cal : Caldera := {}
  spill : Spill := {}
  /-- Dispatch records made so far: the model's own field, which keeps their order (03 R125) | - | - | 0 (DESIGN CHOICE 7) -/
  nth : Nat := 0
  /-- Free values drawn so far: the model's own field, no part of the hardware | - | - | 0 (DESIGN CHOICE 7) -/
  free : Nat := 0
  deriving DecidableEq, Repr

/-- The block, the commands waiting for it, and the host memory it reaches. -/
structure State where
  /-- Commands waiting, first in first out: the model's own field | - | - | empty -/
  pending : List Instr := []
  /-- Host memory: rising addresses, no cell equal to 0, which an unlisted address reads as | 2^64 x 8 | 02 R71 | unlisted bytes read 0 (DESIGN CHOICE 3) -/
  mem : List Host.Cell := []
  blk : Blk := {}
  deriving DecidableEq, Repr

/-- Raised by no command: the spec leaves no behaviour of the block undefined (00, Commands, states and terms). -/
inductive Fault where
  /-- A queue holds a command the block cannot take; raised by nobody in this model. Safe: it would only stop. -/
  | unreachable
  deriving DecidableEq, Repr

/-- Why a command was turned away by the model. -/
inductive Refusal where
  /-- The command has no meaning yet: raised by exec's arms that name it. Safe: the model stops where the hardware
  goes on. -/
  | notModelled (mnemonic : String)
  deriving DecidableEq, Repr

/-- The fuse words of the AX12 (00, Where the block sits; 15 Table 15-1). -/
def ax12Fuses : Tab Word :=
  (0, 0x00000FFF) :: (List.range 24).map (fun j => (j + 1, 0xFFFFFFFF))

/-- The block in S1 of the cold start that follows a package cold reset (16 R575, 17 R600): every field at its Reset
value, the IRQPLL enabled with the post-divider at OP2 (01 R42) and not yet locked. -/
def State.reset : State :=
  { blk := { pins := { fuse := ax12Fuses }, clk := { pllOn := true }, pwr := { seq := { clamp := true } } } }

end Sys2Proof.Machine
end

