-- ==== Sys2Proof/Machine/Flags.lean ====
section
/-! DEFINITION. The flags of a clause run: how each kind of instruction sets Z, N, C and V (08 Table 8-1, R323). -/
namespace Sys2Proof.Machine
open Sys2Proof

/-- Bit 23: the sign of a signed value (08 R316). -/
def neg24 (a : Word24) : Bool := a.getLsbD 23

/-- ZN from the result, C and V unchanged. -/
def flagsZN (f : Flags) (r : Word24) : Flags := { f with z := r = 0, n := neg24 r }

/-- ZN from the result, C and V as given. -/
def flagsOf (r : Word24) (c v : Bool) : Flags := { z := r = 0, n := neg24 r, c := c, v := v }

/-- ZNCV of `a + b`: C the carry out of bit 23. -/
def flagsAdd (a b : Word24) : Flags :=
  flagsOf (a + b) (2 ^ 24 ≤ a.toNat + b.toNat) (neg24 a == neg24 b && neg24 (a + b) != neg24 a)

/-- ZNCV of `a - b`: C the borrow. -/
def flagsSub (a b : Word24) : Flags :=
  flagsOf (a - b) (a < b) (neg24 a != neg24 b && neg24 (a - b) != neg24 a)

/-- Flags of SHL by `n`: C is bit 24 - n of the operand, or 0 for n = 0. -/
def flagsShl (a : Word24) (n : Nat) : Flags := flagsOf (a <<< n) (n ≠ 0 && a.getLsbD (24 - n)) false

/-- Flags of a right shift by `n` with this result: C is bit n - 1 of the operand, or 0 for n = 0. -/
def flagsShr (a r : Word24) (n : Nat) : Flags := flagsOf r (n ≠ 0 && a.getLsbD (n - 1)) false

/-- Whether a condition holds, Table 8-3 (08 R323). -/
def condHolds (cond : Nat) (f : Flags) : Bool :=
  match cond with
  | 0 => true
  | 1 => f.z
  | 2 => !f.z
  | 3 => f.n != f.v
  | 4 => f.n == f.v
  | 5 => f.z || f.n != f.v
  | 6 => !f.z && f.n == f.v
  | 7 => f.c
  | 8 => !f.c
  | 9 => f.c || f.z
  | 10 => !f.c && !f.z
  | 11 => f.n
  | 12 => !f.n
  | 13 => f.v
  | 14 => !f.v
  | _ => false

end Sys2Proof.Machine
end

