-- ==== Sys2Proof/Machine/Tab.lean ====
section
/-! DEFINITION. Reading and writing of sparse tables, sets of numbers and saturating counts. -/
namespace Sys2Proof.Machine
open Sys2Proof

/-- The entry of a table at `n`; `d` is what an unlisted key holds. -/
def tabGet {α : Type} (d : α) : Tab α → Nat → α
  | [], _ => d
  | (k, v) :: t, n => if k = n then v else tabGet d t n

/-- A table without its entry at `n`. -/
def tabDel {α : Type} : Tab α → Nat → Tab α
  | [], _ => []
  | (k, v) :: t, n => if k = n then tabDel t n else (k, v) :: tabDel t n

/-- A table with `v` at `n` and nowhere else under that key, rising keys kept rising. -/
def tabPut {α : Type} : Tab α → Nat → α → Tab α
  | [], n, v => [(n, v)]
  | (k, w) :: t, n, v =>
    if n < k then (n, v) :: (k, w) :: tabDel t n
    else if k = n then (n, v) :: tabDel t n
    else (k, w) :: tabPut t n v

/-- A table with `v` at `n`; the default value is not listed. -/
def tabSet {α : Type} [DecidableEq α] (d : α) (t : Tab α) (n : Nat) (v : α) : Tab α :=
  if v = d then tabDel t n else tabPut t n v

/-- A table with `f` applied to its entry at `n`. -/
def tabMod {α : Type} [DecidableEq α] (d : α) (t : Tab α) (n : Nat) (f : α → α) : Tab α :=
  tabSet d t n (f (tabGet d t n))

/-- A table with `f` applied to every listed entry; an entry that becomes the default is not listed. -/
def tabMap {α : Type} [DecidableEq α] (d : α) (f : Nat → α → α) : Tab α → Tab α
  | [] => []
  | (k, v) :: t => if f k v = d then tabDel (tabMap d f t) k else (k, f k v) :: tabMap d f t

/-- Whether a set holds `n`. -/
def setHas (s : NSet) (n : Nat) : Bool := s.contains n

/-- A set with `n`. -/
def setAdd : NSet → Nat → NSet
  | [], n => [n]
  | k :: t, n => if n < k then n :: k :: t else if k = n then k :: t else k :: setAdd t n

/-- A set without `n`. -/
def setDel : NSet → Nat → NSet
  | [], _ => []
  | k :: t, n => if k = n then setDel t n else k :: setDel t n

/-- A set with `n` present or absent as `p` says. -/
def setPut (s : NSet) (n : Nat) (p : Bool) : NSet := if p then setAdd s n else setDel s n

/-- The numbers of a list as a set. -/
def setOf (l : List Nat) : NSet := l.foldl setAdd []

/-- The members of a set from `n` on. -/
def setFrom (s : NSet) (n : Nat) : NSet := s.filter (fun k => n ≤ k)

/-- The positions below `w` at which a word has a 1. -/
def bitsOf (w : Nat) (v : Nat) : NSet := (List.range w).filter (fun k => v.testBit k)

/-- The word whose 1s stand at the members of a set. -/
def bitsTo (s : NSet) : Nat := s.foldl (fun a k => a ||| 2 ^ k) 0

/-- A count that stops at its largest value (the 32-bit counters of 04 R139 and their like). -/
def satInc {w : Nat} (c : BitVec w) : BitVec w := if c = BitVec.allOnes w then c else c + 1

/-- A count of `w` bits raised by `n`, stopping at its largest value. -/
def satAdd {w : Nat} (c : BitVec w) (n : Nat) : BitVec w :=
  if c.toNat + n < 2 ^ w then c + BitVec.ofNat w n else BitVec.allOnes w

/-- Quotient rounded up (00, Pseudocode). -/
def ceilDiv (a b : Nat) : Nat := (a + b - 1) / b

/-- Bits [hi:lo] of a number. -/
def bits (v hi lo : Nat) : Nat := (v >>> lo) % 2 ^ (hi + 1 - lo)

/-- One bit of a number. -/
def bit (v n : Nat) : Bool := v.testBit n

/-- A list with a member entered behind those whose rank is not higher. -/
def insertBy {α : Type} (r : α → Nat) (x : α) : List α → List α
  | [] => [x]
  | y :: t => if r y ≤ r x then y :: insertBy r x t else x :: y :: t

/-- A list in rising order of rank; members of equal rank keep their order. -/
def sortBy {α : Type} (r : α → Nat) (l : List α) : List α := l.foldl (fun a x => insertBy r x a) []

/-- A Bool as a field of one bit. -/
def b2n (b : Bool) : Nat := if b then 1 else 0

/-- The first number from 0 below `n` that satisfies `p`. -/
def firstBelow (n : Nat) (p : Nat → Bool) : Option Nat := (List.range n).find? p

/-- Fields packed into a number: each with its value, width and lowest bit; a value is cut to its width. -/
def pack (fs : List (Nat × Nat × Nat)) : Nat :=
  fs.foldl (fun a f => a ||| ((f.1 % 2 ^ f.2.1) <<< f.2.2)) 0

end Sys2Proof.Machine
end

