-- ==== Sys2Proof/Machine/Operands.lean ====
section
/-! DEFINITION. Layouts: the State Store entry, 64-byte lines, message records, flits and their records. -/
namespace Sys2Proof.Machine
open Sys2Proof

/-! ## The State Store entry -/

/-- An entry in the layout of Table 4-8 (04 R154). -/
def encodeEntry (e : Entry) : Dword :=
  BitVec.ofNat 64 (pack [(b2n e.pend, 1, 0), (b2n e.act, 1, 1), (e.held.toNat, 4, 2), (b2n e.defr, 1, 6),
    (b2n e.dlv, 1, 7), (b2n e.rpt, 1, 8), (b2n e.lvl, 1, 9), (b2n e.shr, 1, 10), (b2n e.used, 1, 11),
    (b2n e.dem, 1, 12), (b2n e.rtv, 1, 13), (e.rclass.toNat, 2, 14), (e.rprio.toNat, 8, 16), (e.gen.toNat, 8, 24),
    (e.rtgt.toNat, 10, 32), (e.stamp.toNat, 14, 42)])

/-- The entry that a stored dword holds (04 R154). -/
def decodeEntry (d : Dword) : Entry :=
  let v := d.toNat
  { pend := bit v 0, act := bit v 1, held := BitVec.ofNat 4 (bits v 5 2), defr := bit v 6, dlv := bit v 7,
    rpt := bit v 8, lvl := bit v 9, shr := bit v 10, used := bit v 11, dem := bit v 12, rtv := bit v 13,
    rclass := BitVec.ofNat 2 (bits v 15 14), rprio := BitVec.ofNat 8 (bits v 23 16),
    gen := BitVec.ofNat 8 (bits v 31 24), rtgt := BitVec.ofNat 10 (bits v 41 32),
    stamp := BitVec.ofNat 14 (bits v 55 42) }

/-! ## Lines of host memory -/

/-- Word `k` of a line (00 R9). -/
def lineWord (l : BitVec 512) (k : Nat) : Word := l.extractLsb' (32 * k) 32

/-- Dword `k` of a line. -/
def lineDword (l : BitVec 512) (k : Nat) : Dword := l.extractLsb' (64 * k) 64

/-- A line with dword `k` replaced. -/
def lineSetDword (l : BitVec 512) (k : Nat) (d : Dword) : BitVec 512 :=
  (l &&& ~~~((BitVec.allOnes 64).setWidth 512 <<< (64 * k))) ||| (d.setWidth 512 <<< (64 * k))

/-- A line from its words, word 0 first. -/
def lineOfWords (ws : List Word) : BitVec 512 :=
  ws.reverse.foldl (fun a w => (a <<< 32) ||| w.setWidth 512) 0

/-- Half `h` of a line: eight words. -/
def lineHalf (l : BitVec 512) (h : Nat) : BitVec 256 := l.extractLsb' (256 * h) 256

/-- A line with half `h` replaced. -/
def lineSetHalf (l : BitVec 512) (h : Nat) (d : BitVec 256) : BitVec 512 :=
  (l &&& ~~~((BitVec.allOnes 256).setWidth 512 <<< (256 * h))) ||| (d.setWidth 512 <<< (256 * h))

/-- The bytes of a line from word `a` to before word `b`, lowest address first. -/
def lineBytes (l : BitVec 512) (a b : Nat) : List Byte :=
  (List.range (4 * (b - a))).map (fun k => l.extractLsb' (8 * (4 * a + k)) 8)

/-! ## Message records (chapter 02) -/

/-- A message record whose beats have passed their checks (02 R49, R57, R58). -/
structure Msg where
  reqid : Nat
  pv : Bool
  data : Bool
  a64 : Bool
  be16 : Bool
  len : Nat
  pasid : Nat
  addr : Dword
  vector : Nat
  vid : Nat
  fmt : Nat
  ns : Nat
  seq : BitVec 8
  channel : Nat
  samples : List Word24
  /-- every reserved field of Table 2-2 or Table 2-4 that the record's kind has is 0 -/
  reservedZero : Bool
  deriving DecidableEq, Repr

/-- Beat `k` of a record, after correction of a single-bit error in beats 4 to 7 (02 R50). -/
def beat (m : MsgRec) (k : Nat) : Nat :=
  let raw := (m.beats.getD k 0)
  match m.ecc.getD (k - 4) .clean with
  | .single n => if k ≥ 4 ∧ n < 32 then (raw ^^^ BitVec.twoPow 32 n).toNat else raw.toNat
  | _ => raw.toNat

/-- Sample word `k` of the payload in beats 4 to 6 (02 R58). -/
def sampleWord (m : MsgRec) (k : Nat) : Word24 :=
  BitVec.ofNat 24 ((beat m 4 + beat m 5 * 2 ^ 32 + beat m 6 * 2 ^ 64) >>> (24 * k))

/-- The fields of a record (Tables 2-2 and 2-4). -/
def decodeMsg (m : MsgRec) : Msg :=
  let b0 := beat m 0
  let b1 := beat m 1
  let b3 := beat m 3
  let data := bit b0 17
  let be16 := bit b0 19
  let ns := bits b3 26 24
  { reqid := bits b0 15 0, pv := bit b0 16, data := data, a64 := bit b0 18, be16 := be16, len := bits b0 23 20,
    pasid := bits b1 19 0, addr := BitVec.ofNat 64 (beat m 2 + b3 * 2 ^ 32),
    vector := if be16 then bits (beat m 4) 15 0 else beat m 4, vid := bits (beat m 2) 15 0, fmt := bits b3 31 28,
    ns := ns, seq := BitVec.ofNat 8 (bits b3 23 16), channel := bits b3 15 0,
    samples := (List.range (min ns 4)).map (sampleWord m),
    reservedZero := bits b0 31 24 == 0 && bits b1 31 20 == 0 && beat m 7 == 0 &&
      (if data then !bit b0 18 && !be16 && !bit b3 27 else beat m 5 == 0 && beat m 6 == 0) }

/-- Payload length in DW by sample count, Table 2-5 (02 R59). -/
def lenOfNs (ns : Nat) : Nat := (3 * ns + 3) / 4

/-! ## Flits and their records (chapter 06) -/

/-- A record of Table 6-2 from its type and its low 20 bits (06 R223). -/
def rec24 (typ : Nat) (low : Nat) : Word24 := BitVec.ofNat 24 (typ * 2 ^ 20 + low % 2 ^ 20)

/-- A record that names a handle in [19:10] and a context in [9:4]. -/
def recHC (typ handle ctx : Nat) : Word24 := rec24 typ ((handle % 1024) * 1024 + (ctx % 64) * 16)

/-- Type of a record, bits [23:20]. -/
def recType (r : Word24) : Nat := bits r.toNat 23 20
/-- HANDLE of a record, bits [19:10]. -/
def recHandle (r : Word24) : Nat := bits r.toNat 19 10
/-- CTX of a record that names a handle, bits [9:4]. -/
def recCtx (r : Word24) : Nat := bits r.toNat 9 4

/-- The CRC-24 of a flit (06 R226), one bit. -/
def crc24Bit (reg : Word24) (b : Bool) : Word24 :=
  let fb := b ^^ reg.getLsbD 23
  let r := reg <<< 1
  if fb then r ^^^ 0x864CFB#24 else r

/-- The CRC-24 over the bits of one beat, most significant first (06 R226). -/
def crc24Beat (reg w : Word24) : Word24 :=
  (List.range 24).foldl (fun r i => crc24Bit r (w.getLsbD (23 - i))) reg

/-- The CRC-24 of a flit's beats 0 to 2, seeded with the sequence number (06 R226). -/
def crc24 (seq : BitVec 8) (b0 b1 b2 : Word24) : Word24 :=
  crc24Beat (crc24Beat (crc24Beat (0xB704CE#24 ^^^ (seq.setWidth 24 <<< 16)) b0) b1) b2

/-- A flit with its CRC-24 (06 R221). -/
def mkFlit (seq : BitVec 8) (b0 b1 b2 : Word24) : Flit := { b0, b1, b2, crc := crc24 seq b0 b1 b2 }

/-- The flit as it is received when the bits of `err` were inverted on the way: beat 0 in [23:0] to beat 3 in
[95:72]. -/
def corrupt (f : Flit) (err : BitVec 96) : Flit :=
  { b0 := f.b0 ^^^ err.extractLsb' 0 24, b1 := f.b1 ^^^ err.extractLsb' 24 24, b2 := f.b2 ^^^ err.extractLsb' 48 24,
    crc := f.crc ^^^ err.extractLsb' 72 24 }

/-- A candidate flit carries 0x1 or 0x2 in bits [23:20] of beat 0 (06 R222). -/
def Flit.isCand (f : Flit) : Bool := recType f.b0 == 1 || recType f.b0 == 2

/-- The records of a record flit that hold content (06 R223). -/
def Flit.records (f : Flit) : List Word24 := [f.b0, f.b1, f.b2].filter (fun r => recType r ≠ 0)

/-- A flit that takes a sequence number of its own: a candidate, or any record but NOP and NAK (06 R225). -/
def Flit.sequenced (f : Flit) : Bool := f.isCand || f.records.any (fun r => recType r ≠ 6)

/-- The reserved bits of a record of Table 6-2 are 0, and its type is not reserved; `up` tells the direction
(06 R223, R224). -/
def recLegal (up : Bool) (r : Word24) : Bool :=
  let v := r.toNat
  match recType r with
  | 0 => bits v 19 0 == 0
  | 3 => bits v 9 0 == 0
  | 4 => bits v 3 0 == 0
  | 5 => if up then bits v 3 0 == 0 else bits v 9 0 == 0
  | 6 => bits v 19 8 == 0
  | 7 => up && bits v 3 0 == 0
  | 8 => bits v 19 0 == 0
  | 9 => bits v 19 0 == 0
  | 10 => if up then bits v 3 2 == 0 else bits v 19 0 == 0
  | 11 => bits v 19 0 == 0
  | 12 => if up then bits v 13 11 == 0 else bits v 9 0 == 0
  | 13 => if up then bits v 13 0 == 0 else bits v 19 0 == 0
  | 14 => up && bits v 3 0 == 0
  | _ => false

/-- A flit without a protocol error (06 R222, R224). -/
def Flit.legal (up : Bool) (f : Flit) : Bool :=
  if f.isCand then !up && bits f.b0.toNat 13 10 == 0
  else recLegal up f.b0 && recLegal up f.b1 && recLegal up f.b2

/-- The rank key of Table 5-1 (05 R164). -/
def mkKey (cls : BitVec 2) (prio : BitVec 8) (urg : BitVec 14) : Word24 := cls ++ prio ++ urg

/-- The level of a key, bits [23:14] (05 R164). -/
def keyLevel (k : Word24) : Nat := bits k.toNat 23 14

/-- The class of a key. -/
def keyClass (k : Word24) : Nat := bits k.toNat 23 22

end Sys2Proof.Machine
end

