-- ==== Sys2Proof/Machine/Ops.lean ====
section
/-! DEFINITION. The named operations over the block's tables, host memory, counters and reports that every
meaning uses. -/
namespace Sys2Proof.Machine
open Sys2Proof

/-! ## Effects on the state -/

/-- A command whose effect is on the block alone: host memory and the queue stay. -/
def State.onBlk (s : State) (f : Blk → Blk) : Host.Outcome State Fault Refusal := .next { s with blk := f s.blk }

/-- A command whose effect on the block reads host memory. -/
def State.onBlkMem (s : State) (f : List Host.Cell → Blk → Blk) : Host.Outcome State Fault Refusal :=
  .next { s with blk := f s.mem s.blk }

/-! ## Host memory -/

/-- The byte of host memory at an address (02 R71). -/
def memRead (m : List Host.Cell) (a : Nat) : Byte := tabGet (0 : Byte) m a

/-- Host memory with one byte written. -/
def memWrite (m : List Host.Cell) (a : Nat) (v : Byte) : List Host.Cell := tabSet (0 : Byte) m a v

/-- The 64-byte line of host memory with line number `line` (02 R71). -/
def memLine (m : List Host.Cell) (line : Nat) : BitVec 512 :=
  (List.range 64).foldr (fun k a => (a <<< 8) ||| (memRead m (64 * line + k)).setWidth 512) 0

/-- Host memory after a whole-line write, which replaces all 64 bytes (02 R72). -/
def memWriteLine (m : List Host.Cell) (line : Nat) (d : BitVec 512) : List Host.Cell :=
  (List.range 64).foldl (fun a k => memWrite a (64 * line + k) (d.extractLsb' (8 * k) 8)) m

/-- The canonical form of host memory: rising addresses, no cell equal to what an unlisted address reads as. -/
def Memory.wf : List Host.Cell → Bool
  | [] => true
  | [(_, v)] => v ≠ 0
  | (a, v) :: (b, w) :: t => v ≠ 0 && a < b && Memory.wf ((b, w) :: t)

/-! ## Entries of the block's tables -/

/-- State Store slot `n` (04 R153). -/
def Blk.slot (b : Blk) (n : Nat) : Slot := tabGet {} b.sram.slots n
/-- The block with slot `n` changed. -/
def Blk.modSlot (b : Blk) (n : Nat) (f : Slot → Slot) : Blk :=
  { b with sram := { b.sram with slots := tabMod {} b.sram.slots n f } }

/-- The STT entry at an index; one found uncorrectable reads as VALID = 0 (04 R136; 14 Table 14-1 code 10). -/
def Blk.stt (b : Blk) (i : Nat) : Stt :=
  let e := tabGet {} b.sram.stt i
  if setHas b.ecc.sttBad i then { e with valid := false } else e
/-- The block with the STT entry at an index changed. -/
def Blk.modStt (b : Blk) (i : Nat) (f : Stt → Stt) : Blk :=
  { b with sram := { b.sram with stt := tabMod {} b.sram.stt i f } }

/-- A Requester Table entry; one found uncorrectable reads as VALID = 0 (04 R133; 14 Table 14-1 code 10). -/
def Blk.requester (b : Blk) (r : Nat) : Requester :=
  let e := tabGet {} b.sram.req r
  if setHas b.ecc.reqBad r then { e with valid := false } else e

/-- A domain (11 R406). -/
def Blk.dom (b : Blk) (d : Nat) : Dom := tabGet {} b.sram.doms d
def Blk.modDom (b : Blk) (d : Nat) (f : Dom → Dom) : Blk :=
  { b with sram := { b.sram with doms := tabMod {} b.sram.doms d f } }

/-- An envelope (04 R147). -/
def Blk.env (b : Blk) (n : Nat) : Envelope := tabGet {} b.sram.env n
def Blk.modEnv (b : Blk) (n : Nat) (f : Envelope → Envelope) : Blk :=
  { b with sram := { b.sram with env := tabMod {} b.sram.env n f } }

/-- A Tile Link (06 R210). -/
def Blk.link (b : Blk) (n : Nat) : Link := tabGet {} b.links n
def Blk.modLink (b : Blk) (n : Nat) (f : Link → Link) : Blk := { b with links := tabMod {} b.links n f }

/-- A Tile Agent (01 R18). -/
def Blk.ta (b : Blk) (n : Nat) : Agent := tabGet {} b.tas n
def Blk.modTa (b : Blk) (n : Nat) (f : Agent → Agent) : Blk := { b with tas := tabMod {} b.tas n f }

/-- A Clause Engine cluster (07 R261). -/
def Blk.cl (b : Blk) (n : Nat) : Cluster := tabGet {} b.cls n
def Blk.modCl (b : Blk) (n : Nat) (f : Cluster → Cluster) : Blk := { b with cls := tabMod {} b.cls n f }

/-- A lane of the ingress (04 R145). -/
def Blk.lane (b : Blk) (n : Nat) : Lane := tabGet {} b.ing.lanes n
def Blk.modLane (b : Blk) (n : Nat) (f : Lane → Lane) : Blk :=
  { b with ing := { b.ing with lanes := tabMod {} b.ing.lanes n f } }

/-- A peer of the federation (12 R452). -/
def Blk.peer (b : Blk) (n : Nat) : Peer := tabGet {} b.fed.peers n
def Blk.modPeer (b : Blk) (n : Nat) (f : Peer → Peer) : Blk :=
  { b with fed := { b.fed with peers := tabMod {} b.fed.peers n f } }

/-- A Virtual Context Table entry of a guest domain, whose run has CMCOUNT entries; one found uncorrectable reads as not running
(11 R416; 14 Table 14-1 code 13). -/
def Blk.vctx (b : Blk) (d v : Nat) : VEntry :=
  let k := (b.dom d).sh.vbase + v
  if v < (b.dom d).sh.cmcount && !setHas b.ecc.vctBad k then tabGet {} b.sram.vct k else {}
def Blk.modVctx (b : Blk) (d v : Nat) (f : VEntry → VEntry) : Blk :=
  let k := (b.dom d).sh.vbase + v
  { b with sram := { b.sram with vct := tabMod {} b.sram.vct k f }, ecc := { b.ecc with vctBad := setDel b.ecc.vctBad k } }

/-- A target context of a Tile Agent. -/
def Agent.ctx (a : Agent) (c : Nat) : Ctx := tabGet {} a.ctxs c
def Agent.modCtx (a : Agent) (c : Nat) (f : Ctx → Ctx) : Agent := { a with ctxs := tabMod {} a.ctxs c f }

/-- A handle of a link, or from link 16 on a proxy toward peer `n` - 16, was found uncorrectable: it is never freed (14 Table
14-1 code 15). -/
def Blk.lostHandle (b : Blk) (n h : Nat) : Bool := setHas b.ecc.handleBad (1024 * n + h)

/-- A handle of a link (06 R232). -/
def Link.handle (l : Link) (h : Nat) : Handle := tabGet {} l.handles h
def Link.modHandle (l : Link) (h : Nat) (f : Handle → Handle) : Link :=
  { l with handles := tabMod {} l.handles h f }

/-! ## Time and population -/

/-- The time base as the Hub uses it: 0 while TB_VALID is low (02 R78). -/
def Blk.now (b : Blk) : Dword := if b.time.valid then b.time.tb else 0

/-- Time base bits [19:6], the unit of STAMP (04 R612). -/
def Blk.stampNow (b : Blk) : BitVec 14 := b.now.extractLsb' 6 14

/-- A target context that HID reports populated (17 R608). -/
def Blk.ctxPop (b : Blk) (p : Nat) : Bool := setHas b.hctl.ctxPop p

/-- The power state RUN, with no start in progress (13 R475, 16 R582). -/
def Blk.inRun (b : Blk) : Bool := b.pwr.regs.state = .run && b.aon.start.isNone && !b.pwr.seq.hubReset

/-- E1 of an entry (13 R485). -/
def PSeq.inPoll : PSeq → Bool
  | .poll _ _ => true
  | _ => false

/-- Per-event logic is clocked: RUN, up to E2 of an entry (13 R475, R485). -/
def Blk.awake (b : Blk) : Bool := b.inRun && (b.pwr.seq.seq = .none || b.pwr.seq.seq.inPoll)

/-- The power states in which the port branches run and the unit state stands: RUN, IDLE, SLEEP, with no start in
progress (13 Table 13-1). -/
def Blk.up (b : Blk) : Bool :=
  b.aon.start.isNone && !b.pwr.seq.hubReset &&
  (match b.pwr.regs.state with
   | .run | .idle | .sleep => true
   | _ => false) &&
  (match b.pwr.seq.seq with
   | .exit _ _ _ => false
   | _ => true)

/-! ## Reports of the error collector (chapter 14) -/

/-- A report of internal source `k`, waiting for the internal lane (04 R143). -/
def Blk.raise (b : Blk) (k : Nat) : Blk := b.modLane 24 (fun l => { l with reports := l.reports ++ [k] })

/-- A corrected error (14 R515). -/
def Blk.corrected (b : Blk) : Blk :=
  ({ b with err := { b.err with ceCnt := satInc b.err.ceCnt, st := { b.err.st with ce := true } } }).raise 0

/-- Classes of Table 14-1: 0 RECOVERED, 1 SURPLUS, 2 FATAL; ERR.STATUS, ERR.UE_CNT, ERR.UE_CAP and the class's
source (14 R516, R517). -/
def Blk.uncorr (b : Blk) (code cls index : Nat) : Blk :=
  let st := b.err.st
  let st := if cls = 0 then { st with ueRec := true }
    else if cls = 1 then { st with ueSur := true } else { st with fatal := true }
  let cap : UeCap := if b.err.ueCap.valid then b.err.ueCap
    else { code := code, cls := cls + 1, index := index % 2 ^ 24, valid := true }
  ({ b with err := { b.err with st := st, ueCnt := satInc b.err.ueCnt, ueCap := cap } }).raise (1 + cls)

/-- An RWL refusal: LOCK.REFUSE_CNT and INTID 0x000A71 (00 R12, 14 R542). -/
def Blk.rwlRefuse (b : Blk) : Blk :=
  ({ b with lock := { b.lock with refuseCnt := satInc b.lock.refuseCnt } }).raise 0x71

/-- A host-memory access that failed at its first attempt (14 R522). -/
def Blk.fpFail (b : Blk) (first : Bool) : Blk :=
  let b := { b with err := { b.err with fpFailCnt := satInc b.err.fpFailCnt, st := { b.err.st with fpFail := true } } }
  if first then b.raise 0x0F else b

/-! ## Injection points (14 R545, R547) -/

/-- Whether armed point `k` fires at an access to part `sel`: in RUN, at the part that INJ.CFG selects. -/
def Blk.injHit (b : Blk) (k sel : Nat) : Bool :=
  setHas b.inj.arm k && b.inRun &&
  (let c := b.inj.cfg.toNat
   if k = 17 ∨ k = 18 ∨ k = 26 then sel == bits c 3 0
   else if k = 6 ∨ k = 7 ∨ k = 19 then sel == bits c 7 4
   else if k = 0 ∨ k = 1 ∨ k = 20 then sel == bits c 11 8
   else if k = 24 then sel == bits c 13 12
   else true)

/-- The Hub clears the point's bit, sets FIRED and writes LAST. -/
def Blk.injDone (b : Blk) (k : Nat) : Blk :=
  { b with inj := { b.inj with arm := setDel b.inj.arm k, fired := true, last := k } }

/-! ## Probes and trace (15 R564, R565) -/

/-- Whether a probe counts an event of kind `ev` on a source of a domain with this class and index. -/
def Probe.hit (p : Probe) (ev stt dom : Nat) (cls : BitVec 2) : Bool :=
  p.en && (p.event == ev || (p.event == 15 && 1 ≤ ev && ev ≤ 14)) && (!p.domEn || p.domid == dom) &&
  (!p.clsEn || p.cls == cls) && (!p.idxEn || p.idx == stt)

/-- A trace record entering the buffer (15 R565). -/
def Trace.put (t : Trace) (r : Word × Word) : Trace :=
  if t.recs.length < 1024 then { t with recs := t.recs ++ [r] }
  else if t.wrap then { t with recs := t.recs.drop 1 ++ [r] }
  else { t with full := true, dropped := satInc t.dropped }

/-- The records of one HCLK: the lowest-numbered probe's record enters, the others are dropped and counted. -/
def Trace.putAll (t : Trace) : List (Word × Word) → Trace
  | [] => t
  | r :: rest => { t.put r with dropped := satAdd (t.put r).dropped rest.length }

/-- Probes count: in RUN and IDLE, up to E1 of an entry to SLEEP, DEEP or OFF. -/
def Blk.probing (b : Blk) : Bool :=
  (b.pwr.regs.state = .run || b.pwr.regs.state = .idle) &&
  (b.pwr.seq.seq = .none || b.pwr.seq.seq.inPoll || b.pwr.seq.seq = .gate .idle)

/-- An event of Table 15-5 takes effect: the probes that match count it, and those that trace record it. -/
def Blk.probe (b : Blk) (ev stt dom : Nat) (cls : BitVec 2) : Blk :=
  if b.dbg.level = .none || !b.probing then b
  else
    let hits := (List.range 4).filter (fun p => (tabGet {} b.dbg.probes p).hit ev stt dom cls)
    let probes := hits.foldl (fun t p => tabMod {} t p (fun q => { q with cnt := satInc q.cnt })) b.dbg.probes
    let hi : Word := if b.time.valid then b.time.tb.extractLsb' 2 32 else 0
    let recs := (hits.filter (fun p => (tabGet {} b.dbg.probes p).trace)).map (fun p =>
      (BitVec.ofNat 32 (pack [(stt, 19, 0), (ev, 4, 19), (p, 2, 23), (cls.toNat, 2, 25)]), hi))
    { b with dbg := { b.dbg with probes := probes, trace := b.dbg.trace.putAll recs } }

/-- An inbound transfer at a port whose data check fails is a failed access: nothing of it takes effect (02 R73). -/
def Blk.portIn (b : Blk) (port : Nat) (f : Blk → Blk) : Blk :=
  if setHas b.fp.badIn port then { b with fp := { b.fp with badIn := setDel b.fp.badIn port } } else f b

/-- The counters of an input after a grant that ends its wait. -/
def ArbCnt.won (c : ArbCnt) : ArbCnt := { c with grant := satInc c.grant, maxw := if c.maxw < c.cur then c.cur else c.maxw, cur := 0 }

/-- Grant of an input of a bank's arbiter (14 R532). -/
def Blk.granted (b : Blk) (bank input : Nat) : Blk :=
  { b with arb := { b.arb with cnt := tabMod {} b.arb.cnt (8 * bank + input) ArbCnt.won } }

/-- Input 5 of a bank served the Ranking Unit, or a clause result (05 R179). -/
def Blk.took5 (b : Blk) (bank : Nat) (ranking : Bool) : Blk :=
  { b with arb := { b.arb with turn5 := setPut b.arb.turn5 bank ranking } }

/-- The next free value of the model: a count that every draw advances. -/
def Blk.drawFree (b : Blk) : Blk × Nat := ({ b with free := b.free + 1 }, b.free)

end Sys2Proof.Machine
end

