-- ==== Sys2Proof/Machine/Cache.lean ====
section
/-! DEFINITION. Host-memory accesses: the Line Cache, its line buffers and whole-line writes (10 R393 to R403). -/
namespace Sys2Proof.Machine
open Sys2Proof

/-- What a Hub read of a line returns: the newest write of the line not yet acknowledged, else host memory. -/
def Blk.hostLine (b : Blk) (m : List Host.Cell) (line : Nat) : BitVec 512 :=
  match b.fp.out.reverse.find? (fun w => w.line == line) with
  | some w => w.data
  | none =>
    match b.lc.bufs.find? (fun w => w.line == line) with
    | some w => w.data
    | none => memLine m line

/-- The lookup is made: the cache is not DISABLED (10 R402). -/
def LCache.on (c : LCache) : Bool := c.st ≠ .disabled

/-- The valid line with this number. -/
def LCache.find (c : LCache) (line : Nat) : Option CLine := c.lines.find? (fun l => l.line == line)

/-- A line moved to the place of the most recently used, or put there. -/
def LCache.front (c : LCache) (l : CLine) : LCache :=
  { c with lines := l :: c.lines.filter (fun k => k.line ≠ l.line) }

/-- A line changed where it stands. -/
def LCache.modLine (c : LCache) (line : Nat) (f : CLine → CLine) : LCache :=
  { c with lines := c.lines.map (fun l => if l.line = line then f l else l) }

/-- The least recently used line that is not held (10 R396). -/
def LCache.victim (c : LCache) : Option CLine := c.lines.reverse.find? (fun l => !l.held)

/-- Occupied line buffers: write-backs, lines held while the cache is DISABLED, and records written through them (10 R397,
R402). -/
def Blk.lbufs (b : Blk) : Nat := b.lc.bufs.length + (b.fp.out.filter (·.buf)).length

/-- A line stands in a line buffer. -/
def Blk.inBuf (b : Blk) (line : Nat) : Bool :=
  b.lc.bufs.any (fun l => l.line == line) || b.fp.out.any (fun w => w.buf && w.line == line)

/-- A line held in a line buffer (10 R402). -/
def LCache.heldBuf (c : LCache) (line : Nat) : Option CLine := c.bufs.find? (fun l => l.line == line && l.held)

/-- LCACHE.STAT.HELD (10 R396, R405). -/
def LCache.heldCount (c : LCache) : Nat := (c.lines.filter (·.held)).length + (c.bufs.filter (·.held)).length

/-- A place for a line: a free one of the 48, or that of the least recently used line. A clean line is dropped, a
dirty one passes to a line buffer; none while the four line buffers are occupied (10 R396, R397, R398). -/
def Blk.makeRoom (b : Blk) : Option LCache :=
  let c := b.lc
  if c.lines.length < 48 then some c
  else match c.victim with
    | none => none
    | some v =>
      let c' := { c with lines := c.lines.filter (fun l => l.line ≠ v.line) }
      if !v.dirty then some c'
      else if b.lbufs < 4 then some { c' with bufs := c.bufs ++ [v], evictCnt := satInc c.evictCnt }
      else none

/-- An access not served from a valid line (10 R405). -/
def LCache.miss (c : LCache) : LCache := { c with missCnt := satInc c.missCnt }

/-- The next attempt to read a line fails: by injection point 10, or at the package fabric (02 R73; 14 R522, R545). -/
def Blk.readFails (b : Blk) (line : Nat) : Bool := b.injHit 10 0 || tabGet 0 b.fp.fail line ≠ 0

/-- One failed attempt, counted; `first` when it is the access's first. -/
def Blk.readFailed (b : Blk) (line : Nat) (first : Bool) : Blk :=
  (if b.injHit 10 0 then b.injDone 10
   else { b with fp := { b.fp with fail := tabMod 0 b.fp.fail line (· - 1) } }).fpFail first

/-- A read that is retried until it succeeds: every attempt that fails is counted. -/
def Blk.readRetries (b : Blk) (line : Nat) : Blk :=
  let n := (if b.injHit 10 0 then 1 else 0) + tabGet 0 b.fp.fail line
  (List.range n).foldl (fun b k => b.readFailed line (k = 0)) b

/-- A read-once access of a line: served from host memory, never a later hit (10 R394). None when the access failed. -/
def Blk.readOnce (b : Blk) (m : List Host.Cell) (line : Nat) : Blk × Option (BitVec 512) :=
  let b := { b with lc := b.lc.miss }
  if b.readFails line then (b.readFailed line true, none) else (b, some (b.hostLine m line))

/-- Point 5: the next hit on a clean line finds it uncorrectable; it is dropped and read again (14 Table 14-1 code
4). -/
def Blk.cleanHit (b : Blk) (l : CLine) : Blk :=
  if !l.dirty && b.injHit 5 0 then
    ({ b.injDone 5 with lc := { b.lc with lines := b.lc.lines.filter (fun k => k.line ≠ l.line) } }).uncorr 4 0 l.line
  else b

/-- A record's line can be had now: a hit, or no fill and no line buffer holds it and a place is free; with the cache
DISABLED, a free line buffer (10 R395, R396, R397, R402). -/
def Blk.recReady (b : Blk) (line : Nat) : Bool :=
  if b.lc.on then
    (b.lc.find line).isSome || (!setHas b.lc.fills line && !b.inBuf line && b.makeRoom.isSome)
  else b.lbufs < 4 && !b.inBuf line

/-- A line's data brought into the cache for a record write: a hit, or a read from host memory that is repeated until
it succeeds (10 R395; 14 R522). -/
def Blk.takeLine (b : Blk) (m : List Host.Cell) (line : Nat) : Blk × BitVec 512 :=
  let b := match b.lc.find line with
    | some l => if b.lc.on then b.cleanHit l else b
    | none => b
  match (if b.lc.on then b.lc.find line else none) with
  | some l => ({ b with lc := b.lc.front l }, l.data)
  | none =>
    let b := ({ b with lc := b.lc.miss }).readRetries line
    let d := b.hostLine m line
    match (if b.lc.on then b.makeRoom else none) with
    | some c => ({ b with lc := c.front { line := line, data := d } }, d)
    | none => (b, d)

/-- A whole-line write issued to host memory, outstanding until it is acknowledged. -/
def Blk.issue (b : Blk) (line : Nat) (d : BitVec 512) (k : WKind) (buf : Bool) : Blk :=
  { b with fp := { b.fp with out := b.fp.out ++ [{ line := line, data := d, kind := k, buf := buf }] } }

/-- A line's newest data put where the enabled cache holds it; a DISABLED cache's contents stay in place (10 R401, R402). -/
def LCache.update (c : LCache) (line : Nat) (d : BitVec 512) : LCache :=
  if c.on then c.modLine line (fun l => { l with data := d }) else c

/-- A record written through the cache: its line is taken, changed, kept clean and written at once; with the cache DISABLED,
through a line buffer (10 R395, R402). -/
def Blk.writeThrough (b : Blk) (m : List Host.Cell) (w : RecW) : Blk :=
  let r := b.takeLine m w.line
  let b := r.1
  let d := lineSetHalf r.2 w.half w.data
  ({ b with lc := b.lc.update w.line d }).issue w.line d w.kind (!b.lc.on)

/-- A whole line written without reading it first: image lines and headers (10 Table 10-12). -/
def Blk.writeLine (b : Blk) (line : Nat) (d : BitVec 512) (k : WKind) : Blk :=
  ({ b with lc := b.lc.update line d }).issue line d k false

/-! ## The Spill State Table -/

/-- Host address of the Spill State Table (04 R156). -/
def Blk.sstBase (b : Blk) : Nat := b.hctl.sstHi.toNat * 2 ^ 32 + bits b.hctl.sstLo.toNat 31 12 * 2 ^ 12

/-- HCTL.SST_BASE_LO.EN. -/
def Blk.sstEn (b : Blk) : Bool := bit b.hctl.sstLo.toNat 0

/-- Line number of the Spill State entry of an STT index: eight entries a line (04 R156). -/
def Blk.sstLine (b : Blk) (i : Nat) : Nat := (b.sstBase + 8 * i) / 64

/-- Whether a Spill State line can be served at once: a hit, a line held in a line buffer, or, the cache being DISABLED, a
free line buffer with no write of the line in another (10 R397, R402). -/
def Blk.sstReady (b : Blk) (line : Nat) : Bool :=
  (b.lc.heldBuf line).isSome || (if b.lc.on then (b.lc.find line).isSome else b.lbufs < 4 && !b.inBuf line)

/-- The block with a Spill State line at hand, most recently used, when it can be had now: no fill of it is outstanding, no
write-back of it stands in a line buffer, and a place is free (10 R396, R397, R402). -/
def Blk.sstFill (b : Blk) (m : List Host.Cell) (line : Nat) : Option Blk :=
  if (b.lc.heldBuf line).isSome then some b
  else if b.lc.on then
    match b.lc.find line with
    | some l => some { b with lc := b.lc.front l }
    | none =>
      if setHas b.lc.fills line || b.inBuf line then none
      else match b.makeRoom with
        | none => none
        | some c =>
          let b := b.readRetries line
          some { b with lc := (c.miss).front { line := line, data := b.hostLine m line } }
  else if b.sstReady line then some { b with lc := b.lc.miss } else none

/-- The newest data of a Spill State line: where it is held, in the cache, or in host memory. -/
def Blk.sstData (b : Blk) (m : List Host.Cell) (line : Nat) : BitVec 512 :=
  match b.lc.heldBuf line with
  | some l => l.data
  | none => match (if b.lc.on then b.lc.find line else none) with
    | some l => l.data
    | none => b.hostLine m line

/-- The Spill State entry of an index. -/
def Blk.sstEntry (b : Blk) (m : List Host.Cell) (i : Nat) : Entry := decodeEntry (lineDword (b.sstData m (b.sstLine i)) (i % 8))

/-- A Spill State entry read: its line is brought into the cache where it can be had; else the data are the newest all the
same (10 R396, R405). -/
def Blk.sstRead (b : Blk) (m : List Host.Cell) (i : Nat) : Blk × Entry :=
  let c := (b.sstFill m (b.sstLine i)).getD { b with lc := b.lc.miss }
  (c, c.sstEntry m i)

/-- A slot whose owner has left it (04 R161; 10 R387). -/
def Slot.unused (s : Slot) : Slot := { s with entry := { s.entry with used := false } }

/-- The slot that a prepared move of the open session gives a source (10 R387). -/
def Blk.preparedSlot (b : Blk) (i : Nat) : Option Nat :=
  match b.rings.session with
  | none => none
  | some s => s.staged.findSome? (fun x => match x with
      | .resident j slot => if j = i then some slot else none
      | _ => none)

/-- During a prepared move every update of the source is applied to the slot too, at input 4 (10 R387). -/
def Blk.mirror (b : Blk) (i : Nat) (e : Entry) : Blk :=
  match b.preparedSlot i with
  | none => b
  | some n => (b.modSlot n (fun _ => { entry := { e with used := true }, owner := i })).granted (n % 16) 4

/-- The Spill State entry of an index written: a held line in its line buffer, or the cached line, becomes dirty, and that
most recently used; with the cache DISABLED the whole line goes to a line buffer (04 R158; 10 R387, R402). -/
def Blk.sstWrite (b : Blk) (m : List Host.Cell) (i : Nat) (e : Entry) : Blk :=
  let b := b.mirror i e
  let line := b.sstLine i
  let d := lineSetDword (b.sstData m line) (i % 8) (encodeEntry e)
  if (b.lc.heldBuf line).isSome then
    { b with lc := { b.lc with bufs := b.lc.bufs.map (fun l =>
        if l.line = line && l.held then { l with data := d, dirty := true } else l) } }
  else match (if b.lc.on then b.lc.find line else none) with
    | some l => { b with lc := b.lc.front { l with data := d, dirty := true } }
    | none => { b with lc := { b.lc with bufs := b.lc.bufs ++ [{ line := line, data := d, dirty := true }] } }

/-! ## Held lines (10 R396, R402) -/

/-- A line is held. -/
def LCache.isHeld (c : LCache) (line : Nat) : Bool := (c.lines ++ c.bufs).any (fun l => l.line == line && l.held)

/-- A Spill State line brought in and held: in the cache, or with the cache DISABLED in a line buffer. None: it cannot be had
now, or eight lines are held already (04 R161; 10 R396, R402). -/
def Blk.holdLine (b : Blk) (m : List Host.Cell) (line : Nat) : Option Blk :=
  match b.sstFill m line with
  | none => none
  | some b =>
    if b.lc.isHeld line then some b
    else if 8 ≤ b.lc.heldCount then none
    else if b.lc.on then some { b with lc := b.lc.modLine line (fun l => { l with held := true }) }
    else some { b with lc := { b.lc with bufs := b.lc.bufs ++ [{ line := line, data := b.hostLine m line, held := true }] } }

/-- A prepared move of the open session holds a line. -/
def Blk.moveHolds (b : Blk) (line : Nat) : Bool :=
  match b.rings.session with
  | none => false
  | some s => s.staged.any (fun x => match x with
      | .resident i _ => b.sstLine i == line
      | _ => false)

/-- A hold ends, unless a prepared move keeps it: a changed line in a line buffer is then written back, an unchanged one
dropped. -/
def Blk.unholdLine (b : Blk) (line : Nat) : Blk :=
  if b.moveHolds line then b
  else { b with lc := { b.lc.modLine line (fun l => { l with held := false }) with
    bufs := (b.lc.bufs.filter (fun l => !(l.line == line && l.held && !l.dirty))).map (fun l =>
      if l.line = line then { l with held := false } else l) } }

end Sys2Proof.Machine
end

