-- ==== Sys2Proof/Machine/Records.lean ====
section
/-! DEFINITION. Check values, rings, event records and completion records (10 R364 to R373, R388 to R392). -/
namespace Sys2Proof.Machine
open Sys2Proof

/-- One bit of the CRC-32C, least significant first (08 R334). -/
def crc32cBit (r : Word) : Word := if r.getLsbD 0 then (r >>> 1) ^^^ 0x82F63B78#32 else r >>> 1

/-- One byte of the CRC-32C. -/
def crc32cByte (r : Word) (c : Byte) : Word :=
  (List.range 8).foldl (fun a _ => crc32cBit a) (r ^^^ c.setWidth 32)

/-- The CRC-32C of a byte sequence (08 R334). -/
def crc32c (l : List Byte) : Word := ~~~(l.foldl crc32cByte (BitVec.allOnes 32))

/-- The four bytes of a word, least significant first (00 R9). -/
def wordBytes (w : Word) : List Byte := (List.range 4).map (fun k => w.extractLsb' (8 * k) 8)

/-- Check value of a ring entry: seed words from sequence, tag and address, then the entry with CHECK zero
(10 R372). -/
def entryCheck (seq tag addr : Nat) (ws : List Word) : Word :=
  crc32c ((BitVec.ofNat 32 (seq + tag * 2 ^ 24) :: BitVec.ofNat 32 (bits addr 36 5) :: ws ++ [0]).flatMap wordBytes)

/-- Entries of a ring (10 R365). -/
def RingQ.size (q : RingQ) : Nat := 2 ^ (6 + q.log2sz)

/-- The distance from a count to a count (10 R366). -/
def seqDist (a b : Nat) : Nat := (b + 2 ^ 24 - a % 2 ^ 24) % 2 ^ 24

/-- The next count. -/
def seqInc (a : Nat) : Nat := (a + 1) % 2 ^ 24

/-- Host address of entry `n` of a ring whose entries take `e` bytes (10 R365). -/
def RingQ.addr (q : RingQ) (e n : Nat) : Nat := q.base + e * (n % q.size)

/-- The notification that a record written for a domain's ring makes (10 R392). -/
def Blk.notify (b : Blk) (d : Nat) : Blk := { b with rings := { b.rings with notes := b.rings.notes ++ [d] } }

/-- What the writing of a record raises or notifies (10 R392). -/
def Blk.recNote (b : Blk) : WKind → Blk
  | .completion (.mgr k) => b.raise (0x8A + k / 2)
  | .completion (.guest d) => if (b.dom d).cnote then b.notify d else b
  | .event d => if !(b.dom d).enote then b else if d = 0 then b.raise 0x89 else b.notify d
  | _ => b

/-- A record of a line that can be had is written. -/
def Blk.recWrite (b : Blk) (m : List Host.Cell) (w : RecW) : Blk := (b.writeThrough m w).recNote w.kind

/-- A 32-byte record in its line at a host address; it waits while its line cannot be had (10 R395, R397, R402). -/
def Blk.writeRec (b : Blk) (m : List Host.Cell) (addr : Nat) (ws : List Word) (k : WKind) : Blk :=
  let w : RecW := { line := addr / 64, half := addr / 32 % 2, data := (lineOfWords ws).setWidth 256, kind := k }
  if b.fp.recs.isEmpty && b.recReady w.line then b.recWrite m w
  else { b with fp := { b.fp with recs := b.fp.recs ++ [w] } }

/-- Waiting records are written in their order, as far as their lines can be had. -/
def Blk.recsGo (b : Blk) (m : List Host.Cell) : List RecW → Blk
  | [] => { b with fp := { b.fp with recs := [] } }
  | w :: rest => if b.recReady w.line then (b.recWrite m w).recsGo m rest else { b with fp := { b.fp with recs := w :: rest } }

/-- A record of a kind is not yet written, or its write not acknowledged. -/
def Blk.recPending (b : Blk) (k : WKind) : Bool := b.fp.out.any (fun w => w.kind == k) || b.fp.recs.any (fun w => w.kind == k)

/-! ## Event Log Queues -/

/-- An event record (10 Table 10-11). -/
structure EvRec where
  code : Nat
  vintid : Word24
  kind : Nat
  time : BitVec 48
  seq : BitVec 8
  words : List Word24
  deriving DecidableEq, Repr

/-- Occupancy limit of a domain's queue: its size or the domain's Event Log limit (10 R389). -/
def Dom.elqLimit (d : Dom) : Nat := min d.elq.ring.size d.sh.elimit

/-- The header line of a domain's queue with its check value (10 Table 10-10). -/
def elqHeader (d : Dom) : BitVec 512 :=
  let ws : List Word := [BitVec.ofNat 32 (b2n d.elq.overflow), d.elq.lost, BitVec.ofNat 32 d.elqLimit] ++
    List.replicate 12 0
  lineOfWords (ws ++ [entryCheck 0 4 d.elq.ring.base ws])

/-- The header of a domain's queue written (10 R390). -/
def Blk.writeHeader (b : Blk) (d : Nat) : Blk :=
  let b := if b.injHit 13 0 then b.injDone 13 else b
  b.writeLine ((b.dom d).elq.ring.base / 64) (elqHeader (b.dom d)) (.header d)

/-- A record arriving at a domain's Event Log Queue: discarded before it is taken while the queue is DISABLED,
otherwise given an ESEQ and written, or discarded at the limit or while BUSY (10 R389, R391, R392). -/
def Blk.elqTake (b : Blk) (m : List Host.Cell) (d : Nat) (r : EvRec) : Blk :=
  let dm := b.dom d
  if dm.elq.st = .disabled then b
  else if dm.elq.st = .busy ∨ dm.elqLimit ≤ seqDist dm.elq.ring.r dm.elq.ring.w then
    (b.modDom d (fun x => { x with elq := { x.elq with overflow := true, lost := satInc x.elq.lost } })).writeHeader d
  else
    let n := dm.elq.ring.w
    let addr := dm.elq.ring.addr 32 n + 64
    let ws : List Word :=
      [BitVec.ofNat 32 (pack [(n, 24, 0), (r.code, 8, 24)]),
       BitVec.ofNat 32 (pack [(r.vintid.toNat, 24, 0), (r.words.length, 2, 24), (r.kind, 2, 26)]),
       BitVec.ofNat 32 (pack [(bits r.time.toNat 23 0, 24, 0), (r.seq.toNat, 8, 24)]),
       BitVec.ofNat 32 (bits r.time.toNat 47 24)] ++
      (List.range 3).map (fun k => (r.words.getD k 0).setWidth 32)
    let b := if b.injHit 13 0 then b.injDone 13 else b
    (b.modDom d (fun x => { x with elq := { x.elq with ring := { x.elq.ring with w := seqInc n } } })).writeRec m
      addr (ws ++ [entryCheck n 3 addr ws]) (.event d)

/-! ## Ring pairs and completion records -/

/-- A ring pair (10 R364). -/
def Blk.pair (b : Blk) : RingId → Pair
  | .mgr m => tabGet {} b.rings.mgr m
  | .guest d => (b.dom d).pair

/-- The block with a ring pair changed. -/
def Blk.modPair (b : Blk) (r : RingId) (f : Pair → Pair) : Blk :=
  match r with
  | .mgr m => { b with rings := { b.rings with mgr := tabMod {} b.rings.mgr m f } }
  | .guest d => b.modDom d (fun x => { x with pair := f x.pair })

/-- What a completion record says (10 Table 10-6). -/
structure Cpl where
  status : Nat := 0
  op : Nat := 0
  tag : Nat := 0
  detail : Nat := 0
  result : List Word := []
  deriving DecidableEq, Repr

/-- The completion record of descriptor `dseq` written, with its notification (10 R379, R392). -/
def Blk.complete (b : Blk) (m : List Host.Cell) (r : RingId) (dseq : Nat) (c : Cpl) : Blk :=
  let q := (b.pair r).cpl
  let n := q.w
  let addr := q.addr 32 n
  let ws : List Word :=
    [BitVec.ofNat 32 (pack [(n, 24, 0), (c.status, 8, 24)]), BitVec.ofNat 32 (pack [(dseq, 24, 0), (c.op, 8, 24)]),
     BitVec.ofNat 32 (pack [(c.tag, 16, 0), (c.detail, 16, 16)])] ++ (List.range 4).map (fun k => c.result.getD k 0)
  let b := if b.injHit 12 0 then b.injDone 12 else b
  (b.modPair r (fun p => { p with cpl := { p.cpl with w := seqInc n } })).writeRec m addr
    (ws ++ [entryCheck n 2 addr ws]) (.completion r)

/-- Every executing descriptor of the block. -/
def Blk.allExec (b : Blk) : List (RingId × Exec) :=
  b.rings.mgr.flatMap (fun x => x.2.exec.map (fun e => (RingId.mgr x.1, e))) ++
  b.sram.doms.flatMap (fun x => x.2.pair.exec.map (fun e => (RingId.guest x.1, e)))

end Sys2Proof.Machine
end

