-- ==== Sys2Proof/Machine/Copies.lean ====
section
/-! DEFINITION. Handles, output queues, proxies and messages to peers: where copies of an instance stand
(05 R192, 06 R218 to R233, 12 R469). -/
namespace Sys2Proof.Machine
open Sys2Proof

/-- The STT index of internal source 0x46 + n and its like: report of a link's check unit. -/
def linkMismatchSrc (n : Nat) : Nat := 0x46 + n

/-! ## Queues of a link -/

/-- A candidate placed in key order, after those of an equal key (06 R218). -/
def insertCand (c : Cand) : List Cand → List Cand
  | [] => [c]
  | d :: t => if d.qkey < c.qkey then c :: d :: t else d :: insertCand c t

/-- A control record queued on a link (06 R213, R220). -/
def Blk.ctlRec (b : Blk) (n : Nat) (r : Word24) : Blk := b.modLink n (fun l => { l with ctl := l.ctl ++ [r] })

/-- The FREE handle that a hand-off binds: the spec names none, and the model takes the lowest-numbered one (DESIGN CHOICE
112). -/
def Link.freeHandle (l : Link) : Nat := (firstBelow 1024 (fun h => (l.handle h).st == .free)).getD 1023

/-! ## Where updates wait (04 R613; 06 R234) -/

/-- An update joins the spill-path queue of 64, when a place is free (04 R158). -/
def Blk.spillJoin (b : Blk) (u : Upd) : Option Blk :=
  if b.rings.spillq.length < 64 then some { b with rings := { b.rings with spillq := b.rings.spillq ++ [u] } } else none

/-- An update other than an arrival goes to the spill path: into the queue, or behind those that wait for a place (04
R613). -/
def Blk.toSpill (b : Blk) (u : Upd) : Blk :=
  match (if b.rings.spillw.isEmpty then b.spillJoin u else none) with
  | some b => b
  | none => { b with rings := { b.rings with spillw := b.rings.spillw ++ [u] } }

/-- An update is a notice of handle `h` of link `n`. -/
def Upd.names (u : Upd) (n h : Nat) : Bool :=
  match u.kind with
  | .notice _ k j _ _ => k == n && j == h
  | _ => false

/-- A notice of the handle waits to take effect. -/
def Blk.noticeWaits (b : Blk) (n h : Nat) : Bool :=
  (b.rings.spillq ++ b.rings.spillw).any (fun u => u.names n h) ||
  (b.link n).notices.any (fun x => x.2.any (fun u => u.names n h))

/-- A notice enters its bank's holding register of its link, or stands behind those it holds (06 R234). -/
def Blk.noticeHold (b : Blk) (n : Nat) (u : Upd) : Blk :=
  b.modLink n (fun l => { l with notices := tabMod [] l.notices ((b.stt u.stt).slot % 16) (fun q => q ++ [u]) })

/-! ## Messages to peers (12 R453, R454) -/

/-- The event class of Table 12-1. -/
def ZMsg.isEvent : ZMsg → Bool
  | .fwd .. | .wdraw _ | .released .. | .claimed .. | .complete .. => true
  | _ => false

/-- A message launched to a peer under the next sequence of its class (12 R454). -/
def ZClass.send (c : ZClass) (m : ZMsg) : ZClass :=
  { c with tx := seqInc c.tx, unacked := c.unacked ++ [(c.tx, m)], wire := c.wire ++ [(c.tx, m)] }

/-- The block with a message launched to a peer on FP6 or FP7. -/
def Blk.zSend (b : Blk) (p : Nat) (m : ZMsg) : Blk :=
  b.modPeer p (fun x => if m.isEvent then { x with ev := x.ev.send m } else { x with ct := x.ct.send m })

/-- The home Hub of a virtual context when the loaded configuration names another Hub, also while this one takes no part in the
federation (12 R464, R473; DEDUCED 122). -/
def Blk.remoteHome (b : Blk) (d v : Nat) : Option Nat :=
  if b.fed.loaded then
    match b.fed.doms.find? (fun x => x.1 == d) with
    | some (_, fd) => let h := tabGet 0 fd.home v; if h = b.fed.hubid then none else some h
    | none => none
  else none

/-- A domain of the loaded federated configuration (12 R455). -/
def Blk.federated (b : Blk) (d : Nat) : Bool := b.fed.loaded && b.fed.doms.any (fun x => x.1 == d)

/-- OWN sent to every joined peer for a virtual context whose home this Hub is (12 R466). -/
def Blk.sendOwn (b : Blk) (d v : Nat) (run : Bool) : Blk :=
  if b.federated d && (b.remoteHome d v).isNone then
    ((List.range 4).filter (fun p => (b.peer p).joined)).foldl (fun b p => b.zSend p (.own d v run)) b
  else b

/-- A notice of a forwarded candidate's handle goes to its home Hub, unless that peer has departed and the handle is
bound to no proxy any more (12 R470, R473). -/
def Blk.toHome (b : Blk) (p : Nat) (m : ZMsg) (proxy : Nat) : Blk := if proxy < 1024 then b.zSend p m else b

/-! ## Output queues -/

/-- A candidate bounces: it leaves the queue and is counted, and a release is applied as if the Tile Agent had answered released,
unless the handle keeps another copy; for a forwarded candidate the home Hub is told (06 R219; 12 R470). -/
def Blk.bounceCand (b : Blk) (n : Nat) (c : Cand) : Blk :=
  let l := b.link n
  let rest := l.outq.erase c
  let h := l.handle c.handle
  let ends := !c.shared || (!(rest.any (fun d => d.handle == c.handle)) && h.st == .queued)
  let b := b.modLink n (fun l => { l with outq := rest, err := { l.err with bounce := satInc l.err.bounce } })
  match h.prox with
  | some (p, k) => (b.toHome p (.released k h.gen) k).modLink n (fun l => l.modHandle c.handle (fun _ => {}))
  | none => if ends then b.noticeHold n { stt := h.stt, mapgen := h.mapgen, kind := .notice .released n c.handle c.ctx h.gen } else b

/-- The lowest-ranked candidate of an over-full queue bounces (06 R219). -/
def Blk.bounce (b : Blk) (n : Nat) : Blk :=
  let q := (b.link n).outq
  if q.length ≤ 64 then b else q.getLast?.elim b (b.bounceCand n)

/-- A candidate entering a link's output queue (06 R218, R219). -/
def Blk.enqueue (b : Blk) (n : Nat) (c : Cand) : Blk :=
  (b.modLink n (fun l => { l with outq := insertCand c l.outq })).bounce n

/-! ## Copies of an instance -/

/-- The handles of a link that name an instance at a source, of this Hub. -/
def Link.handlesOf (l : Link) (stt : Nat) (mapgen : BitVec 8) : List (Nat × Handle) :=
  l.handles.filter (fun x => x.2.stt == stt && x.2.mapgen == mapgen && x.2.prox == none)

/-- The handles of an instance's copies that stand or wait in a queue, not those of its claimed INTID. -/
def Link.copiesOf (l : Link) (stt : Nat) (mapgen : BitVec 8) : List (Nat × Handle) :=
  (l.handlesOf stt mapgen).filter (fun x => (x.2.st == .queued || x.2.st == .standing) && x.2.ans.isNone)

/-- The tracking entry of a broadcast instance (05 R192). -/
def Blk.trackOf (b : Blk) (stt : Nat) (mapgen : BitVec 8) (gen : BitVec 8) : Option (Nat × Bcast) :=
  b.rank.bcast.find? (fun x => x.2.stt == stt && x.2.mapgen == mapgen && x.2.gen == gen && !x.2.tiles.isEmpty)

def Blk.modBcast (b : Blk) (k : Nat) (f : Bcast → Bcast) : Blk :=
  { b with rank := { b.rank with bcast := tabMod {} b.rank.bcast k f } }

/-- A free tracking entry (05 R192). -/
def Blk.freeTrack (b : Blk) : Option Nat :=
  firstBelow 256 (fun k => (tabGet {} b.rank.bcast k).tiles.isEmpty)

/-- A trigger of the parked rescan: it starts one, or one further complete rescan (05 R189, R190). -/
def Blk.rescan (b : Blk) : Blk :=
  { b with rank := { b.rank with rescan := some (b.rank.rescan.getD 0),
                                 rescanAgain := b.rank.rescan.isSome || b.rank.rescanAgain } }

/-- A trigger of the posted rescan (11 R427). -/
def Blk.postRescan (b : Blk) : Blk :=
  { b with rank := { b.rank with postScan := some (b.rank.postScan.getD 0),
                                 postAgain := b.rank.postScan.isSome || b.rank.postAgain } }

/-- A tile gives up a shared instance: its bit leaves the tracking entry. The answer tells whether the mask became
empty without a winner, so that DLV and SHR are to be cleared; an emptied entry is free (05 R193). -/
def Blk.tileGone (b : Blk) (stt : Nat) (mapgen gen : BitVec 8) (tile : Nat) : Blk × Bool :=
  match b.trackOf stt mapgen gen with
  | none => (b, false)
  | some (k, t) =>
    let tiles := setDel t.tiles tile
    if tiles.isEmpty then
      let b := b.modBcast k (fun _ => {})
      (if b.rank.parked.isEmpty then b else b.rescan, !t.won)
    else (b.modBcast k (fun x => { x with tiles := tiles }), false)

/-- Withdrawal of one handle's copies: a queued candidate leaves the queue and its handle is freed without a flit, unless
its release waits to take effect; a standing copy is asked back with WDRAW (03 R106, 06 R220). The answer: nothing of the
handle is left. -/
def Blk.withdrawHandle (b : Blk) (n h : Nat) : Blk × Bool :=
  let l := b.link n
  let hd := l.handle h
  let l1 := { l with outq := l.outq.filter (fun c => c.handle ≠ h) }
  match hd.st with
  | .queued =>
    if b.noticeWaits n h || b.lostHandle n h then (b.modLink n (fun _ => l1), false)
    else (b.modLink n (fun _ => l1.modHandle h (fun _ => {})), true)
  | .standing =>
    if hd.wd then (b.modLink n (fun _ => l1), false)
    else ((b.modLink n (fun _ => l1.modHandle h (fun x => { x with wd := true }))).ctlRec n (recHC 3 h 0), false)
  | _ => (b, false)

/-- Withdrawal of an instance's copies on one link; what is left of it there. -/
def Blk.withdrawLink (b : Blk) (stt : Nat) (mapgen : BitVec 8) (n : Nat) : Blk × Bool :=
  ((b.link n).copiesOf stt mapgen).foldl (fun a x =>
    let r := a.1.withdrawHandle n x.1
    let b := if r.2 && x.2.shr then (r.1.tileGone stt mapgen x.2.gen n).1 else r.1
    (b, a.2 || !r.2)) (b, false)

/-- Withdrawal of an instance's copies forwarded to one peer (12 R469). -/
def Blk.withdrawPeer (b : Blk) (stt : Nat) (mapgen : BitVec 8) (p : Nat) : Blk × Bool :=
  ((b.peer p).proxies.filter (fun x => x.2.stt == stt && x.2.mapgen == mapgen && x.2.st == .standing)).foldl
    (fun a x => if x.2.wd then (a.1, true) else
      ((a.1.modPeer p (fun q => { q with proxies := tabMod {} q.proxies x.1 (fun h => { h with wd := true }) })).zSend p
        (.wdraw x.1), true)) (b, false)

/-- The copies of a broadcast instance wait for its SHR (05 R191). -/
def Upd.sharing (u : Upd) (stt : Nat) (mapgen : BitVec 8) : Bool :=
  match u.kind with
  | .bcast .. => u.stt == stt && u.mapgen == mapgen
  | _ => false

/-- Whether an instance has a copy anywhere: on a Tile Link, at a peer, or about to be sent. -/
def Blk.hasCopies (b : Blk) (stt : Nat) (mapgen : BitVec 8) : Bool :=
  (b.rings.spillq ++ b.rings.spillw).any (fun u => u.sharing stt mapgen) ||
  (List.range 16).any (fun n => !((b.link n).copiesOf stt mapgen).isEmpty) ||
  (List.range 4).any (fun p => (b.peer p).proxies.any (fun x => x.2.stt == stt && x.2.mapgen == mapgen && x.2.st == .standing))

/-- The Hub withdraws every copy of an instance. The answer: some copy still stands and its tile's answer is awaited
(03 R106). -/
def Blk.withdraw (b : Blk) (stt : Nat) (mapgen : BitVec 8) : Blk × Bool :=
  let r := (List.range 16).foldl (fun a n =>
    let q := a.1.withdrawLink stt mapgen n
    (q.1, a.2 || q.2)) (b, false)
  (List.range 4).foldl (fun a p =>
    let q := a.1.withdrawPeer stt mapgen p
    (q.1, a.2 || q.2)) r

/-- Copies of a claimed shared instance on the other links are withdrawn (03 R120). -/
def Blk.withdrawOthers (b : Blk) (stt : Nat) (mapgen : BitVec 8) (n : Nat) : Blk :=
  ((List.range 16).filter (· ≠ n)).foldl (fun b k => (b.withdrawLink stt mapgen k).1) b

/-! ## Handles and proxies as notices move them (06 R233, Table 6-3; 12 R469) -/

/-- The handle of a link, or for `n` of 16 and more the proxy toward peer `n` - 16, that a notice names. -/
def Blk.named (b : Blk) (n h : Nat) : Handle :=
  if n < 16 then (b.link n).handle h else tabGet {} (b.peer (n - 16)).proxies h

/-- The block with that handle or proxy changed. -/
def Blk.modNamed (b : Blk) (n h : Nat) (f : Handle → Handle) : Blk :=
  if n < 16 then b.modLink n (fun l => l.modHandle h f)
  else b.modPeer (n - 16) (fun x => { x with proxies := tabMod {} x.proxies h f })

/-- The state in which a notice finds its handle, still bound as the update names it. -/
def NoticeKind.fits (k : NoticeKind) (x : Handle) (stt : Nat) (mapgen : BitVec 8) : Bool :=
  x.stt == stt && x.mapgen == mapgen &&
  (match k with
   | .released => x.st == .standing || x.st == .queued
   | .claimed | .claimReq => x.st == .standing
   | .complete => x.st == .active)

/-- The handle after a claim of it took effect. -/
def Handle.claimedAt (x : Handle) (c : Nat) : Handle := { x with st := .active, ctx := c, wd := false, ans := none }

/-- The handle once the answer to its CLAIMREQ is sent (06 Table 6-3). -/
def Handle.settled (x : Handle) : Handle :=
  match x.ans with
  | some true => x.claimedAt x.ctx
  | some false => {}
  | none => x

/-- The handle after its notice took effect: a claim, or the end of its copies or of its INTID. One found uncorrectable stays
as it is (14 Table 14-1 code 15). -/
def Blk.handleAfter (b : Blk) (claim : Bool) (n h c : Nat) : Blk :=
  if b.lostHandle n h then b else b.modNamed n h (fun y => if claim then y.claimedAt c else {})

/-- A claim request is decided: the handle changes state when its answer is sent. -/
def Blk.answered (b : Blk) (n h c : Nat) (won : Bool) : Blk :=
  b.modNamed n h (fun y => { y with ctx := c, ans := some won })

/-- The tile, or the peer, has given up the copies of a handle. The answer: none of the instance is left, so that DLV and
SHR are to be cleared (05 R193). -/
def Blk.gaveUp (b : Blk) (n : Nat) (x : Handle) : Blk × Bool :=
  if x.shr then b.tileGone x.stt x.mapgen x.gen n else (b, true)

/-- A handle's candidates leave the output queue. -/
def Blk.unqueue (b : Blk) (n h : Nat) : Blk :=
  b.modLink n (fun l => { l with outq := l.outq.filter (fun d => d.handle ≠ h) })

/-- A claim request loses: LOST, and the tile has given the instance up (05 R193; 06 R242). -/
def Blk.loseClaim (b : Blk) (n h : Nat) : Blk × Bool :=
  let x := b.named n h
  let b := b.ctlRec n (recHC 5 h 0)
  if x.st = .standing && x.ans.isNone && !b.lostHandle n h then
    let r := if x.shr then (b.unqueue n h).gaveUp n x else (b.unqueue n h, false)
    (r.1.answered n h x.ctx false, r.2)
  else (b, false)

/-- The winner of a shared instance: the tracking entry remembers it, and the other copies are withdrawn (03 R120; 05
R193). -/
def Blk.takeShared (b : Blk) (n h : Nat) : Blk :=
  let x := b.named n h
  let b := match b.trackOf x.stt x.mapgen x.gen with
    | some (k, _) => b.modBcast k (fun t => { t with won := true })
    | none => b
  (((b.unqueue n h).withdrawOthers x.stt x.mapgen n).tileGone x.stt x.mapgen x.gen n).1

/-- A claim request wins: WON (06 R240). -/
def Blk.winClaim (b : Blk) (n h c : Nat) : Blk := ((b.takeShared n h).ctlRec n (recHC 4 h c)).answered n h c true

/-- Whether a claim of a handle wins a shared instance: it is still pending and unclaimed under the current generation
(03 R120, 11 R430). -/
def Blk.wins (b : Blk) (x : Handle) (st : Stt) (e : Entry) : Bool :=
  x.st = .standing && x.ans.isNone && x.shr && x.gen == (b.dom st.domid).gen && e.pend && !e.act && e.dlv &&
  (match b.trackOf x.stt x.mapgen x.gen with
   | some (_, t) => !t.won
   | none => false)

/-- The bits of an index leave the parked, posted and Geyser bitmaps (05 R190, R519; 11 R426). -/
def Blk.clearHolds (b : Blk) (i : Nat) : Blk :=
  { b with rank := { b.rank with parked := setDel b.rank.parked i, posted := setDel b.rank.posted i,
                                 geyserBits := tabDel b.rank.geyserBits i } }

end Sys2Proof.Machine
end

