-- ==== Sys2Proof/Machine/Rank.lean ====
section
/-! DEFINITION. The Ranking Unit: key, route, selection and outcome of one offer (05 R164 to R193, 11 R422 to R424,
12 R468 to R471). -/
namespace Sys2Proof.Machine
open Sys2Proof

/-! ## The key -/

/-- The class that the Ranking Unit forms: RCLASS, limited by the source's live class, and by STANDARD for a demoted
instance (05 R165). -/
def formClass (rclass live : BitVec 2) (dem : Bool) : BitVec 2 :=
  let c := if live < rclass then live else rclass
  if dem && 1#2 < c then 1#2 else c

/-- Urgency: inverted deadline slack for CRITICAL and FIRM, age for STANDARD and BULK (05 R167). -/
def urgency (cls : BitVec 2) (now stamp : BitVec 14) (dl : Nat) : BitVec 14 :=
  let elapsed := now - stamp
  if 2#2 ≤ cls then
    let slack := ceilDiv dl 64 - elapsed.toNat
    BitVec.ofNat 14 (0x3FFF - min slack 0x3FFF)
  else elapsed

/-- Deadline budget of a source: DL of its envelope (05 R167). -/
def Blk.deadline (b : Blk) (st : Stt) : Nat :=
  if st.env.envv && !setHas b.ecc.envBad st.env.env then (b.env st.env.env).dl else 0

/-! ## The route -/

/-- The live copy of the route tables (05 R194). -/
def Blk.liveRt (b : Blk) : RtCopy := if b.rank.epoch then b.rank.copy1 else b.rank.copy0
/-- The shadow copy. -/
def Blk.shadRt (b : Blk) : RtCopy := if b.rank.epoch then b.rank.copy0 else b.rank.copy1
def Blk.setLive (b : Blk) (c : RtCopy) : Blk :=
  { b with rank := if b.rank.epoch then { b.rank with copy1 := c } else { b.rank with copy0 := c } }
def Blk.setShad (b : Blk) (c : RtCopy) : Blk :=
  { b with rank := if b.rank.epoch then { b.rank with copy0 := c } else { b.rank with copy1 := c } }

/-- OLD_CNT: candidates that hold the epoch which is not live. A broadcast's wait for SHR; every other candidate has its
copies placed in the step that ranks it (05 R191, R194). -/
def Blk.oldCnt (b : Blk) : Nat := (b.rings.spillq ++ b.rings.spillw).countP (fun u => match u.kind with
  | .bcast _ _ ep _ _ _ => ep != b.rank.epoch
  | _ => false)

/-- A route entry of a copy (05 R182). -/
def RtCopy.route (c : RtCopy) (i : Nat) : Route := tabGet {} c.routes i
/-- A group of a copy (05 R183). -/
def RtCopy.group (c : RtCopy) (i : Nat) : RGroup := tabGet {} c.groups i

/-- A route entry of the live copy, or a group, is uncorrectable: it is restored from the shadow copy, or read as VALID = 0 or
as empty (14 Table 14-1 code 12). -/
def Blk.routeLost (b : Blk) (isGroup : Bool) (i : Nat) : Blk :=
  let held := match b.rings.session with
    | some s => !(s.routes.isEmpty && s.groups.isEmpty)
    | none => false
  if !b.rank.resync && b.oldCnt = 0 && !held then b.uncorr 12 0 i
  else
    let e := b.ecc
    let e := if isGroup then { e with groupBad := setAdd e.groupBad i } else { e with routeBad := setAdd e.routeBad i }
    ({ b with ecc := e }).uncorr 12 2 i

/-- Point 4: the live route entry read is uncorrectable (14 R545). -/
def Blk.routeFault (b : Blk) (i : Nat) : Blk := if b.injHit 4 0 then (b.injDone 4).routeLost false i else b

/-- How an instance is routed: the members, the group that names them, and the Geyser channel. -/
structure Path where
  kind : BitVec 2
  members : NSet
  group : Option Nat
  gch : Nat
  deriving DecidableEq, Repr

/-- Members of a route: TARGET, or the group's mask (05 R182, R183). -/
def RtCopy.members (c : RtCopy) (r : Route) : NSet := if r.kind = 0 then [r.target] else (c.group r.group).members

/-- The path of a source by its own route; none: no route, an invalid one, or an empty group (05 R187 step 1). -/
def Blk.pathOf (b : Blk) (i : Nat) (st : Stt) : Option Path :=
  if st.kind = .core then
    some { kind := 0, members := [i - (b.dom st.domid).sh.cmbase], group := none, gch := 0 }
  else if !st.route.rv then none
  else
    let r := b.liveRt.route st.route.ridx
    if !r.valid || setHas b.ecc.routeBad st.route.ridx then none
    else
      let ms := b.liveRt.members r
      if ms.isEmpty || (r.kind ≠ 0 && setHas b.ecc.groupBad r.group) then none
      else some { kind := r.kind, members := ms, group := if r.kind = 0 then none else some r.group, gch := r.gch }

/-! ## Members -/

/-- Class of a route member, Table 5-5 and 12 R468. -/
inductive MClass where
  | eligible (p : Nat)
  | remote (peer : Nat)
  | waiting (link : Option Nat)
  | notRunning
  deriving DecidableEq, Repr

/-- The guest domain that owns a physical context (11 R417). -/
def Blk.ownerOf (b : Blk) (p : Nat) : Nat :=
  match b.sram.vct.find? (fun x => (x.2.run || x.2.sw) && x.2.pctx == p && !setHas b.ecc.vctBad x.1) with
  | some (k, _) =>
    match b.sram.doms.find? (fun d => d.1 ≠ 0 && d.2.st ≠ .absent && d.2.sh.vbase ≤ k && k < d.2.sh.vbase + d.2.sh.cmcount) with
    | some (d, _) => d
    | none => 0
  | none => 0

/-- A member on a physical context by the state of its Tile Link (05 R185, 06 R249). -/
def Blk.byLink (b : Blk) (p : Nat) : MClass :=
  if (b.link (p / 64)).st = .up then .eligible p else .waiting (some (p / 64))

/-- Class of virtual context `v` of a domain as a route member (05 R184, R185; 11 R416, R422; 12 R468). -/
def Blk.memberClass (b : Blk) (d v : Nat) : MClass :=
  match b.remoteHome d v with
  | some p =>
    if !(b.peer p).joined then .waiting none
    else if tabGet none (b.peer p).view (1024 * d + v) = some true then .remote p else .notRunning
  | none =>
    if d = 0 then (if b.ownerOf v = 0 then b.byLink v else .waiting none)
    else
      let e := b.vctx d v
      if e.run && !e.sw then b.byLink e.pctx else .notRunning

/-- Members in member order starting after the rotation pointer, wrapping from 1,023 to 0 (05 R186). -/
def afterPtr (ms : NSet) (ptr : Nat) : List Nat := ms.filter (fun v => ptr < v) ++ ms.filter (fun v => v ≤ ptr)

/-- The member with the lowest T, the first of the ties in the order given (05 R186). -/
def lowestT (t : Nat → Nat) : List Nat → Option Nat
  | [] => none
  | v :: vs =>
    match lowestT t vs with
    | none => some v
    | some w => if t w < t v then some w else some v

/-- T of a member: the Context Priority Table's for a local one, 0x400 for a remote one (05 R175, 12 R468). -/
def Blk.memberT (b : Blk) (d v : Nat) : Nat :=
  match b.memberClass d v with
  | .eligible p => (tabGet 0 b.rank.cpt p).toNat
  | .remote _ => 0x400
  | _ => 0

def MClass.isLocal : MClass → Bool
  | .eligible _ => true
  | _ => false
def MClass.canTake : MClass → Bool
  | .eligible _ | .remote _ => true
  | _ => false
def MClass.isWaiting : MClass → Bool
  | .waiting _ => true
  | _ => false

/-- Members from which Table 5-4 chooses: the eligible ones; remote ones never for broadcast, and for CRITICAL or FIRM
only when no local one is eligible (05 R186, 12 R468). -/
def Blk.candidates (b : Blk) (d : Nat) (pa : Path) (cls : BitVec 2) : List Nat :=
  let all := pa.members.filter (fun v => (b.memberClass d v).canTake)
  let loc := all.filter (fun v => (b.memberClass d v).isLocal)
  if pa.kind = 3 then loc else if 2#2 ≤ cls && !loc.isEmpty then loc else all

/-- The members chosen, Table 5-4 (05 R186). -/
def Blk.choose (b : Blk) (d : Nat) (pa : Path) (cls : BitVec 2) : List Nat :=
  let cs := b.candidates d pa cls
  let ptr := tabGet 0 b.rank.rot (pa.group.getD 0)
  if pa.kind = 0 ∨ pa.kind = 3 then cs
  else if pa.kind = 1 then (lowestT (b.memberT d) (afterPtr cs ptr)).toList
  else (afterPtr cs ptr).take 1

/-- The member posted for when none runs (05 R187 step 5). -/
def Blk.postedFor (b : Blk) (d : Nat) (pa : Path) : Nat :=
  let nr := pa.members.filter (fun v => b.memberClass d v = .notRunning)
  let ptr := tabGet 0 b.rank.rot (pa.group.getD 0)
  if pa.kind = 0 then nr.headD 0 else (afterPtr nr ptr).headD 0

/-! ## Outcomes -/

/-- The parked bitmap takes the instance (05 R189). -/
def Blk.park (b : Blk) (i : Nat) : Blk := { b with rank := { b.rank with parked := setAdd b.rank.parked i } }

/-- The wake of each link that a CRITICAL instance's members wait for (05 R187 step 4; 11 R422). -/
def Blk.wakeLinks (b : Blk) (d : Nat) (ms : NSet) : Blk :=
  ms.foldl (fun b v => match b.memberClass d v with
    | .waiting (some n) => b.modLink n (fun l => { l with waking := true })
    | _ => b) b

/-- A copy for one physical context enters its link's output queue with a handle of its own (06 R218, R232). -/
def Blk.sendCopy (b : Blk) (o : Offer) (intid key : Word24) (p : Nat) : Blk :=
  let n := p / 64
  let h := (b.link n).freeHandle
  let b := b.modLink n (fun l => l.modHandle h (fun _ =>
    { st := .queued, stt := o.stt, mapgen := o.mapgen, gen := o.gen, shr := false, ctx := p % 64 }))
  b.enqueue n { shared := false, ctx := p % 64, handle := h, intid := intid, key := key, qkey := key }

/-- A copy for a remote member leaves as FWD with a proxy bound to it (12 R469, R471). -/
def Blk.sendRemote (b : Blk) (o : Offer) (st : Stt) (cls : BitVec 2) (dl v peer : Nat) : Blk :=
  let pr := b.peer peer
  match firstBelow 1024 (fun k => (tabGet {} pr.proxies k).st == .free) with
  | none => b.park o.stt
  | some k =>
    let b := b.modPeer peer (fun x => { x with proxies := tabMod {} x.proxies k (fun _ =>
      { st := .standing, stt := o.stt, mapgen := o.mapgen, gen := o.gen }) })
    b.zSend peer (.fwd o.stt o.mapgen o.gen st.domid st.vintid v (if pr.offsetOut then 1 else cls) o.rprio o.stamp dl k)

/-- One link's copies of a shared instance, all under one handle (06 R218, R232). -/
def Blk.sendShared (b : Blk) (o : Offer) (intid key : Word24) (n : Nat) (ctxs : List Nat) : Blk :=
  let h := (b.link n).freeHandle
  let b := b.modLink n (fun l => l.modHandle h (fun _ =>
    { st := .queued, stt := o.stt, mapgen := o.mapgen, gen := o.gen, shr := true }))
  ctxs.foldl (fun b c => b.enqueue n { shared := true, ctx := c, handle := h, intid := intid, key := key, qkey := key }) b

/-- One shared copy for each physical context enters its link's output queue. -/
def Blk.sendBcast (b : Blk) (o : Offer) (intid key : Word24) (ps : List Nat) : Blk :=
  (setOf (ps.map (· / 64))).foldl (fun b n => b.sendShared o intid key n ((ps.filter (fun p => p / 64 == n)).map (· % 64))) b

/-- The tracking entry of a broadcast whose SHR could not be set is freed (05 R191). -/
def Blk.dropTrack (b : Blk) (k : Nat) : Blk :=
  let b := b.modBcast k (fun _ => {})
  if b.rank.parked.isEmpty then b else b.rescan

/-- SHR set in the entry by the read-modify-write of a broadcast, whose copies leave after it; under a changed generation no
copy is sent and the tracking entry frees (05 R191). -/
def Blk.bcastDue (b : Blk) (st : Stt) (e : Entry) (o : Offer) (k : Nat) (intid key : Word24) (ps : List Nat) : Blk × Entry :=
  if o.gen ≠ (b.dom st.domid).gen then (b.dropTrack k, e) else (b.sendBcast o intid key ps, { e with shr := true })

/-- A broadcast instance enters its tracking entry and SHR is set: at input 5 of the slot's bank, or through the spill path;
one shared copy goes to each chosen context (05 R191, R192). -/
def Blk.broadcast (b : Blk) (o : Offer) (intid key : Word24) (ps : List Nat) : Blk :=
  match b.freeTrack with
  | none => b.park o.stt
  | some k =>
    let b := b.modBcast k (fun _ => { stt := o.stt, mapgen := o.mapgen, gen := o.gen, tiles := setOf (ps.map (· / 64)) })
    let st := b.stt o.stt
    if !st.res then b.toSpill { stt := o.stt, mapgen := o.mapgen, kind := .bcast o k b.rank.epoch intid key ps }
    else
      let r := b.bcastDue st (b.slot st.slot).entry o k intid key ps
      ((r.1.modSlot st.slot (fun s => { s with entry := r.2 })).granted (st.slot % 16) 5).took5 (st.slot % 16) true

/-- Posting of an instance, with its notice and record (11 R423, R424). -/
def Blk.post (b : Blk) (m : List Host.Cell) (o : Offer) (st : Stt) (key : Word24) (v : Nat) (cls : BitVec 2) : Blk :=
  let b := ({ b with rank := { b.rank with posted := setAdd b.rank.posted o.stt } }).raise 0x88
  let b := b.probe 13 o.stt st.domid cls
  if o.reposted then b
  else b.elqTake m 0 { code := 0, vintid := st.vintid, kind := 1, time := b.now.setWidth 48, seq := 0,
                       words := [BitVec.ofNat 24 st.domid, BitVec.ofNat 24 v, key] }

/-- RTV: the instance goes to RTGT as by a fixed route, except that a CRITICAL or FIRM one keeps to the members of its
source's route (05 R188). -/
def Blk.emitTarget (b : Blk) (o : Offer) (cls : BitVec 2) (pa : Path) : Blk × Path :=
  if !o.rtv then (b, pa)
  else if 2#2 ≤ cls && !setHas pa.members o.rtgt then
    ({ b with rank := { b.rank with routeOvr := satInc b.rank.routeOvr } }, pa)
  else (b, { pa with kind := 0, members := [o.rtgt], group := none })

/-- The chosen member becomes the group's rotation pointer, for the two kinds that turn (05 R186). -/
def Blk.turn (b : Blk) (pa : Path) (v : Nat) : Blk :=
  match pa.group with
  | some g => if pa.kind = 1 ∨ pa.kind = 2 then { b with rank := { b.rank with rot := tabSet 0 b.rank.rot g v } } else b
  | none => b

/-- Copies sent to the chosen members (05 R187 step 3). -/
def Blk.deliver (b : Blk) (o : Offer) (st : Stt) (cls : BitVec 2) (key : Word24) (pa : Path)
    (vs : List Nat) : Blk :=
  if pa.kind = 3 then
    b.broadcast o st.vintid key (vs.filterMap (fun v => match b.memberClass st.domid v with
      | .eligible p => some p
      | _ => none))
  else match vs with
    | [] => b
    | v :: _ =>
      match b.memberClass st.domid v with
      | .eligible p => (b.turn pa v).sendCopy o st.vintid key p
      | .remote peer => (b.turn pa v).sendRemote o st cls (b.deadline st) v peer
      | _ => b

/-- An offer passes the Ranking Unit: stages r1 to r10 (05 R187, Table 5-3). -/
def Blk.rankOffer (b : Blk) (m : List Host.Cell) (o : Offer) : Blk :=
  let st := b.stt o.stt
  if !st.valid || st.mapgen ≠ o.mapgen || o.gen ≠ (b.dom st.domid).gen then b
  else
    let cls := formClass o.rclass st.rank.cls o.dem
    let key := mkKey cls o.rprio (urgency cls b.stampNow o.stamp (b.deadline st))
    let b := if st.kind ≠ .core && st.route.rv then b.routeFault st.route.ridx else b
    match b.pathOf o.stt st with
    | none => b.park o.stt
    | some pa0 =>
      let r := b.emitTarget o cls pa0
      let b := r.1
      let pa := r.2
      if cls = 0 && (tabGet {} b.rank.geysers pa.gch).period ≠ 0 && !o.geyser then
        { b with rank := { b.rank with geyserBits := tabPut b.rank.geyserBits o.stt (some pa.gch) } }
      else
        let vs := b.choose st.domid pa cls
        if !vs.isEmpty then b.deliver o st cls key pa vs
        else if pa.members.any (fun v => (b.memberClass st.domid v).isWaiting) then
          let b := if cls = 3 then b.wakeLinks st.domid pa.members else b
          b.park o.stt
        else b.post m o st key (b.postedFor st.domid pa) cls

/-- The offer standing in an offer register is ranked (05 R178). -/
def Blk.rankReg (b : Blk) (m : List Host.Cell) (reg : Nat) : Blk :=
  match b.rank.offers.find? (fun x => x.1 == reg) with
  | none => b
  | some (_, o) => ({ b with rank := { b.rank with offers := tabDel b.rank.offers reg } }).rankOffer m o

/-! ## Which offer is taken (05 R177) -/

/-- Class of a standing offer that R165 will form. -/
def Blk.offerClass (b : Blk) (o : Offer) : BitVec 2 := formClass o.rclass (b.stt o.stt).rank.cls o.dem

/-- Registers of the offers of a list, in ascending order starting after the pointer. -/
def regOrder (os : Tab Offer) (ptr : Nat) : List Nat := afterPtr (os.map (·.1)) ptr

/-- A domain's weight for the weighted step, at least 1 (11 R413). -/
def Blk.rweight (b : Blk) (d : Nat) : Nat := max 1 (b.dom d).sh.rweight

/-- The domain that a weighted round robin serves next: the one being served while it has grants left and work, else
the next with work in ascending order, wrapping, which begins a new round. A weight lowered in a round applies from the
next one (05 R177; 11 R413). -/
def wrrNext (w : Wrr) (weight : Nat → Nat) (ds : NSet) : Option (Nat × Wrr) :=
  if setHas ds w.cur && w.used < tabGet (weight w.cur) w.old w.cur then some (w.cur, { w with used := w.used + 1 })
  else match afterPtr ds w.cur with
    | [] => none
    | d :: _ => some (d, { cur := d, used := 1, old := if d ≤ w.cur then [] else w.old })

/-- The weight of a domain changes: one that is lowered applies from the next round (11 Table 11-3). -/
def Wrr.change (w : Wrr) (d old new : Nat) : Wrr :=
  let o := tabGet old w.old d
  { w with old := if new < o then tabPut w.old d o else tabDel w.old d }

/-- The register granted next, with the pointers after the grant (05 R177). -/
def Blk.pickOffer (b : Blk) : Option (Nat × RankPtrs) :=
  let os := b.rank.offers
  let ofC (c : BitVec 2) := os.filter (fun x => b.offerClass x.2 == c)
  match regOrder (ofC 3) b.ptrs.crit with
  | r :: _ => some (r, { b.ptrs with crit := r })
  | [] =>
    match regOrder (ofC 2) b.ptrs.firm with
    | r :: _ => some (r, { b.ptrs with firm := r })
    | [] =>
      let ds := setOf (os.map (fun x => (b.stt x.2.stt).domid))
      match wrrNext b.ptrs.wrr b.rweight ds with
      | none => none
      | some (d, w) =>
        match regOrder (os.filter (fun x => (b.stt x.2.stt).domid == d)) (tabGet 16 b.ptrs.dom d) with
        | [] => none
        | r :: _ => some (r, { b.ptrs with wrr := w, dom := tabSet 16 b.ptrs.dom d r })

/-- The offer granted next is ranked (05 R177, R178). -/
def Blk.offerRanking (b : Blk) (m : List Host.Cell) : Blk :=
  match b.pickOffer with
  | none => b
  | some (r, p) => ({ b with ptrs := p }).rankReg m r

/-- Offers are ranked in their turn until a register is free. -/
def Blk.rankUntil (b : Blk) (m : List Host.Cell) (reg : Nat) : Nat → Blk
  | 0 => b
  | n + 1 => if b.rank.offers.any (fun x => x.1 == reg) then (b.offerRanking m).rankUntil m reg n else b

/-- An offer register when its next update is performed: a bank presents one offer in 12 HCLK at most and the Ranking Unit takes
each within 4, so the offers that stood have been ranked in their order (05 R177, R178; DEDUCED 11). -/
def Blk.rankFree (b : Blk) (m : List Host.Cell) (reg : Nat) : Blk := b.rankUntil m reg 17

/-! ## Presenting an offer -/

/-- A domain that applies no arrival and makes no offer: FREEZING or FROZEN (11 R435, R436), also while a command that
returns it to FROZEN executes (DEDUCED 118). -/
def Dom.still (d : Dom) : Bool :=
  d.st = .freezing || d.st = .frozen || ((d.st = .resetting || d.st = .restoring) && d.back = .frozen)

/-- An entry as an offer's contents (05 R176). -/
def mkOffer (i : Nat) (st : Stt) (e : Entry) (geyser reposted : Bool) : Offer :=
  { stt := i, mapgen := st.mapgen, gen := e.gen, rclass := e.rclass, rprio := e.rprio, dem := e.dem, rtv := e.rtv,
    rtgt := e.rtgt.toNat, stamp := e.stamp, geyser := geyser, reposted := reposted }

/-- An offer placed in a register (05 R176). -/
def Blk.putOffer (b : Blk) (reg : Nat) (o : Offer) (st : Stt) : Blk :=
  ({ b with rank := { b.rank with offers := tabPut b.rank.offers reg o } }).probe 7 o.stt st.domid
    (formClass o.rclass st.rank.cls o.dem)

/-- An update that leaves PEND = 1, ACT = 0 and DLV = 0 of a mapped source sets DLV and places an offer (03 R95,
05 R176; 11 R436). -/
def Blk.offerIf (b : Blk) (reg i : Nat) (st : Stt) (e : Entry) : Blk × Entry :=
  if e.pend && !e.act && !e.dlv && st.valid && !(b.dom st.domid).still then
    let e := { e with dlv := true }
    (b.putOffer reg (mkOffer i st e false false) st, e)
  else (b, e)

end Sys2Proof.Machine
end

