-- ==== Sys2Proof/Machine/Update.lean ====
section
/-! DEFINITION. The read-modify-write of an entry: arrivals, clause results, timer expiries, re-offers and notices
(03 R96 to R107, 04 R155 to R162, 07 R289 to R301, 11 R429 to R436). -/
namespace Sys2Proof.Machine
open Sys2Proof

/-! ## Releases -/

/-- Rank and target that a released contribution writes (03 R124, 04 R150). -/
structure Rel where
  cls : BitVec 2
  prio : BitVec 8
  dem : Bool
  tgt : Option (BitVec 10) := none
  deriving DecidableEq, Repr

/-- An instance waits to be taken: PEND set, STAMP written when it was 0, RPT set while DLV is 1 and the INTID is not
active (03 Table 3-6, 04 R612). -/
def setPend (e : Entry) (now : BitVec 14) : Entry :=
  { e with pend := true, stamp := if e.pend then e.stamp else now, rpt := e.rpt || (e.dlv && !e.act) }

/-- Rank and target of the contribution released last (03 R124, 04 R150). -/
def setRank (e : Entry) (r : Rel) : Entry :=
  { e with rclass := r.cls, rprio := r.prio, dem := r.dem, rtv := r.tgt.isSome, rtgt := r.tgt.getD e.rtgt }

/-- Whether a release changes RCLASS, RPRIO, RTV or RTGT (05 R180). -/
def rankChanged (e f : Entry) : Bool :=
  e.rclass ≠ f.rclass || e.rprio ≠ f.rprio || e.rtv ≠ f.rtv || e.rtgt ≠ f.rtgt

/-- Every copy of the instance is confirmed gone (03 Table 3-6 row 4; 05 R193). -/
def copiesGone (e : Entry) : Entry := { e with dlv := false, shr := false }

/-- The copies of an instance are withdrawn; when none of them awaits a tile's answer the withdrawal is confirmed at
once (03 R106, 06 R220). -/
def Blk.withdrawEntry (b : Blk) (i : Nat) (st : Stt) (e : Entry) : Blk × Entry :=
  if !b.hasCopies i st.mapgen then (b, e)
  else
    let r := b.withdraw i st.mapgen
    if r.2 then (r.1, e) else (r.1.probe 11 i st.domid e.rclass, copiesGone e)

/-- The release of a contribution (03 R101, R124; 05 R180). A contribution left over from another mode of a level-mode line
moves nothing: PEND stays equal to LVL (03 R102). -/
def Blk.release (b : Blk) (i : Nat) (st : Stt) (e : Entry) (r : Rel) : Blk × Entry :=
  if st.kind = .level then (b, e)
  else
    let f := setRank (setPend e b.stampNow) r
    if e.dlv && rankChanged e f then b.withdrawEntry i st f else (b, f)

/-- The deferred release of coalesced contributions; it writes no rank, and moves no level-mode line (03 R97, R102; 04
R150). -/
def deferredRelease (level : Bool) (e : Entry) (now : BitVec 14) : Entry :=
  if !e.defr then e else if level then { e with defr := false } else { setPend e now with defr := false }

/-- Rank of an arrival released without a program, or of EMIT's defaults: STANDARD when demoted (04 R149, 07 R290). -/
def defaultRel (cls : BitVec 2) (prio : BitVec 8) (dem : Bool) : Rel :=
  { cls := if dem then 1 else cls, prio := prio, dem := dem }

/-! ## Runs dispatched -/

/-- A cluster that takes dispatches: neither BUSY nor DISABLED (07 R312). -/
def Cluster.takes (c : Cluster) : Bool := c.regs.st = .enabled

/-- Every engine is out of service: STATE reads FAILED (07 R309). -/
def Cluster.failed (c : Cluster) : Bool := 16 ≤ c.regs.offline.length

/-- The dispatch class (07 R272). -/
def dispatchClass (st : Stt) (exc : Bool) : BitVec 2 := if exc && 2#2 ≤ st.rank.cls then 1 else st.rank.cls

/-- Whether the cluster accepts a dispatch of a class (07 R275). -/
def Cluster.accepts (c : Cluster) (dcls : BitVec 2) : Bool :=
  c.queue.length < (if 2#2 ≤ dcls then 64 else 48)

/-- The dispatch record of a contribution (07 R270). -/
def Blk.mkDispatch (b : Blk) (i : Nat) (st : Stt) (cause : Cause) (exc : Bool) (pl : Payload) (time : Dword) : Dispatch :=
  { stt := i, mapgen := st.mapgen, domid := st.domid, vintid := st.vintid, gen := (b.dom st.domid).gen, rank := st.rank,
    dcls := dispatchClass st exc, cause := cause, exc := exc, pl := pl, time := time.setWidth 48, clus := st.clause.clus,
    aidx := st.clause.aidx, att := tabGet {} (b.cl st.clause.clus).att st.clause.aidx, nth := b.nth }

/-- The attachment entry or the region of a record was found uncorrectable (14 Table 14-1 code 7). -/
def Blk.attLost (b : Blk) (d : Dispatch) : Bool :=
  setHas b.ecc.attBad (1024 * d.clus + d.aidx) || setHas b.ecc.regBad (64 * d.clus + d.att.region)

/-- Records of a cluster that are to be closed without a run. -/
def Cluster.forceAll (c : Cluster) (ds : List Dispatch) : Cluster :=
  { c with forced := c.forced ++ ds.map (fun d => { d := d, acts := {} }) }

/-- A dispatch record handed to its cluster; one that is FAILED closes it without a run, and so does every cluster a record
whose attachment is lost (07 R271, R309; 14 Table 14-1 code 7). -/
def Blk.dispatch (b : Blk) (d : Dispatch) : Blk :=
  let b := { b with nth := b.nth + 1 }
  let c := b.cl d.clus
  if c.failed then (b.modCl d.clus (fun c => c.forceAll [d])).raise 0x08
  else if b.attLost d then b.modCl d.clus (fun c => c.forceAll [d])
  else b.modCl d.clus (fun c => { c with queue := c.queue ++ [d] })

/-! ## Arrivals -/

/-- A held contribution dispatches a run: HELD rises. None while HELD is 15 or the cluster refuses (03 R96, R99; 07
R275). -/
def Blk.holdArrival (b : Blk) (i : Nat) (st : Stt) (e : Entry) (cause : Cause) (exc : Bool) (pl : Payload) (time : Dword) :
    Option (Blk × Entry) :=
  let d := b.mkDispatch i st cause exc pl time
  if e.held = 15 || !(b.cl st.clause.clus).accepts d.dcls then none
  else some (b.dispatch d, { e with held := e.held + 1 })

/-- One arrival at a source: held for its program, or released at once (03 R96; 07 R312). -/
def Blk.arrival (b : Blk) (i : Nat) (st : Stt) (e : Entry) (cause : Cause) (exc : Bool) (pl : Payload) (time : Dword) :
    Option (Blk × Entry) :=
  if st.clause.cv && (b.cl st.clause.clus).takes then b.holdArrival i st e cause exc pl time
  else
    let b := if st.clause.cv then
        b.modCl st.clause.clus (fun c => { c with regs := { c.regs with bypassCnt := satInc c.regs.bypassCnt } })
      else b
    some (b.release i st e (defaultRel st.rank.cls st.rank.prio (exc && 2#2 ≤ st.rank.cls)))

/-- A change of a level-mode line: LVL and PEND follow it, and a fall withdraws every copy (03 R102, R103). Its PEND follows
no release, so the spec names no update that writes its rank: every active level writes the source's class and priority
(DESIGN CHOICE 126). -/
def Blk.levelChange (b : Blk) (i : Nat) (st : Stt) (e : Entry) (active : Bool) : Blk × Entry :=
  if active then
    (b, { setRank { e with stamp := if e.pend then e.stamp else b.stampNow }
          (defaultRel st.rank.cls st.rank.prio false) with lvl := true, pend := true })
  else
    let f := { e with lvl := false, pend := false }
    if e.dlv then b.withdrawEntry i st f else (b, f)

/-- An arrival that takes no effect: its generation is stale, or its domain is FREEZING or FROZEN and records it
(11 R429, R435). -/
def Blk.arrivalStops (b : Blk) (i : Nat) (st : Stt) (gen : BitVec 8) : Option Blk :=
  let d := b.dom st.domid
  if gen ≠ d.gen then some b
  else if d.still then some { b with rings := { b.rings with frozenBits := setAdd b.rings.frozenBits i } }
  else none

/-! ## Timers -/

/-- Key of the timer of an attachment entry. -/
def timerKey (clus aidx : Nat) : Nat := 1024 * clus + aidx

/-- A timer operation: D = 0 disarms, any other D arms, not below TMIN (07 R298). -/
def Timers.operate (t : Timers) (key d tmin : Nat) : Timers :=
  if d = 0 then { t with armed := tabDel t.armed key }
  else { t with armed := tabPut t.armed key (t.tick + max d tmin) }

/-- A timer is armed. -/
def Timers.isArmed (t : Timers) (key : Nat) : Bool := t.armed.any (fun x => x.1 == key)

/-! ## Closings -/

/-- The Geyser channel on which the coalesced contributions of a BULK source are released (07 R292). -/
def Blk.geyserOf (b : Blk) (st : Stt) : Option Nat :=
  if st.rank.cls ≠ 0 then none
  else
    let ch := if st.kind = .core then some 0 else if st.route.rv then some (b.liveRt.route st.route.ridx).gch else none
    match ch with
    | some c => if (tabGet {} b.rank.geysers c).period ≠ 0 then some c else none
    | none => none

/-- Rank that a result action names, over the defaults of the dispatch (07 R290, 04 R150). -/
def relOf (st : Stt) (d : Dispatch) (n : RankNames) : Rel :=
  let dem := d.exc && 2#2 ≤ d.rank.cls
  let c := n.cls.getD (if dem then 1 else st.rank.cls)
  { cls := if dem && 1#2 < c then 1 else c, prio := n.prio.getD st.rank.prio, dem := dem, tgt := n.tgt }

/-- EMIT: the contribution is released (03 R97). -/
def Blk.emit (b : Blk) (i : Nat) (st : Stt) (e : Entry) (d : Dispatch) (n : RankNames) : Blk × Entry :=
  let r := b.release i st e (relOf st d n)
  (r.1.probe 4 i st.domid d.dcls, r.2)

/-- DEF set, with the rank of R291 when nothing of the instance waits or stands (03 R97, 07 R291). RTV and RTGT stay as an
earlier EMIT left them: R291 does not name them (DESIGN CHOICE 127). -/
def deferEntry (st : Stt) (e : Entry) (d : Dispatch) (n : RankNames) : Entry :=
  let r := relOf st d n
  let e := { e with defr := true }
  if !e.pend && !e.dlv then { e with rclass := r.cls, rprio := r.prio, dem := r.dem } else e

/-- COALESCE: DEF is set and its release is scheduled; without a schedule it takes effect as EMIT (07 R291, R292). -/
def Blk.coalesce (b : Blk) (i : Nat) (st : Stt) (e : Entry) (d : Dispatch) (n : RankNames) : Blk × Entry :=
  let key := timerKey d.clus d.aidx
  let p := b.probe 6 i st.domid d.dcls
  match b.geyserOf st with
  | some c => ({ p with rank := { p.rank with geyserBits := tabPut p.rank.geyserBits i (some c) } }, deferEntry st e d n)
  | none =>
    if d.att.ten && b.tim.isArmed key then (p, deferEntry st e d n)
    else if d.att.ten && d.att.cint ≠ 0 then
      ({ p with tim := p.tim.operate key d.att.cint d.att.tmin }, deferEntry st e d n)
    else
      (b.modCl d.clus (fun c => { c with regs := { c.regs with coalCnt := satInc c.regs.coalCnt } })).emit i st e d n

/-- The result action of a run, or EMIT when it recorded none (03 R98, 07 R289). -/
def Blk.result (b : Blk) (i : Nat) (st : Stt) (e : Entry) (c : Closing) : Blk × Entry :=
  match c.acts.result with
  | some .suppress => (b.probe 5 i st.domid c.d.dcls, e)
  | some (.emit n) => b.emit i st e c.d n
  | some (.coalesce n) => b.coalesce i st e c.d n
  | none => b.emit i st e c.d {}

/-- The run's LOG records handed to the Ring Processor in the order recorded (07 R293). -/
def Blk.logAll (b : Blk) (m : List Host.Cell) (i : Nat) (d : Dispatch) (ls : List LogAct) : Blk :=
  ls.foldl (fun b l =>
    let b := if (b.dom d.domid).elq.st = .enabled then b.probe 12 i d.domid d.dcls else b
    let r : EvRec := { code := l.code.toNat, vintid := d.vintid, kind := 0, time := d.time, seq := d.pl.seq,
                       words := l.words }
    b.elqTake m d.domid r) b

/-- One contribution fewer held; never below 0 (14 R520). -/
def decHeld (e : Entry) : Entry := { e with held := if e.held = 0 then 0 else e.held - 1 }

/-- The closing of a run: timer operation, result, HELD, LOG records; a stale one only decrements HELD (07 R289 to
R296). -/
def Blk.close (b : Blk) (m : List Host.Cell) (i : Nat) (st : Stt) (e : Entry) (c : Closing) : Blk × Entry :=
  let g := (b.dom st.domid).gen
  if c.d.gen ≠ g then (b, { decHeld e with gen := g })
  else
    let key := timerKey c.d.clus c.d.aidx
    let b := match c.acts.timer with
      | some d => { b with tim := b.tim.operate key d.toNat c.d.att.tmin }
      | none => b
    let r := b.result i st { decHeld e with gen := g } c
    (r.1.logAll m i c.d c.acts.logs, r.2)

/-! ## Timer expiries, re-offers, notices -/

/-- The expiry of a source timer: the coalesced contributions are released and a run is dispatched. One of an earlier
generation has no effect (07 R301, R312; 11 R429, R435). -/
def Blk.timerDue (b : Blk) (i : Nat) (st : Stt) (e : Entry) (key : Nat) (time : Dword) (gen : BitVec 8) : Option (Blk × Entry) :=
  let f := deferredRelease (st.kind = .level) e b.stampNow
  if gen ≠ (b.dom st.domid).gen then some (b, e)
  else if (b.dom st.domid).still then
    some (b.modDom st.domid (fun d => { d with expired := setAdd d.expired key }), e)
  else if st.clause.cv && timerKey st.clause.clus st.clause.aidx = key && (b.cl st.clause.clus).takes then
    b.holdArrival i st f .timer false {} time
  else if e.held = 15 then none
  else some (b, f)

/-- A re-offer request: for a held instance still waiting it presents a fresh offer without changing DLV; otherwise it
clears DLV. A Geyser request first releases the coalesced contributions. An instance with copies of its own is not
offered a second time (05 R176, R189, R190, R203, R519; 11 R425, R436; DEDUCED 13). -/
def Blk.reofferDue (b : Blk) (reg i : Nat) (st : Stt) (e : Entry) (f : ReofferFrom) : Blk × Entry :=
  let gey := match f with | .geyser _ => true | _ => false
  let e := if gey then deferredRelease (st.kind = .level) e b.stampNow else e
  if (b.dom st.domid).still then (b, { e with dlv := false })
  else if e.dlv then
    if b.hasCopies i st.mapgen then (b, e)
    else if e.act || !e.pend then (b, copiesGone e)
    else (b.putOffer reg (mkOffer i st e gey (f = .posted)) st, e)
  else if gey && e.pend && !e.act then
    (b.putOffer reg (mkOffer i st e true false) st, { e with dlv := true })
  else (b, e)

/-- A claim takes effect (03 Table 3-6, R102; 04 R612). -/
def claimEntry (level : Bool) (now : BitVec 14) (e : Entry) : Entry :=
  let p := if level then e.lvl else e.rpt
  { e with act := true, dlv := false, shr := false, pend := p, rpt := false, stamp := if p then now else e.stamp }

/-- A completion takes effect (03 Table 3-6, R104). -/
def completeEntry (level : Bool) (e : Entry) : Entry :=
  { e with act := false, pend := if level then e.lvl else e.pend }

/-- A claim request takes effect: it wins the instance, or it loses and its tile has given the instance up (03 R120; 05
R193; 06 R242). -/
def Blk.claimReqDue (b : Blk) (i : Nat) (st : Stt) (e : Entry) (n h c : Nat) (cur : Bool) : Blk × Entry :=
  if b.wins (b.named n h) st e then
    ((b.probe 9 i st.domid e.rclass).winClaim n h c, claimEntry (st.kind = .level) b.stampNow e)
  else
    let r := b.loseClaim n h
    if r.2 && cur then (r.1.probe 11 i st.domid e.rclass, copiesGone e) else (r.1, e)

/-- A claim that a tile has made takes effect; of a shared copy, as its win does (03 Table 3-6, R120; 06 Table 6-8). -/
def Blk.claimedDue (b : Blk) (i : Nat) (st : Stt) (e : Entry) (n h c : Nat) : Blk × Entry :=
  let b := if b.wins (b.named n h) st e then b.takeShared n h else b
  ((b.probe 9 i st.domid e.rclass).handleAfter true n h c, claimEntry (st.kind = .level) b.stampNow e)

/-- A notice takes effect at the entry, and then its handle changes state; under another generation the entry stays (03
Table 3-6; 06 R233; 11 R430). -/
def Blk.noticeDue (b : Blk) (i : Nat) (st : Stt) (e : Entry) (k : NoticeKind) (n h c : Nat) (gen : BitVec 8) : Blk × Entry :=
  let x := b.named n h
  let cur : Bool := gen = (b.dom st.domid).gen
  if b.lostHandle n h then (b, e)
  else if k = .claimReq then b.claimReqDue i st e n h c cur
  else if !k.fits x i st.mapgen then (b, e)
  else if k = .claimed then (if cur then b.claimedDue i st e n h c else (b.handleAfter true n h c, e))
  else
    let r := if k = .released then b.gaveUp n x else (b, true)
    let b' := r.1.handleAfter false n h c
    if !(cur && r.2) then (b', e)
    else if k = .complete then (b'.probe 10 i st.domid e.rclass, completeEntry (st.kind = .level) e)
    else (b'.probe 11 i st.domid e.rclass, copiesGone e)

/-- What is left of an update whose source is gone: its handle still changes state, and a broadcast's tracking entry frees
(05 R191, R193; 06 R233, R242). -/
def Blk.updGone (b : Blk) (u : Upd) : Blk :=
  match u.kind with
  | .notice .claimReq n h _ _ => (b.loseClaim n h).1
  | .notice k n h c _ =>
    let x := b.named n h
    if !k.fits x u.stt u.mapgen || b.lostHandle n h then b
    else (if k = .released then (b.gaveUp n x).1 else b).handleAfter (k = .claimed) n h c
  | .bcast _ k _ _ _ _ => b.dropTrack k
  | _ => b

/-! ## Entries written by commands -/

/-- An entry after a reset of its domain (11 R432 step 3). -/
def resetEntry (level : Bool) (g : BitVec 8) (e : Entry) : Entry :=
  { e with pend := level && e.lvl, act := false, defr := false, dlv := false, rpt := false, shr := false, dem := false,
           rtv := false, gen := g }

/-- An entry settled: the state that the lost notices would have produced, before its offer (16 R585). -/
def settleEntry (st : Stt) (level : Bool) (now : BitVec 14) (e : Entry) : Entry :=
  let e := if !e.act then e
    else if st.kind = .level then { e with act := false, lvl := level, pend := level } else { e with act := false }
  let e := if e.held ≠ 0 || e.defr || e.rpt then
      (if e.pend then e else { e with pend := true, rclass := st.rank.cls, rprio := st.rank.prio, dem := false, stamp := now })
    else e
  { e with held := 0, defr := false, rpt := false, dlv := false, shr := false, rtv := false, gen := 0 }

/-- Fields that a source record does not carry are written as 0 (11 Table 11-9). -/
def plainEntry (e : Entry) : Entry := { e with dlv := false, rpt := false, shr := false, used := false, gen := 0 }

/-- The accepted level of a wired line is its active level. -/
def Blk.lineActive (b : Blk) (i : Nat) (st : Stt) : Bool := setHas b.ing.level i == st.pol

/-- An entry written for a source: a level-mode line takes its accepted level, and the STAMP of a pending entry the time base
(11 R445). -/
def Blk.writtenEntry (b : Blk) (i : Nat) (st : Stt) (g : BitVec 8) (e : Entry) : Entry :=
  let e := { plainEntry e with gen := g, used := st.res }
  let lvl := b.lineActive i st
  let e := if st.kind = .level then { e with lvl := lvl, pend := lvl } else e
  if e.pend then { e with stamp := b.stampNow } else e

/-! ## Any update -/

/-- What an update does to its entry, before the entry is offered. None: it waits. -/
def Blk.updBody (b : Blk) (m : List Host.Cell) (reg : Nat) (u : Upd) (st : Stt) (e : Entry) : Option (Blk × Entry) :=
  let i := u.stt
  match u.kind with
  | .event ev =>
    match b.arrivalStops i st ev.gen with
    | some b => some (b, e)
    | none =>
      let b' := b.probe 1 i st.domid st.rank.cls
      match ev.kind with
      | .level a => some (b'.levelChange i st e a)
      | .arrival => b'.arrival i st e .arrival ev.exc ev.pl ev.time
  | .lostArrival t g =>
    match b.arrivalStops i st g with
    | some b => some (b, e)
    | none => (b.probe 1 i st.domid st.rank.cls).arrival i st e .lost false {} t
  | .coreMsg g _ =>
    match b.arrivalStops i st g with
    | some b => some (b, e)
    | none => (b.probe 1 i st.domid st.rank.cls).arrival i st e .arrival false {} 0
  | .closing c => some (b.close m i st e c)
  | .timer k t g => b.timerDue i st e k t g
  | .reoffer f _ => some (b.reofferDue reg i st e f)
  | .notice k n h c g => some (b.noticeDue i st e k n h c g)
  | .bcast o k _ w y ps => some (b.bcastDue st e o k w y ps)
  | .wipe g => some (b, if g = (b.dom st.domid).gen then resetEntry (st.kind = .level) g e else e)
  | .put x g => some (b, if g = (b.dom st.domid).gen then b.writtenEntry i st g x else e)
  | .settle => some (b, settleEntry st (b.lineActive i st) b.stampNow e)

/-- Whether an update, when performed, is written under the current generation: arrivals and closings (11 R428, 07
R296). -/
def UpdKind.writesGen : UpdKind → Bool
  | .event _ | .lostArrival .. | .coreMsg .. | .closing _ | .timer .. => true
  | _ => false

/-- An update performed on an entry: its effect, GEN, and the offer it leaves (04 R154, 05 R176). -/
def Blk.performOn (b : Blk) (m : List Host.Cell) (reg : Nat) (u : Upd) (st : Stt) (e : Entry) : Option (Blk × Entry) :=
  match b.updBody m reg u st e with
  | none => none
  | some (b, f) =>
    let f := if u.kind.writesGen && f ≠ e then { f with gen := (b.dom st.domid).gen } else f
    some (b.offerIf reg u.stt st f)

/-- An STT read finds the error that point 2 or 3 injects (14 R545, Table 14-1 code 10). -/
def Blk.sttRead (b : Blk) (i : Nat) : Blk :=
  let b := if b.injHit 2 0 then (b.injDone 2).corrected else b
  if b.injHit 3 0 then
    (({ b.injDone 3 with ecc := { b.ecc with sttBad := setAdd b.ecc.sttBad i } })).uncorr 10 2 i
  else b

/-- A read of a slot finds the error it holds, or that point 0, 1 or 27 injects: a single-bit error is corrected, an
uncorrectable entry waits for its rebuild (14 R515, R518, R545). -/
def Blk.slotRead (b : Blk) (s : Nat) : Blk :=
  let bank := s % 16
  let b := if b.injHit 0 bank then (b.injDone 0).corrected else b
  let b := if b.injHit 27 0 then (b.injDone 27).uncorr 2 0 s else b
  let b := if setHas b.ecc.entryCe s then
      ({ b with ecc := { b.ecc with entryCe := setDel b.ecc.entryCe s } }).corrected else b
  if b.injHit 1 bank then
    (({ b.injDone 1 with ecc := { b.ecc with entryBad := setAdd b.ecc.entryBad s } })).uncorr 1 1 s
  else b

/-- An update performed at a slot through an input of its bank (04 R155, R162). -/
def Blk.updSlot (b : Blk) (m : List Host.Cell) (u : Upd) (st : Stt) (input : Nat) : Option Blk :=
  let b := b.slotRead st.slot
  if setHas b.ecc.entryBad st.slot then none
  else
    let bank := st.slot % 16
    let b := (b.rankFree m bank).granted bank input
    match b.performOn m bank u st (b.slot st.slot).entry with
    | none => none
    | some (b, e) => some (b.modSlot st.slot (fun s => { s with entry := e }))

/-- An update performed in a Spill State line that is at hand (04 R158). -/
def Blk.updLine (b : Blk) (m : List Host.Cell) (u : Upd) (st : Stt) : Option Blk :=
  if setHas b.ecc.spillBad u.stt then none
  else
    let b := b.rankFree m 16
    match b.performOn m 16 u st (b.sstEntry m u.stt) with
    | none => none
    | some (b, e) => some (b.sstWrite m u.stt e)

/-- The slot of a source unmapped while it was active: still used by it and no longer its place (03 R119). -/
def Blk.orphanOf (b : Blk) (i : Nat) : Option Nat :=
  let st := tabGet {} b.sram.stt i
  (b.sram.slots.find? (fun x => x.2.owner == i && x.2.entry.used && x.2.entry.act &&
    !(st.valid && st.res && st.slot == x.1))).map (·.1)

/-- A completion for an INTID unmapped while it was active frees its slot (03 R119). -/
def Blk.freeOrphan (b : Blk) (u : Upd) : Blk :=
  match u.kind with
  | .notice .complete _ _ _ _ =>
    match b.orphanOf u.stt with
    | some s => b.modSlot s (fun _ => {})
    | none => b
  | _ => b

/-- Every update names its source by index and MAPGEN; it is discarded when the source is gone, and performed where
the state now lives: the slot, or the Spill State line that the spill path has at hand. None: it waits. `input` is the
arbiter input it uses at a slot (04 R155). -/
def Blk.update (b : Blk) (m : List Host.Cell) (u : Upd) (input : Nat) : Option Blk :=
  let b := b.sttRead u.stt
  let st := b.stt u.stt
  if !st.valid || st.mapgen ≠ u.mapgen then some ((b.freeOrphan u).updGone u)
  else if st.res then b.updSlot m u st input
  else if b.sstReady (b.sstLine u.stt) then b.updLine m u st
  else none

/-- The source of an update stands, and its state is spilled. -/
def Blk.spilled (b : Blk) (u : Upd) : Bool :=
  let st := b.stt u.stt
  st.valid && st.mapgen == u.mapgen && !st.res

/-- An update of the Ring Processor: at input 4 of the slot's bank, where it may have to wait, or through the spill path (04
R144, R158; 03 R99). -/
def Blk.rpApply (b : Blk) (m : List Host.Cell) (u : Upd) : Blk :=
  if b.spilled u then b.toSpill u
  else match b.update m u 4 with
    | some b => b
    | none => { b with rings := { b.rings with rpWait := b.rings.rpWait ++ [u] } }

/-- The Ring Processor's waiting updates try again, oldest first. -/
def Blk.rpRetry (b : Blk) (m : List Host.Cell) : Blk :=
  b.rings.rpWait.foldl (fun b u => b.rpApply m u) { b with rings := { b.rings with rpWait := [] } }

/-! ## Notices at the banks (06 R234) -/

/-- The notice that link `n` holds for a bank is performed at input 7, or passes to the spill path. None: it waits. -/
def Blk.noticeTake (b : Blk) (m : List Host.Cell) (bank n : Nat) : Option Blk :=
  match tabGet [] (b.link n).notices bank with
  | [] => none
  | u :: rest =>
    let b := b.modLink n (fun l => { l with notices := tabSet [] l.notices bank rest })
    if b.spilled u then some (b.toSpill u) else b.update m u 7

/-- Input 7 of a bank serves the links that hold a notice for it in round-robin order. None: no notice can be performed. -/
def Blk.grant7 (b : Blk) (m : List Host.Cell) (bank : Nat) : Option Blk :=
  (afterPtr (List.range 16) (tabGet 15 b.arb.rr7 bank)).findSome? (fun n =>
    (b.noticeTake m bank n).map (fun b => { b with arb := { b.arb with rr7 := tabSet 15 b.arb.rr7 bank n } }))

/-- Some link holds a notice. -/
def Blk.noticesHeld (b : Blk) : Bool := b.links.any (fun x => !x.2.notices.isEmpty)

/-- Notices that banks can take are taken, up to `n` of them. -/
def Blk.noticesRun (b : Blk) (m : List Host.Cell) : Nat → Blk
  | 0 => b
  | n + 1 =>
    if !b.noticesHeld then b
    else match (List.range 16).findSome? (fun k => b.grant7 m k) with
      | some b => b.noticesRun m n
      | none => b

/-- A notice of a handle of link `n`: behind one of the same handle that waits on the spill path, else through its bank's
holding register (04 R158; 06 R234). -/
def Blk.sendNotice (b : Blk) (m : List Host.Cell) (n h : Nat) (u : Upd) : Blk :=
  if (b.rings.spillq ++ b.rings.spillw).any (fun v => v.names n h) then b.toSpill u
  else (b.noticeHold n u).noticesRun m 1

/-- A notice of a peer's proxy: at input 3, or through the spill path (12 R469). -/
def Blk.peerNotice (b : Blk) (m : List Host.Cell) (n h : Nat) (u : Upd) : Blk :=
  if b.spilled u || (b.rings.spillq ++ b.rings.spillw).any (fun v => v.names n h) then b.toSpill u
  else match b.update m u 3 with
    | some b => b
    | none => b.toSpill u

/-! ## Core messages and ring notifications -/

/-- STT index of core message `v` of a domain (04 R137). -/
def Blk.coreIdx (b : Blk) (d v : Nat) : Nat := (b.dom d).sh.cmbase + v

/-- One arrival applied to core-message INTID `v` of a domain, for a command of a ring or for a notification (04 R144, 05
R205). -/
def Blk.coreArrival (b : Blk) (m : List Host.Cell) (d v : Nat) (by_ : Option (RingId × Nat)) : Blk :=
  let i := b.coreIdx d v
  let st := b.stt i
  if v < (b.dom d).sh.cmcount && st.valid && st.kind = .core then
    b.rpApply m { stt := i, mapgen := st.mapgen, kind := .coreMsg (b.dom st.domid).gen by_ }
  else b

/-- The notifications of the records that a command wrote take effect (10 R392). -/
def Blk.settleNotes (b : Blk) (m : List Host.Cell) : Blk :=
  b.rings.notes.foldl (fun b d => b.coreArrival m d (b.dom d).nctx none) { b with rings := { b.rings with notes := [] } }

/-- A command on the block that may write records: their notifications follow it. -/
def State.onBlkNotes (s : State) (f : List Host.Cell → Blk → Blk) : Host.Outcome State Fault Refusal :=
  s.onBlkMem (fun m b => (f m b).settleNotes m)

end Sys2Proof.Machine
end

