-- ==== Sys2Proof/Machine/Lanes.lean ====
section
/-! DEFINITION. The ingress lanes: checks, translation, envelopes, holding registers and the spill path's intake
(02 R54 to R64, 04 R130 to R159). -/
namespace Sys2Proof.Machine
open Sys2Proof

/-! ## Checks of a record -/

/-- Even parity over a beat with its check bit (02 R50). -/
def parityOk (m : MsgRec) (k : Nat) : Bool :=
  match m.chk[k]? with
  | none => true
  | some c => ((List.range 32).foldl (fun a i => a ^^ (m.beats.getD k 0).getLsbD i) (c.getLsbD 0)) == false

/-- The cause of Table 2-3 of a record: the lowest of those it meets, since the spec orders them nowhere (DESIGN CHOICE
124). `p2` and `p3` are the faults that points 8 and 9 inject. -/
def malformed (m : MsgRec) (p2 p3 : Bool) : Option Nat :=
  let d := decodeMsg m
  if m.som ≠ 1 ∨ m.vld ≠ 255 ∨ m.beats.length ≠ 8 then some 1
  else if p2 || !((List.range 4).all (parityOk m)) then some 2
  else if p3 || (m.ecc.take 4).any (fun e => e == .double) then some 3
  else if !d.reservedZero then some 4
  else if !d.data && d.len ≠ 1 then some 5
  else if d.data && d.vid ≠ 0x1C5E then some 6
  else if d.data && (d.fmt ≠ 1 || 4 < d.ns) then some 7
  else if d.data && d.len ≠ lenOfNs d.ns then some 8
  else none

/-- The first record since a clear is captured (02 R54, 04 R139). -/
def IngCap.take (c : IngCap) (mip cause reqid : Nat) : IngCap :=
  if c.valid then c else { mip := mip, cause := cause, reqid := reqid, valid := true }

/-- A malformed record is discarded (02 R54). -/
def Blk.discardMalformed (b : Blk) (mip cause reqid : Nat) : Blk :=
  ({ b with err := { b.err with malfCnt := satInc b.err.malfCnt, malfCap := b.err.malfCap.take mip cause reqid } }).raise
    0x04

/-- An untranslated record is discarded (04 R139). -/
def Blk.discardUnmapped (b : Blk) (mip cause reqid : Nat) : Blk :=
  ({ b with err := { b.err with unmapCnt := satInc b.err.unmapCnt, unmapCap := b.err.unmapCap.take mip cause reqid } }).raise
    0x05

/-- A credit returned to the package fabric for a port (02 R47, 04 R132). -/
def Blk.creditBack (b : Blk) (mip : Nat) : Blk :=
  { b with ing := { b.ing with credit := tabMod 0 b.ing.credit mip (· + 1) } }

/-! ## Translation -/

/-- The STT index of a record, or the cause for which it has none (04 R134). -/
def Blk.translateIdx (b : Blk) (d : Msg) : Nat ⊕ Nat :=
  let r := b.requester d.reqid
  if !r.valid then .inl 1
  else if r.pmode && (!d.pv || r.pcount ≤ d.pasid) then .inl 2
  else
    let blkNo := if r.pmode then d.pasid else 0
    let v := if d.data then d.channel else d.vector
    let base := if d.data then r.cbase else r.mbase
    let count := if d.data then r.ccount else r.mcount
    if count ≤ v then .inl 3
    else
      let i := base + blkNo * count + v
      if 524287 < i then .inl 3 else .inr i

/-- The address of an MSI lies in the fabric's window (04 R135). -/
def Blk.inMsiWindow (b : Blk) (a : Dword) : Bool :=
  bits a.toNat 63 12 == b.hctl.msiHi.toNat * 2 ^ 20 + bits b.hctl.msiLo.toNat 31 12

/-- The source of a record, or its cause of Table 4-4: the lowest of those it meets, of which R134 orders the first three
only (DESIGN CHOICE 125). -/
def Blk.translate (b : Blk) (d : Msg) : Nat ⊕ Nat :=
  match b.translateIdx d with
  | .inl c => .inl c
  | .inr i =>
    let st := b.stt i
    if !st.valid then .inl 4
    else if st.kind ≠ (if d.data then .data else .msi) then .inl 5
    else if !d.data && !b.inMsiWindow d.addr then .inl 6
    else .inr i

/-! ## Envelopes -/

/-- The conformance of an arrival at time `t`, and the envelope after it (04 R147). -/
def Envelope.arrive (e : Envelope) (t : Dword) : Bool × Envelope :=
  let tol := (e.b - 1) * e.p
  if (e.tat - t).toInt ≤ (tol : Int) then
    (true, { e with tat := (if 0 ≤ (e.tat - t).toInt then e.tat else t) + BitVec.ofNat 64 e.p })
  else (false, { e with excess := satInc e.excess })

/-- Frame count and HCLK within the frame. -/
def Blk.hclkNow (b : Blk) : Nat × Nat := (b.time.frames, b.time.hclk)

/-- The envelope as a lane's decision sees it: with the TAT that a lane before it prepared in this HCLK, though that record
was discarded (04 R148). -/
def Blk.envSeen (b : Blk) (lane n : Nat) : Envelope :=
  let e := b.env n
  match b.ing.voids.find? (fun v => v.at_ = b.hclkNow && v.env = n && v.lane < lane) with
  | some v => { e with tat := v.tat }
  | none => e

/-- The envelope check of an arrival at a source, decided by a lane: the block after it, and whether the arrival is excess, as
every arrival is under an envelope found uncorrectable (04 R147 to R149, R152; 14 Table 14-1 code 11). -/
def Blk.envelopeCheck (b : Blk) (lane i : Nat) (st : Stt) (t : Dword) : Blk × Bool :=
  if !st.env.envv then (b, false)
  else
    let n := st.env.env
    let bad := setHas b.ecc.envBad n
    let r := if bad then (false, { b.env n with excess := satInc (b.env n).excess }) else (b.envSeen lane n).arrive t
    if r.1 then
      ({ b.modEnv n (fun _ => r.2) with ing := { b.ing with voids := b.ing.voids.filter (fun v => v.env ≠ n) } }, false)
    else
      let b := b.modEnv n (fun e => { e with excess := r.2.excess })
      let b := b.probe 2 i st.domid st.rank.cls
      (if 2#2 ≤ st.rank.cls then b.raise 0x80 else b, true)

/-! ## Holding registers and the spill path's intake -/

/-- The source's bit of the spill arrival bitmap is set (04 R159, 03 R99). -/
def Blk.spillBit (b : Blk) (i : Nat) : Blk :=
  { b with rings := { b.rings with spillBits := setAdd b.rings.spillBits i } }

/-- An arrival resolved to the spill path never waits: with the queue full it sets its bit and is counted (04 R159). -/
def Blk.spillArrival (b : Blk) (ev : Event) : Blk :=
  match b.spillJoin { stt := ev.stt, mapgen := ev.mapgen, kind := .event ev } with
  | some b => b
  | none =>
    let b := b.spillBit ev.stt
    { b with rings := { b.rings with spillOvf := satInc b.rings.spillOvf } }

/-- Stage q+3: an event enters the holding register of its bank or the spill path; with the register occupied it
stays in the stage. The answer: it has left (04 R145). -/
def Blk.placeEvent (b : Blk) (q : Nat) (ev : Event) : Blk × Bool :=
  let st := b.stt ev.stt
  if !st.res then (b.spillArrival ev, true)
  else
    let bank := st.slot % 16
    if (b.lane q).hold.any (fun x => x.1 == bank) then (b.modLane q (fun l => { l with stall := some ev }), false)
    else (b.modLane q (fun l => { l with hold := tabPut l.hold bank ev, stall := none }), true)

/-- A record discarded at stage q+3 has been decided at stage q+2: the TAT it prepared there is cancelled, and the decisions
of the same HCLK that follow it have seen it (04 R148). -/
def Blk.voidDecision (b : Blk) (r : RxRec) : Blk :=
  match b.translateIdx (decodeMsg r.msg) with
  | .inl _ => b
  | .inr i =>
    let st := b.stt i
    let lane := 2 * (r.mip / 8)
    let x := (b.envSeen lane st.env.env).arrive r.time
    if !(st.valid && st.env.envv && x.1) then b
    else { b with ing := { b.ing with voids :=
      { at_ := b.hclkNow, lane := lane, env := st.env.env, tat := x.2.tat } :: b.ing.voids.filter (fun v => v.at_ = b.hclkNow) } }

/-- What one record becomes: a discard, or an event at stage q+3 (04 Table 4-1). -/
def Blk.decodeRec (b : Blk) (r : RxRec) : Blk × Option Event :=
  let d := decodeMsg r.msg
  let p2 := b.injHit 8 0
  let b := if p2 then b.injDone 8 else b
  let p3 := b.injHit 9 0
  let b := if p3 then b.injDone 9 else b
  match malformed r.msg p2 p3 with
  | some c => ((b.voidDecision r).discardMalformed r.mip c d.reqid, none)
  | none =>
    let b := match b.translateIdx d with
      | .inr i => b.sttRead i
      | .inl _ => b
    match b.translate d with
    | .inl c => ((b.voidDecision r).discardUnmapped r.mip c d.reqid, none)
    | .inr i =>
      let st := b.stt i
      let x := b.envelopeCheck (2 * (r.mip / 8)) i st r.time
      let pl : Payload := if d.data then { ns := d.ns, seq := d.seq, chan := BitVec.ofNat 24 d.channel, samples := d.samples }
        else { chan := BitVec.ofNat 24 d.vector }
      (x.1, some { stt := i, mapgen := st.mapgen, gen := (b.dom st.domid).gen, kind := .arrival, time := r.time,
                   exc := x.2, pl := pl })

/-- The message lane takes its records oldest first until it is empty or held (04 R130, R132, R145). -/
def Blk.laneRun (b : Blk) (q : Nat) : Nat → Blk
  | 0 => b
  | n + 1 =>
    let l := b.lane q
    if l.stall.isSome then b
    else match l.rx with
      | [] => b
      | r :: rest =>
        let x := b.decodeRec r
        match x.2 with
        | none => ((x.1.modLane q (fun l => { l with rx := rest })).creditBack r.mip).laneRun q n
        | some ev =>
          let y := x.1.placeEvent q ev
          if y.2 then ((y.1.modLane q (fun l => { l with rx := rest })).creditBack r.mip).laneRun q n else y.1

/-- The records that a message lane holds behind stage q+3 pass once a register frees (04 R145). -/
def Blk.laneResume (b : Blk) (q : Nat) : Blk :=
  match (b.lane q).stall with
  | none => b.laneRun q 32
  | some ev =>
    let y := (b.modLane q (fun l => { l with stall := none })).placeEvent q ev
    if !y.2 then y.1
    else if q < 12 then
      match (y.1.lane q).rx with
      | r :: rest => ((y.1.modLane q (fun l => { l with rx := rest })).creditBack r.mip).laneRun q 32
      | [] => y.1
    else y.1

/-! ## Receiving (02 R45 to R54; 04 R130) -/

/-- Even parity of a word, as the check bit that goes with it. -/
def parityBit (w : Word) : Bool := (List.range 32).foldl (fun a i => a ^^ w.getLsbD i) false

/-- The eight beats of a command, with MIPn_CHK as beats 0 to 3 carry it and the code's findings on beats 4 to 7. -/
def msgBeats (x : MsgRec) : List RxBeat :=
  (List.range 8).map (fun k => { data := x.beats.getD k 0, som := x.som.getLsbD k, vld := x.vld.getLsbD k,
                                 chk := if k < 4 then x.chk[k]? else none, ecc := x.ecc.getD (k - 4) .clean })

/-- A beat as one of a record's beats 0 to 3. One that its sender checked by its SECDED code there fails its parity when the
code found an error (DESIGN CHOICE 111). -/
def RxBeat.parity (x : RxBeat) : BitVec 7 :=
  match x.chk with
  | some c => c
  | none => if parityBit x.data == (x.ecc == .clean) then 1 else 0

/-- A beat as one of a record's beats 4 to 7. One that its sender checked by parity there is uncorrectable when its parity
fails (DESIGN CHOICE 111). -/
def RxBeat.code (x : RxBeat) : BeatEcc :=
  match x.chk with
  | some c => if parityBit x.data == c.getLsbD 0 then .clean else .double
  | none => x.ecc

/-- A record made of beats, fewer than eight when it was broken off. -/
def recOfBeats (l : List RxBeat) : MsgRec :=
  { beats := l.map (·.data), som := BitVec.ofNat 8 (bitsTo ((List.range l.length).filter (fun k => (l.map (·.som)).getD k false))),
    vld := BitVec.ofNat 8 (bitsTo ((List.range l.length).filter (fun k => (l.map (·.vld)).getD k false))),
    chk := (l.take 4).map RxBeat.parity, ecc := (l.drop 4).map RxBeat.code }

/-- One beat at the receive stage: the stage after it, and the record that it completes or breaks off. A beat with MIPn_SOM
high begins a record; after a broken one the stage waits for it (02 R45, R54). -/
def RxFrame.beat (f : RxFrame) (x : RxBeat) : RxFrame × Option (List RxBeat) :=
  match f with
  | .between => if x.som then (.within [x], none) else if x.vld then (.hunting, some [x]) else (.between, none)
  | .hunting => if x.som then (.within [x], none) else (.hunting, none)
  | .within bs =>
    if x.som then (.within [x], some bs)
    else if !x.vld then (.hunting, some (bs ++ [x]))
    else if bs.length = 7 then (.between, some (bs ++ [x])) else (.within (bs ++ [x]), none)

/-- Beats at the receive stage of an MIP: the stage after them, and the records, oldest first. -/
def RxFrame.beats (f : RxFrame) : List RxBeat → RxFrame × List MsgRec
  | [] => (f, [])
  | x :: xs =>
    let y := f.beat x
    let z := y.1.beats xs
    (z.1, (y.2.map recOfBeats).toList ++ z.2)

/-- Eight beats framed as R45 gives. -/
def msgFramed (x : MsgRec) : Bool := x.som == 1 && x.vld == 255 && x.beats.length == 8

/-- The records that a command's beats make at an MIP. Between records, a framed record is the command's own. -/
def Blk.framing (b : Blk) (mip : Nat) (msg : MsgRec) : Blk × List MsgRec :=
  let f := tabGet .between b.ing.frame mip
  if f = .between && msgFramed msg then (b, [msg])
  else
    let y := f.beats (msgBeats msg)
    ({ b with ing := { b.ing with frame := tabSet .between b.ing.frame mip y.1 } }, y.2)

/-- A record in its lane's receive buffers: behind the older ones, and before those of the same HCLK at higher-numbered
MIPs (01 R15; 04 R130). -/
def insertRx (r : RxRec) : List RxRec → List RxRec
  | [] => [r]
  | x :: t => if x.at_ = r.at_ && r.mip < x.mip then r :: x :: t else x :: insertRx r t

/-- Records of a lane that its stage q+3 has taken and not yet let go. -/
def Lane.stalled (l : Lane) : Nat := b2n l.stall.isSome

/-- A record kept in its receive buffer, on the credit that it takes (02 R46, R48). -/
def Blk.keepRecord (b : Blk) (mip : Nat) (msg : MsgRec) : Blk :=
  let r : RxRec := { mip := mip, time := b.now, msg := msg, at_ := (b.time.frames, b.time.hclk, b.time.tb) }
  let b := { b with ing := { b.ing with credit := tabMod 0 b.ing.credit mip (· - 1) } }
  b.modLane (mip / 8) (fun l => { l with rx := l.rx.take l.stalled ++ insertRx r (l.rx.drop l.stalled) })

/-- A record received at an MIP, which its lane takes unless it is held (04 R130). -/
def Blk.receive (b : Blk) (mip : Nat) (msg : MsgRec) : Blk := (b.keepRecord mip msg).laneRun (mip / 8) 32

/-! ## Wired lines -/

/-- An accepted change of a wired line sets its one-event latch (04 R140, R141). -/
def Blk.lineChange (b : Blk) (i : Nat) (level : Bool) : Blk :=
  let st := b.stt i
  let active := level == st.pol
  let l := tabGet {} b.ing.latch i
  let coal := l.full && l.edge && active && st.valid && st.kind = .edge
  let l' : WLatch := { full := true, level := level, edge := l.edge || active, time := if l.full then l.time else b.now }
  let b := { b with ing := { b.ing with level := setPut b.ing.level i level, latch := tabSet {} b.ing.latch i l' } }
  if coal then { b with err := { b.err with wlCoal := tabMod 0 b.err.wlCoal (i / 128) satInc } } else b

/-- The event that a taken latch makes (04 R142, 02 R64). -/
def Blk.latchEvent (b : Blk) (i : Nat) (l : WLatch) : Blk × Option Event :=
  let st := b.stt i
  if !st.valid then (b, none)
  else
    let g := (b.dom st.domid).gen
    if st.kind = .level then
      (b, some { stt := i, mapgen := st.mapgen, gen := g, kind := .level (l.level == st.pol), time := l.time })
    else if !l.edge then (b, none)
    else
      let x := b.envelopeCheck (2 * (i / 128) + 1) i st l.time
      (x.1, some { stt := i, mapgen := st.mapgen, gen := g, kind := .arrival, time := l.time, exc := x.2 })

/-- The full latches of a group in round-robin order from the line after the one last taken (04 R142). -/
def Blk.latchOrder (b : Blk) (g : Nat) : List Nat :=
  let ls := (b.ing.latch.filter (fun x => x.2.full && 128 * g ≤ x.1 && x.1 < 128 * g + 128)).map (fun x => x.1 - 128 * g)
  afterPtr ls (b.lane (12 + g)).last

/-- One turn of a wired lane (04 R142). -/
def Blk.wiredTurn (b : Blk) (g : Nat) : Blk :=
  if (b.lane (12 + g)).stall.isSome then b
  else match b.latchOrder g with
    | [] => b
    | k :: _ =>
      let i := 128 * g + k
      let l := tabGet {} b.ing.latch i
      let b := { b with ing := { b.ing with latch := tabDel b.ing.latch i } }
      let b := (b.modLane (12 + g) (fun x => { x with last := k })).sttRead i
      let x := b.latchEvent i l
      match x.2 with
      | none => x.1
      | some ev => (x.1.placeEvent (12 + g) ev).1

/-! ## Internal sources -/

/-- A report of internal source `k` reaches the internal lane's stage q+3 (04 R143). -/
def Blk.internalEvent (b : Blk) (k : Nat) : Blk :=
  let i := 1536 + k
  let st := b.stt i
  if !st.valid then b
  else (b.placeEvent 24 { stt := i, mapgen := st.mapgen, gen := (b.dom st.domid).gen, time := b.now }).1

/-- The detector's report, oldest of its kind first; a report arriving while the lane is held waits (04 R143, R145). -/
def Blk.internalReport (b : Blk) (k : Nat) : Blk :=
  let l := b.lane 24
  if l.stall.isSome then (if l.reports.contains k then b else b.raise k)
  else (b.modLane 24 (fun x => { x with reports := x.reports.erase k })).internalEvent k

/-! ## Input 6 -/

/-- One arrival's read-modify-write from the holding register of a lane. None: it does not raise its request now
(03 R99, 07 R275). -/
def Blk.arrivalFrom (b : Blk) (m : List Host.Cell) (bank q : Nat) : Option Blk :=
  match (b.lane q).hold.find? (fun x => x.1 == bank) with
  | none => none
  | some (_, ev) =>
    let free (b : Blk) : Blk := b.modLane q (fun l => { l with hold := tabDel l.hold bank })
    let st := b.stt ev.stt
    if st.valid && st.mapgen = ev.mapgen && !st.res then some (free (b.spillArrival ev))
    else (b.update m { stt := ev.stt, mapgen := ev.mapgen, kind := .event ev } 6).map free

/-- The requesters of input 6 in turn, starting after the one served last (04 R146). -/
def Blk.order6 (b : Blk) (bank : Nat) : List Nat := afterPtr (List.range 25) (tabGet 24 b.ing.rr6 bank)

/-- Input 6 of a bank is granted to the first lane whose arrival can be served, unless a notice requests input 7 of the bank:
then that is granted (04 R146). -/
def Blk.grant6 (b : Blk) (m : List Host.Cell) (bank : Nat) : Blk :=
  match b.grant7 m bank with
  | some b => b
  | none => match (b.order6 bank).findSome? (fun q => (b.arrivalFrom m bank q).map (fun x => (q, x))) with
    | none => b
    | some (q, b) => ({ b with ing := { b.ing with rr6 := tabSet 24 b.ing.rr6 bank q } }).laneResume q

/-! ## The spill path -/

/-- Whether an update is an arrival. -/
def UpdKind.isArrival : UpdKind → Bool
  | .event _ | .lostArrival .. | .coreMsg .. => true
  | _ => false

/-- The place in which an update has waited is given up as it enters the queue: a closing's engine, or its place among the
closings made without a run; an expiry's in the Source Timer Unit (04 R613). -/
def Blk.leavePlace (b : Blk) (u : Upd) : Blk :=
  match u.kind with
  | .closing k =>
    b.modCl k.d.clus (fun c =>
      match c.engines.find? (fun x => match x.2.st with
        | .closing j _ => j = k
        | _ => false) with
      | some x => { c with engines := tabMod {} c.engines x.1 (fun _ => {}) }
      | none => { c with forced := c.forced.erase k })
  | .timer key _ _ => { b with tim := { b.tim with waiting := tabDel b.tim.waiting key } }
  | _ => b

/-- A freed place of the spill-path queue goes to the first update other than an arrival that waits (04 R613). -/
def Blk.spillRefill (b : Blk) : Blk :=
  match b.rings.spillw with
  | [] => b
  | u :: rest =>
    match b.spillJoin u with
    | none => b
    | some b => ({ b with rings := { b.rings with spillw := rest } }).leavePlace u

/-- The generation that an update carries (11 R428). -/
def UpdKind.genOf : UpdKind → BitVec 8
  | .event e => e.gen
  | .lostArrival _ g | .coreMsg g _ | .reoffer _ g | .timer _ _ g | .notice _ _ _ _ g | .wipe g | .put _ g => g
  | .closing c => c.d.gen
  | .bcast o _ _ _ _ _ => o.gen
  | .settle => 0

/-- Every update that has not yet taken effect at its entry, but for those of the lanes and the engines. -/
def Blk.updates (b : Blk) : List Upd :=
  b.rings.spillq ++ b.rings.spillw ++ b.rings.rpWait ++ b.rank.reoffers ++
  b.links.flatMap (fun x => x.2.notices.flatMap (·.2))

/-- Under another generation the update is dropped whole; a closing, a notice and a broadcast still leave their traces (07
R296; 11 R429, R430). -/
def UpdKind.dropsStale : UpdKind → Bool
  | .closing _ | .notice .. | .bcast .. | .settle => false
  | _ => true

/-- An arrival, or an expiry, that finds HELD = 15. -/
def Blk.heldFull (b : Blk) (m : List Host.Cell) (u : Upd) (st : Stt) : Bool :=
  let e := if st.res then (b.slot st.slot).entry else b.sstEntry m u.stt
  e.held = 15 && (match u.kind with
    | .timer .. => true
    | k => k.isArrival && st.clause.cv && (b.cl st.clause.clus).takes)

/-- An update that finds HELD = 15 leaves the spill path: an arrival into the bitmap, an expiry back to the Source Timer Unit
(03 R99; 07 R301). -/
def Blk.heldAway (b : Blk) (u : Upd) : Blk :=
  match u.kind with
  | .timer key t _ => { b with tim := { b.tim with waiting := tabPut b.tim.waiting key t } }
  | _ => b.spillBit u.stt

/-- The spill path serves the update at its head: a miss starts the fill of its line and the update waits; one that finds
HELD = 15 leaves; one of a stale generation is dropped; one whose source has become resident is performed on its slot
through input 4 (03 R99; 04 R158, R162; 07 R301; 11 R429). -/
def Blk.spillServe (b : Blk) (m : List Host.Cell) : Blk :=
  match b.rings.spillq with
  | [] => b.spillRefill
  | u :: rest =>
    let st := b.stt u.stt
    let line := b.sstLine u.stt
    let out : Blk := { b with rings := { b.rings with spillq := rest } }
    if !st.valid || st.mapgen ≠ u.mapgen then ((out.freeOrphan u).updGone u).spillRefill
    else if u.kind.dropsStale && u.kind.genOf != (b.dom st.domid).gen then out.spillRefill
    else if st.res || b.sstReady line then
      if b.heldFull m u st then (out.heldAway u).spillRefill
      else match out.update m u 4 with
        | some b => b.spillRefill
        | none => b
    else if !b.lc.on || setHas b.lc.fills line || b.inBuf line then b
    else { b with lc := { b.lc with fills := setAdd b.lc.fills line } }

/-- A freed place takes the lowest set bit of the spill arrival bitmap as one arrival, stamped now, with its payload
lost; updates other than arrivals come first (04 R159, R613). -/
def Blk.bitmapTake (b : Blk) : Blk :=
  if !b.rings.spillw.isEmpty then b.spillRefill
  else match b.rings.spillBits with
    | [] => b
    | i :: rest =>
      let st := b.stt i
      match b.spillJoin { stt := i, mapgen := st.mapgen, kind := .lostArrival b.now (b.dom st.domid).gen } with
      | none => b
      | some b => { b with rings := { b.rings with spillBits := rest } }

end Sys2Proof.Machine
end

