-- ==== Sys2Proof/Machine/Scans.lean ====
section
/-! DEFINITION. Ranking commands: offers taken, rescans, re-offers, resynchronisation and Geyser firings (05 R177 to
R204, 11 R427). -/
namespace Sys2Proof.Machine
open Sys2Proof

/-! ## Re-offer requests -/

/-- A re-offer request issued for an index: its bits leave the three bitmaps (05 R189, R519; 11 R425). -/
def Blk.issueReoffer (b : Blk) (i : Nat) (f : ReofferFrom) : Blk :=
  let st := b.stt i
  let b := b.clearHolds i
  { b with rank := { b.rank with reoffers := b.rank.reoffers ++
    [{ stt := i, mapgen := st.mapgen, kind := .reoffer f (b.dom st.domid).gen }] } }

/-! ## Turns at input 5 (05 R179) -/

/-- The source of an update stands, and its state is in a slot. -/
def Blk.resident (b : Blk) (u : Upd) : Bool :=
  let st := b.stt u.stt
  st.valid && st.mapgen == u.mapgen && st.res

/-- Closings of a cluster that request input 5: those of its engines, and the first of those made without a run. -/
def Cluster.closings (c : Cluster) : List Closing :=
  c.engines.filterMap (fun x => match x.2.st with
    | .closing k _ => some k
    | _ => none) ++ c.forced.take 1

/-- Clause results and expiries that request input 5. -/
def Blk.clauseRequests (b : Blk) : List Upd :=
  b.cls.flatMap (fun x => x.2.closings.map (fun k => { stt := k.d.stt, mapgen := k.d.mapgen, kind := .closing k })) ++
  b.tim.waiting.map (fun x =>
    let o := (tabGet {} (b.cl (x.1 / 1024)).att (x.1 % 1024)).owner
    { stt := o, mapgen := (b.stt o).mapgen, kind := .timer x.1 x.2 (b.dom (b.stt o).domid).gen })

/-- An update could be performed at a bank now. -/
def Blk.ready5 (b : Blk) (m : List Host.Cell) (bank : Nat) (u : Upd) : Bool :=
  b.resident u && (b.stt u.stt).slot % 16 == bank && (b.update m u 5).isSome

/-- Input 5 of the bank served this side last, and the other side has a request that it can serve. -/
def Blk.yields5 (b : Blk) (m : List Host.Cell) (bank : Nat) (ranking : Bool) : Bool :=
  setHas b.arb.turn5 bank == ranking &&
  (if ranking then b.clauseRequests else b.rank.reoffers.take 1).any (b.ready5 m bank)

/-- An update of the Ranking Unit, or a clause result, at input 5: the two take alternating turns. None: it waits. -/
def Blk.update5 (b : Blk) (m : List Host.Cell) (u : Upd) (ranking : Bool) : Option Blk :=
  let bank := (b.stt u.stt).slot % 16
  if !b.resident u then b.update m u 5
  else if b.yields5 m bank ranking then none
  else (b.update m u 5).map (fun b => b.took5 bank ranking)

/-- A re-offer request performed: at the slot's bank through input 5, or through the spill path (05 R189). None: it
waits. -/
def Blk.reofferPerform (b : Blk) (m : List Host.Cell) (u : Upd) : Option Blk :=
  if b.spilled u then some (b.toSpill u) else b.update5 m u true

/-- The request issued first is performed. -/
def Blk.reofferTake (b : Blk) (m : List Host.Cell) : Blk :=
  match b.rank.reoffers with
  | [] => b
  | u :: _ => ((b.reofferPerform m u).map (fun b => { b with rank := { b.rank with reoffers := b.rank.reoffers.drop 1 } })).getD b

/-! ## Rescans: one 64-bit word of the bitmap a step (05 R189, R190; 11 R427) -/

/-- Position after a rescan that examined the word at `at_`: none at the end of the bitmap, unless a trigger asks for one
further complete rescan. -/
def nextScan (at_ : Nat) (again : Bool) : Option Nat × Bool :=
  if at_ + 64 < 524288 then (some (at_ + 64), again) else if again then (some 0, false) else (none, false)

/-- The parked rescan examines its next word. -/
def Blk.parkedStep (b : Blk) : Blk :=
  match b.rank.rescan with
  | none => b
  | some p =>
    let b := (b.rank.parked.filter (fun i => p ≤ i && i < p + 64)).foldl (fun b i => b.issueReoffer i .parked) b
    let n := nextScan p b.rank.rescanAgain
    { b with rank := { b.rank with rescan := n.1, rescanAgain := n.2 } }

/-- The posted rescan examines its next word. -/
def Blk.postedStep (b : Blk) : Blk :=
  match b.rank.postScan with
  | none => b
  | some p =>
    let b := (b.rank.posted.filter (fun i => p ≤ i && i < p + 64)).foldl (fun b i => b.issueReoffer i .posted) b
    let n := nextScan p b.rank.postAgain
    { b with rank := { b.rank with postScan := n.1, postAgain := n.2 } }

/-! ## Resynchronisation (05 R195) -/

/-- One entry or group written before the last flip is copied into the shadow, once no candidate holds its epoch; the last
one ends the work. -/
def Blk.resyncStep (b : Blk) : Blk :=
  if !b.rank.resync || b.oldCnt ≠ 0 then b
  else
    let live := b.liveRt
    let sh := b.shadRt
    match b.rank.dirtyR, b.rank.dirtyG with
    | i :: rest, gs =>
      let b := b.setShad { sh with routes := tabSet {} sh.routes i (live.route i) }
      { b with rank := { b.rank with dirtyR := rest, resync := !(rest.isEmpty && gs.isEmpty) } }
    | [], g :: rest =>
      let b := b.setShad { sh with groups := tabSet {} sh.groups g (live.group g) }
      { b with rank := { b.rank with dirtyG := rest, resync := !rest.isEmpty } }
    | [], [] => { b with rank := { b.rank with resync := false } }

/-- What resynchronisation still has to copy is copied (05 R195). -/
def Blk.resyncAll (b : Blk) : Blk :=
  let live := b.liveRt
  let sh := b.shadRt
  let b := b.setShad
    { routes := b.rank.dirtyR.foldl (fun t i => tabSet {} t i (live.route i)) sh.routes,
      groups := b.rank.dirtyG.foldl (fun t g => tabSet {} t g (live.group g)) sh.groups }
  { b with rank := { b.rank with dirtyR := [], dirtyG := [], resync := false } }

/-- A flip of EPOCH: the copies of an earlier resynchronisation complete first (DEDUCED 21), the shadow becomes live,
resynchronisation begins, and a parked rescan is triggered (05 R189, R194, R195, R209). -/
def Blk.flip (b : Blk) (routes groups : NSet) : Blk :=
  let r := b.resyncAll.rank
  ({ b with rank := { r with epoch := !r.epoch, flips := r.flips + 1,
                             resync := !(routes.isEmpty && groups.isEmpty), dirtyR := routes, dirtyG := groups } }).rescan

/-! ## Geyser release (05 R202, R203, R209) -/

/-- A channel's registers as written come into force (05 R209). -/
def Geyser.load (g : Geyser) : Geyser :=
  let p := bits g.cfgW.toNat 15 0
  let ph := bits g.phaseW.toNat 15 0
  { g with period := BitVec.ofNat 16 p, burst := BitVec.ofNat 12 (bits g.cfgW.toNat 27 16),
           phase := BitVec.ofNat 16 (if p = 0 then ph else ph % p) }

/-- Channel `c` fires: it issues at most BURST_M1 + 1 requests for the indexes it holds, in ascending order from the
one after its resume point to the end of the bitmap, and the last one taken becomes the resume point; a burst that
takes none leaves the next one to start at index 0 (05 R203; DEDUCED 14). A channel whose PERIOD becomes 0 at this firing lets
go of all it holds (05 R204, R209; DEDUCED 121). -/
def Blk.geyserFire (b : Blk) (c : Nat) : Blk :=
  let g := (tabGet {} b.rank.geysers c).load
  let b := { b with rank := { b.rank with geysers := tabSet {} b.rank.geysers c g } }
  if g.period = 0 then
    (b.rank.geyserBits.filter (fun x => x.2 == some c)).foldl (fun b x => b.issueReoffer x.1 (.geyser c)) b
  else
    let start := match g.resume with
      | none => 0
      | some r => r + 1
    let held := (b.rank.geyserBits.filter (fun x => x.2 == some c && start ≤ x.1)).map (·.1)
    let take := held.take (g.burst.toNat + 1)
    let b := take.foldl (fun b i => b.issueReoffer i (.geyser c)) b
    { b with rank := { b.rank with geysers := tabMod {} b.rank.geysers c (fun x => { x with resume := take.getLast? }) } }

end Sys2Proof.Machine
end

