-- ==== Sys2Proof/Machine/Tile.lean ====
section
/-! DEFINITION. The Tile Agent: Ready Lists, claims, completions, floors, and the records it acts on (03 R109 to R121,
05 R171 to R174, 06 R235 to R246). -/
namespace Sys2Proof.Machine
open Sys2Proof

/-! ## Thresholds -/

/-- The running priority: the level of the copy on top of the active stack, none while IDLE (05 R171). -/
def Ctx.running (c : Ctx) : Option Nat := c.stack.head?.map (fun k => keyLevel k.key)

/-- The threshold T (05 R174). -/
def Ctx.threshold (c : Ctx) : Nat :=
  if 8 ≤ c.stack.length then 0x401
  else match c.running with
    | none => c.pf.toNat
    | some r => max c.pf.toNat (r + 1)

/-- The copy in the claim-ready register: the highest-ranked whose level is at least T (06 R236). -/
def Ctx.claimReady (c : Ctx) : Option Copy := c.ready.find? (fun k => c.threshold ≤ keyLevel k.key)

/-- The context's request line (06 R236). -/
def Ctx.request (c : Ctx) : Bool := c.claimReady.isSome

/-- The request line as the core sees it: lowered while the Tile Agent holds its claims (16 R581). -/
def Agent.requestLine (a : Agent) (c : Nat) : Bool := !a.hold && (a.ctx c).request

/-! ## Records sent upstream -/

/-- A record joins the upstream queue (06 R238). -/
def Agent.send (a : Agent) (r : Word24) : Agent := { a with upq := a.upq ++ [r] }

/-- A context-status notice replaces an older one of its context (06 R243). -/
def Agent.sendStat (a : Agent) (c : Nat) : Agent :=
  let old (r : Word24) : Bool := recType r == 12 && bits r.toNat 19 14 == c
  { a with upq := a.upq.filter (fun r => !old r) ++ [rec24 12 (c * 2 ^ 14 + (a.ctx c).threshold)] }

/-- CTXSTAT is sent when T changed from `t` (05 R175). -/
def Agent.statIf (a : Agent) (c t : Nat) : Agent := if (a.ctx c).threshold = t then a else a.sendStat c

/-- Whether a copy bearing a handle is on the tile: in a Ready List or held by a read (06 R235, R238). -/
def Agent.hasCopy (a : Agent) (h : Nat) : Bool :=
  a.ctxs.any (fun x => x.2.ready.any (fun k => k.handle == h) || (match x.2.held with
    | some k => k.handle == h
    | none => false))

/-- RELEASED for a handle whose last copy left the tile (06 R235). -/
def Agent.releaseIf (a : Agent) (h : Nat) : Agent := if a.hasCopy h then a else a.send (recHC 3 h 0)

/-! ## Ready Lists -/

/-- A copy inserted in key order, after those of an equal key (05 R170). -/
def insertCopy (c : Copy) : List Copy → List Copy
  | [] => [c]
  | d :: t => if d.key < c.key then c :: d :: t else d :: insertCopy c t

/-- A candidate accepted: inserted in its Ready List of four, from which the lowest-ranked may leave (06 R235). -/
def Agent.accept (a : Agent) (c : Nat) (k : Copy) : Agent :=
  let l := insertCopy k (a.ctx c).ready
  let a' := a.modCtx c (fun x => { x with ready := l.take 4 })
  match l.drop 4 with
  | [] => a'
  | d :: _ => a'.releaseIf d.handle

/-- Every copy bearing a handle leaves the Ready Lists. -/
def Agent.dropCopies (a : Agent) (h : Nat) : Agent :=
  { a with ctxs := tabMap {} (fun _ x => { x with ready := x.ready.filter (fun k => k.handle ≠ h) }) a.ctxs }

/-- One copy leaves its Ready List (03 R107). -/
def Agent.dropReady (a : Agent) (c : Nat) (k : Copy) : Agent :=
  (a.modCtx c (fun x => { x with ready := x.ready.erase k })).releaseIf k.handle

/-! ## Claims -/

/-- A word answered to a read of the context page. -/
def Agent.answer (a : Agent) (c : Nat) (w : Word) : Agent := a.modCtx c (fun x => { x with resp := w :: x.resp })

/-- An exclusive copy taken: returned, pushed on the stack, and reported (03 R113). -/
def Agent.takeCopy (a : Agent) (c : Nat) (k : Copy) : Agent :=
  let t := (a.ctx c).threshold
  let a := a.modCtx c (fun x => { x with stack := k :: x.stack, resp := k.intid.setWidth 32 :: x.resp })
  a.statIf c t

/-- The claim that finds `ready` as its claim-ready copy (03 R112, R113, R120; 06 R238). -/
def Agent.claim (a : Agent) (c : Nat) : Agent :=
  match (a.ctx c).claimReady with
  | none => a.answer c 0x00FFFFFF
  | some k =>
    let a := a.modCtx c (fun x => { x with ready := x.ready.erase k })
    if k.shared then (a.modCtx c (fun x => { x with held := some k })).send (recHC 5 k.handle c)
    else (a.send (recHC 4 k.handle c)).takeCopy c k

/-- A held read completed as lost: the best copy that then meets R112 if it is exclusive, else nothing (03 R121). -/
def Agent.lostRead (a : Agent) (c : Nat) : Agent :=
  let a := a.modCtx c (fun x => { x with held := none })
  match (a.ctx c).claimReady with
  | some k => if k.shared then a.answer c 0x00FFFFFF else a.claim c
  | none => a.answer c 0x00FFFFFF

/-! ## Completions and floors -/

/-- A completion fault: counted and reported (03 R118). -/
def Agent.cfaultAt (a : Agent) (c : Nat) : Agent :=
  (a.modCtx c (fun x => { x with cfault := satInc x.cfault })).send (rec24 13 (c * 2 ^ 14))

/-- The complete word written (03 R116, R117, R118). -/
def Agent.complete (a : Agent) (c : Nat) (v : Word) : Agent :=
  if v = 0x00FFFFFF then a
  else match (if v.toNat < 2 ^ 24 then (a.ctx c).stack.find? (fun k => k.intid.toNat == v.toNat) else none) with
    | none => a.cfaultAt c
    | some k =>
      let t := (a.ctx c).threshold
      let a := a.modCtx c (fun x => { x with stack := x.stack.erase k })
      (a.send (recHC 7 k.handle c)).statIf c t

/-- The floor word written: bits [10:0], above 0x400 as 0x400 (05 R172). -/
def Agent.floor (a : Agent) (c : Nat) (v : Word) : Agent :=
  let t := (a.ctx c).threshold
  (a.modCtx c (fun x => { x with pf := BitVec.ofNat 11 (min (bits v.toNat 10 0) 0x400) })).statIf c t

/-! ## Accesses to a context page -/

/-- RUNPRI (06 Table 6-4). While IDLE the level field reads 0: the spec gives no level then (DESIGN CHOICE 115). -/
def Ctx.runpri (c : Ctx) : Word :=
  BitVec.ofNat 32 (pack [(c.running.getD 0, 10, 0), (b2n c.running.isNone, 1, 10), (c.stack.length, 4, 12)])

/-- A read of a context page performed (03 R109, R110; 06 R246). -/
def Agent.pageRead (a : Agent) (c off size : Nat) : Agent :=
  if size ≠ 4 then a.answer c 0
  else match off with
    | 0x000 => a.claim c
    | 0x004 => a.answer c (match (a.ctx c).claimReady with
        | some k => k.intid.setWidth 32
        | none => 0x00FFFFFF)
    | 0x008 => a.answer c (a.ctx c).runpri
    | 0x00C => a.answer c ((a.ctx c).pf.setWidth 32)
    | 0x010 => a.answer c ((a.ctx c).cfault.setWidth 32)
    | _ => a.answer c 0

/-- A write to a context page performed (03 R110, R116, R118; 06 R246). -/
def Agent.pageWrite (a : Agent) (c off size : Nat) (v : Word) : Agent :=
  if 0x800 ≤ off && (size ≠ 4 || off % 4 ≠ 0) then a.cfaultAt c
  else if size ≠ 4 then a
  else if off = 0x800 then a.complete c v
  else if off = 0x00C then a.floor c v
  else a

/-- An access performed. -/
def Agent.perform (a : Agent) (c : Nat) : Access → Agent
  | .read off size => a.pageRead c off size
  | .floor size v => a.pageWrite c 0x00C size v
  | .complete off size v => a.pageWrite c off size v

/-- Claim reads and complete writes wait until TRAINED, and any access behind a held read (06 R239, R251). -/
def Agent.mustWait (a : Agent) (c : Nat) (x : Access) : Bool :=
  (a.ctx c).held.isSome || !(a.ctx c).waiting.isEmpty ||
  (a.hold && (match x with
    | .read off size => off == 0 && size == 4
    | .complete .. => true
    | .floor .. => false))

/-- An access to a context page: performed in the order it came, or waiting (06 R239, R244). -/
def Agent.access (a : Agent) (c : Nat) (x : Access) : Agent :=
  if a.mustWait c x then a.modCtx c (fun y => { y with waiting := y.waiting ++ [x] }) else a.perform c x

/-- The waiting accesses of a context are performed until one holds again. -/
def Agent.serve (a : Agent) (c : Nat) : Nat → Agent
  | 0 => a
  | n + 1 =>
    match (a.ctx c).waiting with
    | [] => a
    | x :: rest =>
      if (a.ctx c).held.isSome || a.hold then a
      else ((a.modCtx c (fun y => { y with waiting := rest })).perform c x).serve c n

/-- The waiting accesses of every context are performed. -/
def Agent.serveAll (a : Agent) : Agent :=
  a.ctxs.foldl (fun a x => a.serve x.1 x.2.waiting.length) a

/-! ## Records from the Hub -/

/-- Contexts with a read held on a handle. -/
def Agent.heldOn (a : Agent) (h : Nat) : List Nat :=
  (a.ctxs.filter (fun x => match x.2.held with
    | some k => k.handle == h
    | none => false)).map (·.1)

/-- WDRAW: every copy of the handle that no held read uses leaves; RELEASED when none is left (06 R241). -/
def Agent.onWdraw (a : Agent) (h : Nat) : Agent :=
  if !a.hasCopy h then a
  else
    let a := a.dropCopies h
    if a.hasCopy h then a else a.send (recHC 3 h 0)

/-- WON: the held read of the context completes with the INTID; the handle's other copies leave and its other held
reads are lost (06 R240). -/
def Agent.onWon (a : Agent) (h c : Nat) : Agent :=
  match (a.ctx c).held with
  | none => a.dropCopies h
  | some k =>
    if k.handle ≠ h then a
    else
      let a := (a.dropCopies h).modCtx c (fun x => { x with held := none })
      let a := a.takeCopy c k
      ((a.heldOn h).foldl (fun a d => a.lostRead d) a).serveAll

/-- LOST: every copy of the handle leaves and its held reads are lost (06 R240). -/
def Agent.onLost (a : Agent) (h : Nat) : Agent :=
  let a := a.dropCopies h
  ((a.heldOn h).foldl (fun a d => a.lostRead d) a).serveAll

/-- CLEAR: lists and stacks are emptied, held reads return nothing, floors stay (06 R251). -/
def Agent.onClear (a : Agent) : Agent :=
  ({ a with ctxs := tabMap {} (fun _ x =>
      { x with ready := [], stack := [], held := none,
               resp := if x.held.isSome then 0x00FFFFFF :: x.resp else x.resp }) a.ctxs }).serveAll

/-- QUIESCE: every Ready List copy is released, then QACK (06 R254). -/
def Agent.onQuiesce (a : Agent) : Agent :=
  let hs := setOf (a.ctxs.flatMap (fun x => x.2.ready.map (·.handle)))
  let a := { a with ctxs := tabMap {} (fun _ x => { x with ready := [] }) a.ctxs }
  (hs.foldl (fun a h => a.releaseIf h) a).send (rec24 9 0)

/-- RESYNC_REQ: one report for each copy, that of a held read too, and each active INTID, then RSYNC_END; accesses are held
(06 R238, R251). -/
def Agent.onResync (a : Agent) : Agent :=
  let reps := a.ctxs.flatMap (fun x =>
    (x.2.ready ++ x.2.held.toList).map (fun k => rec24 10 (k.handle * 1024 + x.1 * 16)) ++
    x.2.stack.map (fun k => rec24 10 (k.handle * 1024 + x.1 * 16 + 1)))
  { a with upq := a.upq ++ reps ++ [rec24 11 0], hold := true }

/-- DROP: a reported copy or stack entry is discarded (06 Table 6-8). -/
def Agent.onDrop (a : Agent) (h : Nat) : Agent :=
  { a with ctxs := tabMap {} (fun _ x =>
      { x with ready := x.ready.filter (fun k => k.handle ≠ h), stack := x.stack.filter (fun k => k.handle ≠ h) }) a.ctxs }

/-- TRAINED: the accesses held for it are served (06 R251). -/
def Agent.onTrained (a : Agent) : Agent := ({ a with hold := false }).serveAll

/-- Held reads complete as lost when the link enters RETRAIN (06 R251). -/
def Agent.loseHeld (a : Agent) : Agent :=
  ((a.ctxs.filter (fun x => x.2.held.isSome)).foldl (fun a x => a.lostRead x.1) a).serveAll

end Sys2Proof.Machine
end

