-- ==== Sys2Proof/Machine/Links.lean ====
section
/-! DEFINITION. Tile Links: slots, flits, replay, notices, training, pause, quiesce and loss (06 R210 to R259). -/
namespace Sys2Proof.Machine
open Sys2Proof

/-! ## Sending -/

/-- HCLK counted modulo 2^32. -/
def Time.count (t : Time) : Nat := 256 * t.frames + t.hclk

/-- HCLK passed since an earlier count. -/
def Time.since (t : Time) (c : Nat) : Nat := (t.count + 2 ^ 32 - c) % 2 ^ 32

/-- A sequenced flit launched in the slot filled now: it takes TX_SEQ and joins the replay buffer of 64 (06 R225, R229). -/
def LinkEnd.launch (e : LinkEnd) (now : Nat) (b0 b1 b2 : Word24) : LinkEnd :=
  let f := mkFlit e.txSeq b0 b1 b2
  { e with txSeq := e.txSeq + 1, wire := e.wire ++ [f],
           replay := (e.replay ++ [Sent.mk e.txSeq f now]).drop ((e.replay.length + 1) - 64) }

/-- A link-level flit launched: it takes TX_SEQ without advancing it (06 R225). -/
def LinkEnd.launchNak (e : LinkEnd) : LinkEnd :=
  { e with nakDue := false, wire := e.wire ++ [mkFlit e.txSeq (rec24 6 e.rxExp.toNat) 0 0] }

/-- An IDLE flit launched (06 R223, R225). -/
def LinkEnd.launchIdle (e : LinkEnd) : LinkEnd := { e with wire := e.wire ++ [mkFlit e.txSeq 0 0 0] }

/-- The next flit of a replay launched (06 R229). -/
def LinkEnd.launchReplay (e : LinkEnd) : LinkEnd :=
  match e.resend with
  | [] => e
  | x :: rest => { e with wire := e.wire ++ [x.flit], resend := rest }

/-- The slot that the Delivery Crossbar fills now: the one whose beat 0 comes next (06 R210, R213). -/
def Blk.nextSlot (b : Blk) : Nat := (b.time.hclk / 4 + 1) % 64

/-- A link that is being driven (06 R249, R252). -/
def Link.driven (l : Link) : Bool :=
  l.clkOn && (match l.st with
    | .training | .up | .quiescing | .retrain => true
    | _ => false)

/-- The coming slot has no flit yet, in the HCLK before its beat 0 (06 R213). -/
def Blk.slotDue (b : Blk) (n : Nat) : Bool :=
  (b.link n).driven && b.time.hclk % 4 == 3 && !setHas b.time.filled n

/-- The shadow table of a link becomes live in the next HCLK 0: written outside a session, or in the session of an accepted
COMMIT (06 R216, R217). -/
def Blk.tableDue (b : Blk) (n : Nat) : Bool :=
  (b.link n).shadDue || ((match b.rings.session with
    | some s => s.links.contains n
    | none => false) && b.allExec.any (fun x => match x.2.wait with
    | .commit _ => true
    | _ => false))

/-- The slot table by which the slot filled now is judged: the one live at its beat 0 (06 R217). -/
def Blk.slotTable (b : Blk) (n : Nat) : Dword :=
  if b.time.hclk = 255 && b.tableDue n then (b.link n).shad else (b.link n).live

/-- A candidate's flit (06 Table 6-1). -/
def candBeat0 (c : Cand) : Word24 := rec24 (if c.shared then 2 else 1) (c.ctx * 2 ^ 14 + c.handle)

/-- A candidate transmitted: its handle stands (06 R233). -/
def Blk.sendCand (b : Blk) (n : Nat) (c : Cand) : Blk :=
  let h := (b.link n).handle c.handle
  let b := b.modLink n (fun l => { l with outq := l.outq.erase c, e := l.e.launch b.time.count (candBeat0 c) c.intid c.key }
    |>.modHandle c.handle (fun x => { x with st := .standing }))
  b.probe 8 h.stt (b.stt h.stt).domid (BitVec.ofNat 2 (keyClass c.key))

/-- A control record sent: WON and LOST change the state of their handle (06 Table 6-3). -/
def Link.recSent (l : Link) (r : Word24) : Link :=
  if recType r = 4 || recType r = 5 then l.modHandle (recHandle r) Handle.settled else l

/-- A flit of up to three pending control records, in their order (06 R213). -/
def Link.sendRecords (l : Link) (now : Nat) : Link :=
  let rs := l.ctl.take 3
  rs.foldl Link.recSent { l with ctl := l.ctl.drop 3, e := l.e.launch now (rs.getD 0 0) (rs.getD 1 0) (rs.getD 2 0) }

/-- What fills the coming slot: the first of what exists (06 R213). A forwarded candidate never fills a reserved slot (12
R470). -/
def Blk.slotPut (b : Blk) (n : Nat) : Blk :=
  let l := b.link n
  let rsv := (b.slotTable n).getLsbD b.nextSlot
  let up : Bool := l.st = .up
  if l.e.nakDue then b.modLink n (fun l => { l with e := l.e.launchNak })
  else if !l.e.resend.isEmpty then b.modLink n (fun l => { l with e := l.e.launchReplay })
  else match (if rsv && up then l.outq.find? (fun c => keyClass c.qkey == 3) else none) with
    | some c => b.sendCand n c
    | none =>
      if !l.ctl.isEmpty then b.modLink n (fun l => l.sendRecords b.time.count)
      else match (if up then l.outq.find? (fun c => !rsv || (l.handle c.handle).prox.isNone) else none) with
        | some c => b.sendCand n c
        | none => b.modLink n (fun l => { l with e := l.e.launchIdle })

/-- The coming slot is filled, once (06 R213). -/
def Blk.slotFill (b : Blk) (n : Nat) : Blk :=
  if b.slotDue n then { b with time := { b.time with filled := setAdd b.time.filled n } }.slotPut n else b

/-! ## RETRAIN and the start of training -/

/-- Both sequences 0, nothing buffered or on the wire (06 R225, R251). -/
def LinkEnd.fresh (_ : LinkEnd) : LinkEnd := {}

/-- Unsent control records are discarded. A handle whose WON or LOST is among them changes state as if it had been sent (06
R251: each result equals the state that undisturbed notices would have produced; DEDUCED 113). -/
def Link.dropCtl (l : Link) : Link := { l with ctl := [], handles := tabMap {} (fun _ x => x.settled) l.handles }

/-- The Hub starts the clock and sends IDLE flits; nothing is left of an attempt before (06 R250 step 1). -/
def Blk.trainStep1 (b : Blk) (n : Nat) : Blk :=
  (b.modLink n (fun l => { l.dropCtl with clkOn := true, ph := .idling, reports := [], e := l.e.fresh })).modTa n
    (fun a => { a with aligned := false, e := a.e.fresh, upq := a.upq.filter (fun r => recType r ≠ 10 && recType r ≠ 11) })

/-- A series of training attempts begins (06 R250). -/
def Blk.startTraining (b : Blk) (n : Nat) (st : LState) : Blk :=
  (b.modLink n (fun l => { l with st := st, tries := 0, service := false, waking := false })).trainStep1 n

/-- The link enters RETRAIN: both ends discard what is unsent, held reads are lost (06 R230, R251). -/
def Blk.retrain (b : Blk) (n : Nat) : Blk :=
  let b := b.modLink n (fun l => { l with retrains := l.retrains + 1, hasTab := true })
  let b := b.modTa n (fun a => { a with upq := [], pausing := false }.loseHeld)
  b.startTraining n .retrain

/-- RETRAIN where the link's state permits it (06 R230). -/
def Blk.retrainIf (b : Blk) (n : Nat) : Blk :=
  if (b.link n).st = .up ∨ (b.link n).st = .quiescing then b.retrain n else b

/-! ## Receiving -/

/-- The first mismatch of a wait: counted, reported, and a NAK falls due (06 R228; 14 R524). -/
def Blk.mismatch (b : Blk) (n : Nat) (atTile first : Bool) : Blk :=
  let b := if atTile then b.modTa n (fun a => { a with e := { a.e with nakWait := true, nakDue := a.e.nakDue || first } })
    else b.modLink n (fun l => { l with e := { l.e with nakWait := true, nakDue := l.e.nakDue || first } })
  if first then
    let b := b.modLink n (fun l => { l with err := { l.err with crc := satInc l.err.crc } })
    ({ b with cvu := { b.cvu with link := setAdd b.cvu.link n } }).raise (0x46 + n)
  else b

/-- A protocol error: counted, and the link is trained again (06 R224). -/
def Blk.protoError (b : Blk) (n : Nat) : Blk :=
  (b.modLink n (fun l => { l with err := { l.err with proto := satInc l.err.proto } })).retrainIf n

/-- A flit checked by its receiver: its contents when it is accepted (06 R227, R228). -/
def LinkEnd.check (e : LinkEnd) (f : Flit) : Bool := crc24 e.rxExp f.b0 f.b1 f.b2 == f.crc

/-- The receiver's end after a flit that passed. -/
def LinkEnd.accepted (e : LinkEnd) (f : Flit) : LinkEnd :=
  { e with nakWait := false, rxExp := if f.sequenced then e.rxExp + 1 else e.rxExp }

/-- A flit arriving at the Tile Agent from the Hub's wire; the flit when it is accepted and legal. -/
def Blk.recvDown (b : Blk) (n : Nat) (err : BitVec 96) : Blk × Option Flit :=
  match (b.link n).e.wire with
  | [] => (b, none)
  | f :: rest =>
    let inj := b.injHit 17 n
    let b := if inj then b.injDone 17 else b
    let g := corrupt f (err ^^^ (if inj then BitVec.twoPow 96 95 else 0))
    let b := b.modLink n (fun l => { l with e := { l.e with wire := rest } })
    let e := (b.ta n).e
    if !e.check g then (b.mismatch n true (!e.nakWait), none)
    else
      let b := b.modTa n (fun a => { a with e := a.e.accepted g })
      if g.legal false then (b, some g) else (b.protoError n, none)

/-- The records of the flit that leaves next: CLAIMREQ before any other, then in the order generated, and PAUSE_ACK once
nothing else is queued (06 R223, R238, R252). -/
def Agent.nextRecs (a : Agent) : List Word24 :=
  match a.upq.filter (fun r => recType r == 5) with
  | [] => if a.upq.isEmpty && a.pausing then [rec24 8 0] else a.upq.take 3
  | q => q.take 3

/-- The Tile Agent launches its next flit when none is on its way: a NAK, a replay, its next records, or IDLE once it is
aligned (06 R238, R250). -/
def Agent.launchNext (a : Agent) (now : Nat) : Agent :=
  if !a.e.wire.isEmpty then a
  else if a.e.nakDue then { a with e := a.e.launchNak }
  else if !a.e.resend.isEmpty then { a with e := a.e.launchReplay }
  else match a.nextRecs with
    | [] => if a.aligned then { a with e := a.e.launchIdle } else a
    | rs => { a with upq := rs.foldl (fun q r => q.erase r) a.upq, pausing := a.pausing && !a.upq.isEmpty,
                     e := a.e.launch now (rs.getD 0 0) (rs.getD 1 0) (rs.getD 2 0) }

/-- A flit arriving at the Hub from the Tile Agent's wire; the flit when it is accepted and legal. -/
def Blk.recvUp (b : Blk) (n : Nat) (err : BitVec 96) : Blk × Option Flit :=
  match (b.ta n).e.wire with
  | [] => (b, none)
  | f :: rest =>
    let inj := b.injHit 18 n
    let b := if inj then b.injDone 18 else b
    let g := corrupt f (err ^^^ (if inj then BitVec.twoPow 96 95 else 0))
    let b := b.modTa n (fun a => { a with e := { a.e with wire := rest } })
    let e := (b.link n).e
    if !e.check g then (b.mismatch n false (!e.nakWait), none)
    else
      let b := b.modLink n (fun l => { l with e := l.e.accepted g })
      if g.legal true then (b, some g) else (b.protoError n, none)

/-- First record of a flit that holds content, if it is of this type. -/
def Flit.leads (f : Flit) (typ : Nat) : Bool :=
  !f.isCand && (match f.records with
    | r :: _ => recType r == typ
    | [] => false)

/-- A flit without content (06 R223). -/
def Flit.isIdle (f : Flit) : Bool := f.b0 == 0 && f.b1 == 0 && f.b2 == 0

/-- The IDLE flits that stand before the next other flit on the Hub's wire reach the Tile Agent. -/
def Blk.idlesDown (b : Blk) (n : Nat) : Nat → Blk
  | 0 => b
  | k + 1 =>
    match (b.link n).e.wire with
    | f :: _ => if f.isIdle then (b.recvDown n 0).1.idlesDown n k else b
    | [] => b

/-- The IDLE flits before the next other flit of the Hub have reached the Tile Agent. -/
def Blk.idlesAtTile (b : Blk) (n : Nat) : Blk := b.idlesDown n (b.link n).e.wire.length

/-- The Tile Agent's next flit, when it is IDLE, reaches the Hub. -/
def Blk.idleAtHub (b : Blk) (n : Nat) : Blk :=
  if !(b.link n).driven || (b.ta n).inReset then b
  else
    let a := (b.ta n).launchNext b.time.count
    match a.e.wire with
    | f :: _ => if f.isIdle then ((b.modTa n (fun _ => a)).recvUp n 0).1 else b
    | [] => b

/-- The first record of an accepted flit, if it is of this type; the others wait for their turn. -/
def LinkEnd.takeFirst (e : LinkEnd) (typ : Nat) (f : Option Flit) : LinkEnd × Option Word24 :=
  match f.map Flit.records with
  | some (r :: rest) =>
    if recType r = typ then ({ e with inbox := rest }, some r) else ({ e with inbox := r :: rest }, none)
  | _ => (e, none)

/-- A record of type `typ` reaches the Tile Agent: the next one of the flit received last, or the first of the next
flit, after the IDLE flits before it. Bit errors hit the next flit on the wire, an IDLE flit too. No event when the next
record is another. -/
def Blk.takeDown (b : Blk) (n typ : Nat) (err : BitVec 96) : Option (Blk × Option Word24) :=
  match (b.ta n).e.inbox with
  | r :: rest =>
    if recType r = typ then some (b.modTa n (fun a => { a with e := { a.e with inbox := rest } }), some r) else none
  | [] =>
    if err ≠ 0 && (b.link n).e.wire.head?.any Flit.isIdle then some ((b.recvDown n err).1, none)
    else match (b.link n).e.wire.find? (fun f => !f.isIdle) with
      | none => none
      | some f =>
        if !f.leads typ then none
        else
          let x := (b.idlesAtTile n).recvDown n err
          let y := (x.1.ta n).e.takeFirst typ x.2
          some (x.1.modTa n (fun a => { a with e := y.1 }), y.2)

/-- A record of type `typ` reaches the Hub: the next one of the flit accepted last, or the first of the Tile Agent's next
flit. Bit errors hit an IDLE flit when the Tile Agent sends no other. No event when the next record is another. -/
def Blk.takeUp (b : Blk) (n typ : Nat) (err : BitVec 96) : Option (Blk × Option Word24) :=
  match (b.link n).e.inbox with
  | r :: rest =>
    if recType r = typ then some (b.modLink n (fun l => { l with e := { l.e with inbox := rest } }), some r) else none
  | [] =>
    if !(b.link n).driven || (b.ta n).inReset then none
    else
      let a := (b.ta n).launchNext b.time.count
      match a.e.wire with
      | [] => none
      | f :: _ =>
        if !f.leads typ && !(f.isIdle && err ≠ 0) then none
        else
          let x := (b.modTa n (fun _ => a)).recvUp n err
          let y := (x.1.link n).e.takeFirst typ x.2
          some (x.1.modLink n (fun l => { l with e := y.1 }), y.2)

/-- Effect of a record on the Tile Agent. -/
def Blk.downRec (b : Blk) (n typ : Nat) (err : BitVec 96) (f : Blk → Word24 → Blk) : Blk :=
  match b.takeDown n typ err with
  | some (b, some r) => f b r
  | some (b, none) => b
  | none => b

/-- A sequenced record that arrives after PAUSE was sent abandons the pause (06 R252). -/
def Blk.abandonPause (b : Blk) (n : Nat) : Blk :=
  b.modLink n (fun l => if l.ph = .pausing then { l with ph := .none } else l)

/-- Effect of a record on the Hub. PAUSE_ACK, and the link-level NAK, which is not sequenced, abandon no pause. -/
def Blk.upRec (b : Blk) (n typ : Nat) (err : BitVec 96) (f : Blk → Word24 → Blk) : Blk :=
  match b.takeUp n typ err with
  | some (b, some r) => f (if typ = 8 ∨ typ = 6 then b else b.abandonPause n) r
  | some (b, none) => b
  | none => b

/-! ## NAK and replay (06 R228 to R230) -/

/-- A replay buffer holds a flit for 256 HCLK after its beat 3, which is sent in the fourth HCLK after the slot was filled
(06 R221, R229). -/
def Sent.held (x : Sent) (t : Time) : Bool := t.since x.time ≤ 260

/-- A NAK accepted by a sender: a replay from a SEQ that the buffer holds, nothing for the current TX_SEQ or for a SEQ from
which a replay began less than 128 HCLK ago; none: the buffer no longer holds it (06 R229, R230). -/
def LinkEnd.onNak (e : LinkEnd) (t : Time) (seq : BitVec 8) : Option (LinkEnd × Bool) :=
  let begun : Bool := match e.lastReplay with
    | some (q, c) => q == seq && t.since c < 128
    | none => false
  if seq = e.txSeq || begun then some (e, false)
  else match (e.replay.filter (·.held t)).dropWhile (fun x => x.seq ≠ seq) with
    | [] => none
    | rs => some ({ e with resend := rs, lastReplay := some (seq, t.count) }, true)

/-- A replay begun is counted (06 R260). -/
def Blk.replayCount (b : Blk) (n : Nat) : Blk :=
  b.modLink n (fun l => { l with err := { l.err with replay := satInc l.err.replay } })

def Blk.nakAtTile (b : Blk) (n : Nat) (r : Word24) : Blk :=
  match (b.ta n).e.onNak b.time (BitVec.ofNat 8 (bits r.toNat 7 0)) with
  | none => b.retrainIf n
  | some (e, go) => let b := b.modTa n (fun a => { a with e := e }); if go then b.replayCount n else b

def Blk.nakAtHub (b : Blk) (n : Nat) (r : Word24) : Blk :=
  match (b.link n).e.onNak b.time (BitVec.ofNat 8 (bits r.toNat 7 0)) with
  | none => b.retrainIf n
  | some (e, go) => let b := b.modLink n (fun l => { l with e := e }); if go then b.replayCount n else b

/-- A NAK received at one end of a link. -/
def Blk.nak (b : Blk) (n : Nat) (atTile : Bool) (err : BitVec 96) : Blk :=
  if atTile then b.downRec n 6 err (fun b r => b.nakAtTile n r) else b.upRec n 6 err (fun b r => b.nakAtHub n r)

/-- Whether an end waits for a flit that passes its check. -/
def Blk.waitsAt (b : Blk) (n : Nat) (atTile : Bool) : Bool :=
  if atTile then (b.ta n).e.nakWait else (b.link n).e.nakWait

/-- IDLE flits that had the time to reach an end: one that passes its check ends a wait (06 R228). -/
def Blk.idlesAt (b : Blk) (n : Nat) (atTile : Bool) : Blk := if atTile then b.idlesAtTile n else b.idleAtHub n

/-- The receiver repeats its NAK every 64 HCLK while it waits (06 R228). -/
def Blk.nakRepeat (b : Blk) (n : Nat) (atTile : Bool) : Blk :=
  let b := b.idlesAt n atTile
  if !b.waitsAt n atTile then b
  else if atTile then b.modTa n (fun a => { a with e := { a.e with nakDue := true } })
  else b.modLink n (fun l => { l with e := { l.e with nakDue := true } })

/-! ## Candidates -/

/-- A candidate flit reaches the Tile Agent (06 R235, R237). -/
def Blk.candidateFlit (b : Blk) (n : Nat) (err : BitVec 96) : Blk :=
  if !(b.ta n).e.inbox.isEmpty then b
  else if err ≠ 0 && (b.link n).e.wire.head?.any Flit.isIdle then (b.recvDown n err).1
  else match (b.link n).e.wire.find? (fun f => !f.isIdle) with
    | none => b
    | some f =>
      if !f.isCand then b
      else
        let x := (b.idlesAtTile n).recvDown n err
        match x.2 with
        | none => x.1
        | some g =>
          if !g.isCand then x.1
          else
            let c := bits g.b0.toNat 19 14
            let h := bits g.b0.toNat 9 0
            let inj := x.1.injHit 26 n
            let b := if inj then (x.1.injDone 26).uncorr 21 0 n else x.1
            let k : Copy := { shared := recType g.b0 == 2, handle := h, intid := g.b1, key := g.b2 }
            b.modTa n (fun a =>
              if inj then a.releaseIf h
              else
                let a := a.accept c k
                if b.ctxPop (64 * n + c) then a else a.send (recHC 14 h c))

/-! ## Notices at the Hub (06 R233, R234) -/

/-- A notice of a handle of this Hub's own instance. -/
def Blk.notice (b : Blk) (m : List Host.Cell) (n h : Nat) (k : NoticeKind) (c : Nat) : Blk :=
  let x := (b.link n).handle h
  b.sendNotice m n h { stt := x.stt, mapgen := x.mapgen, kind := .notice k n h c x.gen }

/-- The release of a handle's copies, applied to what the handle names: an entry, or the home Hub of a forwarded candidate. A
handle found uncorrectable names nothing (06 R233, 12 R470; 14 Table 14-1 code 15). -/
def Blk.releaseHandle (b : Blk) (m : List Host.Cell) (n h : Nat) : Blk :=
  let x := (b.link n).handle h
  if b.lostHandle n h then b
  else match x.prox with
  | some (p, k) => (b.toHome p (.released k x.gen) k).handleAfter false n h 0
  | none => b.notice m n h .released x.ctx

/-- The completion of a handle's INTID. -/
def Blk.completeHandle (b : Blk) (m : List Host.Cell) (n h : Nat) : Blk :=
  let x := (b.link n).handle h
  if b.lostHandle n h then b
  else match x.prox with
  | some (p, k) => (b.toHome p (.complete k x.gen) k).handleAfter false n h 0
  | none => b.notice m n h .complete x.ctx

/-- The claim of a handle's copy at a context. -/
def Blk.claimHandle (b : Blk) (m : List Host.Cell) (n h c : Nat) : Blk :=
  let x := (b.link n).handle h
  if b.lostHandle n h then b
  else match x.prox with
  | some (p, k) => (b.toHome p (.claimed k x.gen) k).handleAfter true n h c
  | none => b.notice m n h .claimed c

/-- A QUIESCING link whose tile has answered. -/
def Link.quiesceAnswered (l : Link) : Bool := l.st = .quiescing && l.ph = .asked

/-- QUIESCED once every handle of a QUIESCING link is FREE and its tile has answered; the next training then ends with CLEAR
(06 R254, R255; 16 Table 16-1). -/
def Blk.quiesceEnd (b : Blk) (n : Nat) : Blk :=
  let l := b.link n
  if l.quiesceAnswered && l.handles.isEmpty then
    let b := b.modLink n (fun l => { l with st := .quiesced, clkOn := false, ph := .none, hasTab := false })
    if l.service then b.startTraining n .training else b
  else b

/-- A record about a handle that is bound. What it needs of the handle's state is judged when it takes effect, behind the
notices that went before it. -/
def Blk.boundRec (b : Blk) (n : Nat) (r : Word24) (f : Blk → Nat → Blk) : Blk :=
  if ((b.link n).handle (recHandle r)).st = .free then b else f b (recHandle r)

/-- RELEASED (06 Table 6-3). -/
def Blk.released (b : Blk) (m : List Host.Cell) (n : Nat) (err : BitVec 96) : Blk :=
  b.upRec n 3 err (fun b r => b.boundRec n r (fun b h => b.releaseHandle m n h))

/-- CLAIMED. -/
def Blk.claimed (b : Blk) (m : List Host.Cell) (n : Nat) (err : BitVec 96) : Blk :=
  b.upRec n 4 err (fun b r => b.boundRec n r (fun b h => b.claimHandle m n h (recCtx r)))

/-- COMPLETE. -/
def Blk.completeNotice (b : Blk) (m : List Host.Cell) (n : Nat) (err : BitVec 96) : Blk :=
  b.upRec n 7 err (fun b r => b.boundRec n r (fun b h => b.completeHandle m n h))

/-- CLAIMREQ: answered WON or LOST; on a handle that is not bound to a source of this Hub it is lost at once (03 R120, 06
R242). -/
def Blk.claimReq (b : Blk) (m : List Host.Cell) (n : Nat) (err : BitVec 96) : Blk :=
  b.upRec n 5 err (fun b r =>
    let h := recHandle r
    let x := (b.link n).handle h
    if x.st = .free || x.prox.isSome || b.lostHandle n h then (b.loseClaim n h).1 else b.notice m n h .claimReq (recCtx r))

/-- CTXSTAT: T enters the Context Priority Table (05 R175). -/
def Blk.ctxstat (b : Blk) (n : Nat) (err : BitVec 96) : Blk :=
  b.upRec n 12 err (fun b r =>
    { b with rank := { b.rank with cpt := tabSet 0 b.rank.cpt (64 * n + bits r.toNat 19 14)
                                            (BitVec.ofNat 11 (bits r.toNat 10 0)) } })

/-- CFAULT: the completion-fault source is raised (03 R118). -/
def Blk.cfault (b : Blk) (n : Nat) (err : BitVec 96) : Blk := b.upRec n 13 err (fun b _ => b.raise 0x07)

/-- UNPOP: counted, and the unpopulated-delivery source is raised (06 R237). -/
def Blk.unpop (b : Blk) (n : Nat) (err : BitVec 96) : Blk :=
  b.upRec n 14 err (fun b _ =>
    (b.modLink n (fun l => { l with err := { l.err with unpop := satInc l.err.unpop } })).raise 0x0B)

/-! ## Training (06 R250, R251) -/

/-- The link is up: TRAINED is sent and the link is in service, which triggers the parked rescan (05 R189; 06 R250). -/
def Blk.linkUp (b : Blk) (n : Nat) : Blk :=
  ((b.modLink n (fun l => { l with st := .up, ph := .none, tries := 0, hasTab := true, reports := [] })).ctlRec n
    (rec24 13 0)).rescan

/-- A link that is being brought up. -/
def Link.inTraining (l : Link) : Bool := l.st = .training || l.st = .retrain

/-- The Tile Agent has seen two frame markers and sends IDLE flits upstream (06 R250 step 2). -/
def Blk.frameAlign (b : Blk) (n : Nat) : Blk :=
  if (b.link n).inTraining && (b.link n).ph = .idling && !(b.ta n).inReset then
    (b.modTa n (fun a => { a with aligned := true })).modLink n (fun l => { l with ph := .aligned })
  else b

/-- Two upstream frames have passed: CLEAR, or RESYNC_REQ when the Hub holds the handle table (06 R250 step 3). -/
def Blk.framesPassed (b : Blk) (n : Nat) : Blk :=
  if (b.link n).inTraining && (b.link n).ph = .aligned then
    (b.ctlRec n (rec24 (if (b.link n).hasTab then 10 else 11) 0)).modLink n (fun l => { l with ph := .asked })
  else b

/-- An attempt that has not reached UP in time: another from step 1, or FAILED after the fourth (06 R250). -/
def Blk.trainTimeout (b : Blk) (n : Nat) : Blk :=
  let l := b.link n
  if !l.inTraining then b
  else if 3 ≤ l.tries then
    (b.modLink n (fun l => { l.dropCtl with st := .failed, tries := 0, ph := .none, clkOn := false, e := l.e.fresh })).raise
      0x0C
  else (b.modLink n (fun l => { l with tries := l.tries + 1 })).trainStep1 n

/-- CLEAR accepted: the tile is empty, and the link comes up (06 R250, R251). -/
def Blk.clearRec (b : Blk) (n : Nat) (err : BitVec 96) : Blk :=
  b.downRec n 11 err (fun b _ => (b.modTa n Agent.onClear).linkUp n)

/-- CLEAR or RESYNC_REQ of the attempt in progress has been sent. -/
def Link.asked (l : Link) : Bool := l.inTraining && l.ph = .asked

/-- RSYNC: a report is noted. -/
def Blk.rsync (b : Blk) (n : Nat) (err : BitVec 96) : Blk :=
  b.upRec n 10 err (fun b r => b.modLink n (fun l => if l.asked then
    { l with reports := l.reports ++ [(recHandle r, recCtx r, bits r.toNat 1 0 == 1)] } else l))

/-- What the Hub applies to one handle at reconciliation (06 Table 6-8). -/
def Blk.reconcile (b : Blk) (m : List Host.Cell) (n : Nat) (reps : List (Nat × Nat × Bool)) (h : Nat) : Blk :=
  let x := (b.link n).handle h
  let act := reps.find? (fun r => r.1 == h && r.2.2)
  let any := reps.any (fun r => r.1 == h)
  match x.st with
  | .standing =>
    match act with
    | some (_, c, _) => b.claimHandle m n h c
    | none => if any then b else b.releaseHandle m n h
  | .active => if any then b else b.completeHandle m n h
  | _ => b

/-- RSYNC_END: every handle is reconciled, unknown reports are dropped, and the link comes up (06 R251). -/
def Blk.rsyncEnd (b : Blk) (m : List Host.Cell) (n : Nat) (err : BitVec 96) : Blk :=
  b.upRec n 11 err (fun b _ =>
    if !(b.link n).asked then b
    else
      let reps := (b.link n).reports
      let known := (b.link n).handles.map (·.1)
      let b := known.foldl (fun b h => b.reconcile m n reps h) b
      let strange := setOf ((reps.filter (fun r => !known.contains r.1)).map (·.1))
      let b := strange.foldl (fun b h => b.ctlRec n (recHC 12 h 0)) b
      b.linkUp n)

/-! ## Pause, quiesce, wake and loss -/

/-- PAUSE at the Tile Agent: answered once its upstream queue is empty (06 R252). -/
def Blk.pauseRec (b : Blk) (n : Nat) (err : BitVec 96) : Blk :=
  b.downRec n 8 err (fun b _ => b.modTa n (fun a => { a with pausing := true }))

/-- Something sequenced leaves either end of a link in the coming slots. -/
def Blk.linkSends (b : Blk) (n : Nat) : Bool :=
  !(b.link n).ctl.isEmpty || !(b.link n).outq.isEmpty || !(b.link n).e.resend.isEmpty ||
  !(b.ta n).upq.isEmpty || !(b.ta n).e.resend.isEmpty

/-- PAUSE_ACK: the Hub stops the clock, unless the pause was abandoned; what either end still has to send abandons it (06
R252). -/
def Blk.pauseAck (b : Blk) (n : Nat) (err : BitVec 96) : Blk :=
  b.upRec n 8 err (fun b _ =>
    if (b.link n).ph ≠ .pausing then b
    else if b.linkSends n then b.abandonPause n
    else b.modLink n (fun l => { l with st := .paused, clkOn := false, ph := .none }))

/-- A quiesce of a link in UP begins: its queued candidates are withdrawn and QUIESCE is sent (06 R254). -/
def Blk.startQuiesce (b : Blk) (m : List Host.Cell) (n : Nat) : Blk :=
  let b := b.modLink n (fun l => { l with st := .quiescing, ph := .none })
  let hs := setOf ((b.link n).outq.map (·.handle))
  let b := b.modLink n (fun l => { l with outq := [] })
  let b := hs.foldl (fun b h => if ((b.link n).handle h).st = .queued then b.releaseHandle m n h else b) b
  b.ctlRec n (rec24 9 0)

/-- QACK (06 R254). -/
def Blk.qack (b : Blk) (n : Nat) (err : BitVec 96) : Blk :=
  b.upRec n 9 err (fun b _ => b.modLink n (fun l => if l.st = .quiescing then { l with ph := .asked } else l))

/-- A link that the upstream wake pattern brings back: the Hub does not drive it and it keeps no paused state (06 R257). -/
def Link.wakeable (l : Link) : Bool := l.pop && (l.st = .quiesced || l.st = .down || l.st = .failed)

/-- The upstream wake pattern brings a link that is not driven back (06 R257). -/
def Blk.wakeTrain (b : Blk) (n : Nat) : Blk :=
  if (b.link n).wakeable then (b.modLink n (fun l => { l with quiesce := false })).startTraining n .training else b

/-- A Tile Agent loses what it held: a held read is answered as lost, and every other access is forgotten (06 R258). -/
def Agent.lost (a : Agent) : Agent :=
  { inReset := a.inReset, wake := a.wake,
    ctxs := tabMap {} (fun _ x => { resp := if x.held.isSome then 0x00FFFFFF :: x.resp else x.resp }) a.ctxs }

/-- The loss of a tile: releases, completions, every handle freed, and the link DOWN (06 R258). -/
def Blk.tileLoss (b : Blk) (m : List Host.Cell) (n : Nat) : Blk :=
  let l := b.link n
  if l.st = .up ∨ l.st = .quiescing ∨ l.st = .retrain then
    let b := b.modLink n (fun l => { l.dropCtl with outq := [], st := .down })
    let b := (l.handles.map (·.1)).foldl (fun b h => match ((b.link n).handle h).st with
      | .active => b.completeHandle m n h
      | .free => b
      | _ => b.releaseHandle m n h) b
    let b := b.modLink n (fun l =>
      { l with clkOn := false, ph := .none, ctl := [], reports := [], hasTab := false, e := l.e.fresh })
    (b.modTa n Agent.lost).raise 0x0D
  else b

/-- Lowering or raising TA_RST_N: the Tile Agent forgets everything, and on leaving reset it sends the wake pattern
once (05 R172, 06 R257; 16 R575). -/
def Blk.taReset (b : Blk) (n : Nat) (low : Bool) : Blk :=
  if low then b.modTa n (fun a => { a.lost with inReset := true, wake := false })
  else if (b.ta n).inReset then b.modTa n (fun a => { a with inReset := false, wake := true })
  else b

/-! ## TDM.LINKn_CTL (06 R254, R255, R230) -/

/-- QUIESCE written: 1 starts a quiesce of a link in UP, 0 requests service (06 R254, R255). A 1 that follows such a request
during QUIESCING leaves it standing (DESIGN CHOICE 114). -/
def Blk.writeQuiesce (b : Blk) (m : List Host.Cell) (n : Nat) (v : Bool) : Blk :=
  let l := b.link n
  let b := b.modLink n (fun l => { l with quiesce := v })
  if v then (if l.st = .up then b.startQuiesce m n else b)
  else match l.st with
    | .quiesced => b.startTraining n .training
    | .quiescing => b.modLink n (fun l => { l with service := true })
    | _ => b

/-- RETRAIN written with 1: RETRAIN from UP or QUIESCING, a new series from FAILED (06 R230, R250). -/
def Blk.writeRetrain (b : Blk) (n : Nat) : Blk :=
  if (b.link n).st = .failed then b.startTraining n .training else b.retrainIf n

/-- A shadow slot table written outside a session becomes live at the next frame (06 R216, R217). -/
def Blk.slotLive (b : Blk) (n : Nat) : Blk :=
  b.modLink n (fun l => if l.shadDue then { l with live := l.shad, shadDue := false } else l)

end Sys2Proof.Machine
end

