-- ==== Sys2Proof/Machine/Engine.lean ====
section
/-! DEFINITION. Clause Engines: fetch, the shared step of a run, starts, closings, the watchdog and source timers
(07 R271 to R313, 08 R315 to R332). -/
namespace Sys2Proof.Machine
open Sys2Proof

/-! ## Instruction words (08 Tables 8-2, 8-7) -/

/-- OP, bits [23:18]. -/
def opOf (w : Word24) : Nat := bits w.toNat 23 18
/-- RD, or RA of CMPT, BBS, BBC and TIMER, bits [17:14]. -/
def fD (w : Word24) : Nat := bits w.toNat 17 14
/-- RA, bits [13:10]. -/
def fA (w : Word24) : Nat := bits w.toNat 13 10
/-- RB, bits [9:6]. -/
def fB (w : Word24) : Nat := bits w.toNat 9 6
/-- IMM10 or OFF10, bits [9:0]. -/
def imm10 (w : Word24) : Word24 := (w.extractLsb' 0 10).setWidth 24
/-- simm10. -/
def simm10 (w : Word24) : Word24 := (w.extractLsb' 0 10).signExtend 24
/-- simm14. -/
def simm14 (w : Word24) : Word24 := (w.extractLsb' 0 14).signExtend 24

/-- A field whose valid bit is 0 holds 0 (08 R330). -/
def gated (valid : Bool) (field : Nat) : Bool := valid || field == 0

/-- The word is a legal instruction (08 R319). -/
def legalWord (w : Word24) : Bool :=
  let v := w.toNat
  let fn0 := bits v 5 0 == 0
  match opOf w with
  | 0x01 => bits v 9 0 == 0
  | 0x02 => true
  | 0x03 => bits v 13 10 == 0
  | 0x04 | 0x05 => fn0
  | 0x06 => true
  | 0x07 => fn0 && fD w == 0
  | 0x08 => fD w == 0
  | 0x09 | 0x0A | 0x0B => fn0
  | 0x0C | 0x0D => true
  | 0x0E | 0x0F | 0x10 => bits v 9 5 == 0 && bits v 4 0 ≤ 23
  | 0x11 | 0x12 | 0x13 => fn0
  | 0x14 => bits v 9 0 == 0
  | 0x15 | 0x16 | 0x17 | 0x18 => fn0
  | 0x19 => bits v 9 5 + (bits v 4 0 + 1) ≤ 24
  | 0x20 | 0x22 | 0x24 | 0x26 | 0x27 => bits v 13 12 == 0
  | 0x21 | 0x23 | 0x25 | 0x28 => true
  | 0x29 => bits v 2 0 == 0
  | 0x30 => fD w ≠ 15
  | 0x31 | 0x32 => bits v 13 9 ≤ 23
  | 0x38 => gated (bit v 16) (bits v 13 12) && gated (bit v 15) (bits v 11 4) && gated (bit v 14) (bits v 3 0)
  | 0x39 => bits v 16 15 == 0 && bits v 13 8 == 0 && gated (bit v 14) (bits v 3 0)
  | 0x3A => !bit v 14 && bits v 3 0 == 0 && gated (bit v 16) (bits v 13 12) && gated (bit v 15) (bits v 11 4)
  | 0x3B => bits v 16 0 == 0
  | 0x3C => bits v 3 0 == 0 && gated (bits v 17 16 ≠ 0) (bits v 7 4)
  | 0x3D => bits v 13 0 == 0
  | 0x3E => bits v 17 0 == 0
  | _ => false

/-- Step cost of a legal instruction (08 R321). -/
def stepCost (w : Word24) : Nat :=
  match opOf w with
  | 0x11 | 0x12 | 0x27 | 0x28 => 2
  | 0x13 => 8
  | 0x29 => if bits w.toNat 5 3 + 1 ≤ 4 then 2 else 3
  | _ => 1

/-! ## Registers of a run -/

/-- Register `n` of a run (08 R315). -/
def Run.reg (r : Run) (n : Nat) : Word24 := tabGet 0 r.g n
/-- A run with register `n` written. -/
def Run.setReg (r : Run) (n : Nat) (v : Word24) : Run := { r with g := tabSet 0 r.g n v }
/-- A run with register `n` and the flags written. -/
def Run.setBoth (r : Run) (n : Nat) (v : Word24) (f : Flags) : Run := { r.setReg n v with f := f }

/-- Registers at the first step of a run, Table 7-3 (07 R277, R278). -/
def firstRegs (d : Dispatch) : Tab Word24 :=
  let w (n : Nat) : Word24 := BitVec.ofNat 24 n
  let cause := match d.cause with
    | .arrival => 0
    | .timer => 1
    | .lost => 2
  let g4 := w (pack [(d.pl.ns, 3, 0), (cause, 2, 4), (b2n d.exc, 1, 6), (d.pl.seq.toNat, 8, 8)])
  let g9 := w (pack [(d.rank.cls.toNat, 2, 0), (d.rank.prio.toNat, 8, 2), (d.domid, 12, 12)])
  let vals : List (Nat × Word24) := [(0, d.pl.samples.getD 0 0), (1, d.pl.samples.getD 1 0), (2, d.pl.samples.getD 2 0),
    (3, d.pl.samples.getD 3 0), (4, g4), (5, d.pl.chan), (6, d.time.extractLsb' 0 24), (7, d.time.extractLsb' 24 24),
    (8, d.vintid), (9, g9), (10, d.att.param)]
  vals.foldl (fun t x => tabSet 0 t x.1 x.2) []

/-- A run at its first step (07 R277, 08 R315). -/
def newRun (d : Dispatch) (again stuck : Bool) : Run :=
  { d := d, g := firstRegs d, pc := d.att.paddr, again := again, stuck := stuck }

/-! ## What one instruction does -/

/-- Outcome of an instruction that meets none of the fetch faults: the cluster's data store and the run go on, the run
ends, or it faults with a cause of Table 7-5. -/
inductive StepRes where
  | go (c : Cluster) (r : Run)
  | ends (r : Run)
  | fault (cause : Nat)
  deriving DecidableEq, Repr

/-- An instruction that changes only the run. -/
def ofRun (f : Run → Word24 → Run) : Cluster → Run → Word24 → StepRes := fun c r w => .go c (f r w)

/-- The data store word at an address; none when it is poisoned (07 R305). -/
def Cluster.dataAt (c : Cluster) (a : Nat) : Option Word24 := if setHas c.dataBad a then none else some (tabGet 0 c.data a)

/-- A data store word written; that clears its poison (07 R305). -/
def Cluster.dataPut (c : Cluster) (a : Nat) (v : Word24) : Cluster :=
  { c with data := tabSet 0 c.data a v, dataBad := setDel c.dataBad a }

/-- Address of an offset in a window of a base and a length; none outside it (08 R325). -/
def inWindow (base len off : Nat) : Option Nat := if off < len then some (base + off) else none

/-- The history window word at an offset read: WINDOW or UNCORR when it cannot be (08 R325). -/
def withHist (c : Cluster) (r : Run) (off : Nat) (f : Nat → Word24 → StepRes) : StepRes :=
  match inWindow r.d.att.hbase r.d.att.hlen off with
  | none => .fault 3
  | some a => match c.dataAt a with
    | none => .fault 8
    | some v => f a v

/-- The table window word at an offset read. -/
def withTable (c : Cluster) (r : Run) (off : Nat) (f : Word24 → StepRes) : StepRes :=
  match inWindow r.d.att.tbase r.d.att.tlen off with
  | none => .fault 3
  | some a => match c.dataAt a with
    | none => .fault 8
    | some v => f v

/-- OFF12 of a MEM form. -/
def off12 (w : Word24) : Nat := bits w.toNat 11 0
/-- RA plus OFF10 of a MEMX form, an unbounded sum (08 R325). -/
def offX (r : Run) (w : Word24) : Nat := (r.reg (fA w)).toNat + bits w.toNat 9 0

/-- Data store addresses inside the windows that an instruction reads. -/
def readAddrs (r : Run) (w : Word24) : List Nat :=
  let h (o : Nat) : List Nat := (inWindow r.d.att.hbase r.d.att.hlen o).toList
  let t (o : Nat) : List Nat := (inWindow r.d.att.tbase r.d.att.tlen o).toList
  match opOf w with
  | 0x20 | 0x27 => h (off12 w)
  | 0x21 => h (offX r w)
  | 0x28 => h (bits w.toNat 9 0)
  | 0x24 | 0x26 => t (off12 w)
  | 0x25 => t (offX r w)
  | 0x29 => (List.range (bits w.toNat 5 3 + 1)).flatMap (fun k => t ((r.reg (fB w)).toNat + k))
  | _ => []

/-! ## Fetch -/

/-- What a fetch at the PC of a run meets first: a fault of Table 7-5, or a legal instruction (08 R322). -/
def Cluster.fetch (c : Cluster) (r : Run) (hit : Bool) : Nat ⊕ Word24 :=
  let g := tabGet {} c.regions r.d.att.region
  let pc := r.pc.toNat
  let w := tabGet 0 c.prog pc
  if !(g.valid && g.pbase ≤ pc && pc < g.pbase + g.plen) then .inl 2
  else if hit || setHas c.progBad pc then .inl 8
  else if !legalWord w then .inl 1
  else if r.d.att.budget < r.steps + stepCost w then .inl 4
  else .inr w

/-- The run of an engine that steps: running, sequencing, in a cluster that is not halted, in RUN (15 R566). -/
def Blk.runOf (b : Blk) (c k : Nat) (halted : Bool) : Option Run :=
  if !b.awake || (setHas b.dbg.haltCl c && !halted) then none
  else match (tabGet {} (b.cl c).engines k).st with
    | .running r => if r.stuck then none else some r
    | _ => none

/-- An engine's state written. -/
def Cluster.setEngine (x : Cluster) (k : Nat) (f : Engine → Engine) : Cluster :=
  { x with engines := tabMod {} x.engines k f }
def Blk.setEngine (b : Blk) (c k : Nat) (f : Engine → Engine) : Blk := b.modCl c (fun x => x.setEngine k f)

/-- A fault: counted, captured and reported; the closing begins with the actions recorded (07 R303, R304). -/
def Blk.faultRun (b : Blk) (c k : Nat) (r : Run) (cause : Nat) : Blk :=
  let b := b.modCl c (fun x =>
    { x with regs := { x.regs with faultCnt := satInc x.regs.faultCnt,
                                   fcap := if x.regs.fcap.valid then x.regs.fcap
                                     else { engine := k, addr := r.pc, cause := cause, valid := true } } })
  let b := b.setEngine c k (fun e => { e with st := .closing { d := r.d, acts := r.acts } r.again })
  (b.raise 0x08).probe 14 r.d.stt r.d.domid r.d.dcls

/-- Points 6 and 7: a double-bit error in the data store word that the instruction reads, or in the word fetched
(14 R545, Table 14-1 codes 5 and 6). -/
def Blk.dataFault (b : Blk) (c : Nat) (r : Run) (w : Word24) : Blk :=
  match readAddrs r w with
  | a :: _ =>
    if b.injHit 6 c then
      ((b.injDone 6).modCl c (fun x => { x with dataBad := setAdd x.dataBad a })).uncorr 6 1 a
    else b
  | [] => b

/-- One instruction of a run: the row's opcode is fetched and executed, or the run faults at it (08 R320 to R322). No
event when the engine's next instruction is another, or its fetch faults. -/
def Blk.instr (b : Blk) (c k op : Nat) (f : Cluster → Run → Word24 → StepRes) (halted : Bool) : Blk :=
  match b.runOf c k halted with
  | none => b
  | some r =>
    let w := tabGet 0 (b.cl c).prog r.pc.toNat
    if opOf w ≠ op ∨ !legalWord w then b
    else match (b.cl c).fetch r (b.injHit 7 c) with
      | .inl 4 => b.faultRun c k r 4
      | .inl _ => b
      | .inr w =>
        let b := b.dataFault c r w
        let r' := { r with steps := r.steps + stepCost w }
        match f (b.cl c) r' w with
        | .fault cause => b.faultRun c k r' cause
        | .ends r'' => b.setEngine c k (fun e => { e with st := .closing { d := r''.d, acts := r''.acts } r''.again })
        | .go cl r'' => b.modCl c (fun _ => cl.setEngine k (fun e => { e with st := .running r'' }))

/-- PC after an instruction that does not branch, and after a branch taken (08 R320). -/
def Run.next (r : Run) : Run := { r with pc := r.pc + 1 }
def Run.branch (r : Run) (off : BitVec 13) : Run := { r with pc := r.pc + 1 + off }

/-- A fetch that meets REGION, UNCORR, ILLEGAL or BUDGET (08 R319, R322). -/
def Blk.fetchFault (b : Blk) (c k : Nat) (halted : Bool) : Blk :=
  match b.runOf c k halted with
  | none => b
  | some r =>
    let hit := b.injHit 7 c
    match (b.cl c).fetch r hit with
    | .inr _ => b
    | .inl cause =>
      let b := if hit && cause = 8 then
          ((b.injDone 7).modCl c (fun x => { x with progBad := setAdd x.progBad r.pc.toNat })).uncorr 5 1 r.pc.toNat
        else b
      b.faultRun c k r cause

/-! ## Starts -/

/-- An engine that is idle and in service. -/
def Cluster.idle (c : Cluster) (k : Nat) : Bool := (tabGet {} c.engines k).st = .idle && !setHas c.regs.offline k

/-- The engines that are idle and in service, in ascending order. -/
def Cluster.idles (c : Cluster) : List Nat := (List.range 16).filter c.idle

/-- Closings of runs that wait in the spill path (07 R294). -/
def Blk.spillClosings (b : Blk) : List Closing :=
  (b.rings.spillq ++ b.rings.spillw).filterMap (fun u => match u.kind with
    | .closing k => some k
    | _ => none)

/-- A cluster holds no record, no run and no closing. -/
def Cluster.quiet (c : Cluster) : Bool :=
  c.queue.isEmpty && c.rerun.isEmpty && c.forced.isEmpty && c.engines.all (fun x => x.2.st = .idle)

/-- Cluster `c` holds no record and has no run in flight, in the spill path either (07 R276, R294, R311). -/
def Blk.clusterQuiet (b : Blk) (c : Nat) : Bool := (b.cl c).quiet && b.spillClosings.all (fun k => k.d.clus ≠ c)

/-- Records whose runs are in flight in a cluster: started, waiting to be re-run, or closing. -/
def Cluster.flying (cl : Cluster) : List Dispatch :=
  cl.engines.filterMap (fun x => match x.2.st with
    | .idle => none
    | .running r => some r.d
    | .closing k _ => some k.d) ++ cl.rerun.map (·.2) ++ cl.forced.map (·.d)

/-- A run of the record's source is in flight, in whichever cluster it was dispatched to (03 R125, 07 R276). -/
def Blk.inFlight (b : Blk) (d : Dispatch) : Bool :=
  (b.cls.flatMap (fun x => x.2.flying) ++ b.spillClosings.map (·.d)).any (fun x => x.stt == d.stt && x.mapgen == d.mapgen)

/-- An earlier record of the record's source is queued, in whichever cluster: an attachment may have moved the source (03
R125). -/
def Blk.queuedBefore (b : Blk) (d : Dispatch) : Bool :=
  b.cls.any (fun x => x.2.queue.any (fun y => y.stt == d.stt && y.mapgen == d.mapgen && y.nth < d.nth))

/-- Records that may start: those of an ORD source wait for its run in flight and for its earlier records (07 R276). -/
def Blk.startable (b : Blk) (c : Nat) : List Dispatch :=
  (b.cl c).queue.filter (fun d => !(d.rank.ord && (b.inFlight d || b.queuedBefore d)))

/-- The record that starts next, and the round robin after it (07 R272, R273). -/
def Blk.nextStart (b : Blk) (c : Nat) : Option (Dispatch × Wrr) :=
  let cl := b.cl c
  let rs := b.startable c
  match rs.find? (fun d => d.dcls == 3) with
  | some d => some (d, cl.wrr)
  | none =>
    match rs.find? (fun d => d.dcls == 2) with
    | some d => some (d, cl.wrr)
    | none =>
      if cl.idles.length ≤ cl.regs.rsv then none
      else
        let w (d : Nat) : Nat := max 1 (b.dom d).sh.eweight
        match wrrNext cl.wrr w (setOf (rs.map (·.domid))) with
        | none => none
        | some (dm, wrr) => (rs.find? (fun d => d.domid == dm)).map (fun d => (d, wrr))

/-- A record starts on an engine (07 R271, R277). -/
def Blk.startOn (b : Blk) (c k : Nat) (d : Dispatch) (again : Bool) : Blk :=
  let stuck := b.injHit 19 c
  let b := if stuck then b.injDone 19 else b
  (b.setEngine c k (fun e => { e with st := .running (newRun d again stuck) })).probe 3 d.stt d.domid d.dcls

/-- A run starts: a record to be re-run first, on an engine other than the revoked one; else the next queued record,
on the lowest-numbered idle engine (07 R271 to R273, R306). -/
def Blk.runStart (b : Blk) (c : Nat) : Blk :=
  let cl := b.cl c
  if !b.awake || setHas b.dbg.haltCl c then b
  else match cl.rerun with
    | (rv, d) :: rest =>
      match cl.idles.find? (fun k => k ≠ rv) with
      | none => b
      | some k => (b.modCl c (fun x => { x with rerun := rest })).startOn c k d true
    | [] =>
      match cl.idles, b.nextStart c with
      | k :: _, some (d, w) => (b.modCl c (fun x => { x with queue := x.queue.erase d, wrr := w })).startOn c k d false
      | _, _ => b

/-! ## Closings -/

/-- A closing performed at input 5 of the entry's bank, or handed to the spill path; while the path has no place it keeps its
place, in the order of what waits. The answer: it has left (07 R281, R294; 04 R613). -/
def Blk.closingPerform (b : Blk) (m : List Host.Cell) (k : Closing) : Blk × Bool :=
  let u : Upd := { stt := k.d.stt, mapgen := k.d.mapgen, kind := .closing k }
  if !b.spilled u then
    match b.update5 m u false with
    | some b => (b, true)
    | none => (b, false)
  else if b.rings.spillw.contains u then (b, false)
  else
    let b := b.toSpill u
    (b, !b.rings.spillw.contains u)

/-- The closing of an engine's run takes effect and frees the engine; `k` of 16 or more serves the cluster's closings
made without a run (07 R281, R289, R308, R309). -/
def Blk.closing (b : Blk) (m : List Host.Cell) (c k : Nat) : Blk :=
  if !b.awake then b
  else if k < 16 then
    match (tabGet {} (b.cl c).engines k).st with
    | .closing cg _ =>
      let r := b.closingPerform m cg
      if r.2 then r.1.setEngine c k (fun _ => {}) else r.1
    | _ => b
  else match (b.cl c).forced with
    | [] => b
    | cg :: rest =>
      let r := b.closingPerform m cg
      if r.2 then r.1.modCl c (fun x => { x with forced := rest }) else r.1

/-! ## The watchdog -/

/-- A cluster whose last engine went out of service closes its records without running them (07 R309). -/
def Blk.clusterFail (b : Blk) (c : Nat) : Blk :=
  let cl := b.cl c
  if !cl.failed then b
  else (b.modCl c (fun x =>
    { x.forceAll (x.rerun.map (·.2) ++ x.queue) with rerun := [], queue := [] })).raise 0x08

/-- The watchdog of an engine expires: the engine is reset and its record runs again elsewhere, once; an engine that
expires twice goes out of service (07 R302, R304, R306 to R308). -/
def Blk.watchdog (b : Blk) (c k : Nat) : Blk :=
  match (tabGet {} (b.cl c).engines k).st with
  | .running r =>
    let twice := (tabGet {} (b.cl c).engines k).wd
    let b := (b.faultRun c k r 10).raise 0x09
    let b := b.setEngine c k (fun _ => { st := .idle, wd := !twice })
    let b := b.modCl c (fun x =>
      if r.again then x.forceAll [r.d]
      else { x with rerun := x.rerun ++ [(k, r.d)] })
    let b := if twice then
        b.modCl c (fun x => { x with regs := { x.regs with offline := setAdd x.regs.offline k } })
      else b
    if twice then b.clusterFail c else b
  | _ => b

/-- ENG.CLn_REVIVE: each engine named is reset and returns to service (07 R308). -/
def Blk.revive (b : Blk) (c : Nat) (mask : BitVec 16) : Blk :=
  (List.range 16).foldl (fun b k =>
    if mask.getLsbD k && setHas (b.cl c).regs.offline k then
      (b.setEngine c k (fun _ => {})).modCl c (fun x => { x with regs := { x.regs with offline := setDel x.regs.offline k } })
    else b) b

/-! ## Source timers -/

/-- An expiry requests input 5 of its owner's bank, or the spill path; one that cannot be performed waits in the Source Timer
Unit. While its domain is FREEZING or FROZEN it is recorded at once (07 R301; 04 R613; 11 R435). -/
def Blk.timerRequest (b : Blk) (m : List Host.Cell) (key : Nat) (time : Dword) : Blk :=
  let att := tabGet {} (b.cl (key / 1024)).att (key % 1024)
  let st := b.stt att.owner
  let u : Upd := { stt := att.owner, mapgen := st.mapgen, kind := .timer key time (b.dom st.domid).gen }
  let keep (b : Blk) : Blk := { b with tim := { b.tim with waiting := tabPut b.tim.waiting key time } }
  let done (b : Blk) : Blk := { b with tim := { b.tim with waiting := tabDel b.tim.waiting key } }
  if !st.valid then done b
  else if (b.dom st.domid).still then done (b.modDom st.domid (fun d => { d with expired := setAdd d.expired key }))
  else if st.res then
    match b.update5 m u false with
    | some b => done b
    | none => keep b
  else if b.rings.spillw.contains u then b
  else
    let b := b.toSpill u
    if b.rings.spillw.contains u then keep b else done b

/-- A timer expires, or an expiry taken before tries again. The expiry time is that of the timer (07 R297, R300, R301). -/
def Blk.timerExpiry (b : Blk) (m : List Host.Cell) (c a : Nat) : Blk :=
  let key := timerKey c a
  match b.tim.waiting.find? (fun x => x.1 == key) with
  | some (_, t) => b.timerRequest m key t
  | none =>
    match b.tim.armed.find? (fun x => x.1 == key) with
    | none => b
    | some (_, due) =>
      let late : Nat := b.tim.tick - due
      let b := { b with tim := { b.tim with armed := tabDel b.tim.armed key, tick := max b.tim.tick due } }
      b.timerRequest m key (if b.time.valid then b.time.tb - BitVec.ofNat 64 (1000 * late) else 0)

end Sys2Proof.Machine
end

