-- ==== Sys2Proof/Machine/Isa.lean ====
section
/-! DEFINITION. The instructions of the Clause Engines: what each opcode does to a run (08 R324 to R332). -/
namespace Sys2Proof.Machine
open Sys2Proof

/-! ## Arithmetic, logic and moves (08 Table 8-4) -/

/-- Operand RA of a word. -/
def Run.a (r : Run) (w : Word24) : Word24 := r.reg (fA w)
/-- Operand RB of a word. -/
def Run.b (r : Run) (w : Word24) : Word24 := r.reg (fB w)
/-- A result written to RD with flags, and the PC advanced. -/
def Run.put (r : Run) (w v : Word24) (f : Flags) : Run := (r.setBoth (fD w) v f).next
/-- A result whose flags are ZN with C and V cleared. -/
def Run.putZN (r : Run) (w v : Word24) : Run := r.put w v (flagsOf v false false)

def opMov (r : Run) (w : Word24) : Run := r.put w (r.a w) r.f
def opLdi (r : Run) (w : Word24) : Run := r.put w (simm14 w) r.f
def opLuh (r : Run) (w : Word24) : Run := r.put w ((imm10 w <<< 14) ||| (r.reg (fD w) &&& 0x3FFF)) r.f
def opAdd (r : Run) (w : Word24) : Run := r.put w (r.a w + r.b w) (flagsAdd (r.a w) (r.b w))
def opSub (r : Run) (w : Word24) : Run := r.put w (r.a w - r.b w) (flagsSub (r.a w) (r.b w))
def opAddi (r : Run) (w : Word24) : Run := r.put w (r.a w + simm10 w) (flagsAdd (r.a w) (simm10 w))
def opCmp (r : Run) (w : Word24) : Run := { r with f := flagsSub (r.a w) (r.b w) }.next
def opCmpi (r : Run) (w : Word24) : Run := { r with f := flagsSub (r.a w) (simm10 w) }.next
def opAnd (r : Run) (w : Word24) : Run := r.putZN w (r.a w &&& r.b w)
def opOr (r : Run) (w : Word24) : Run := r.putZN w (r.a w ||| r.b w)
def opXor (r : Run) (w : Word24) : Run := r.putZN w (r.a w ^^^ r.b w)
def opAndi (r : Run) (w : Word24) : Run := r.putZN w (r.a w &&& imm10 w)
def opOri (r : Run) (w : Word24) : Run := r.putZN w (r.a w ||| imm10 w)

/-- Shift amount n, bits [4:0]. -/
def shN (w : Word24) : Nat := bits w.toNat 4 0
def opShl (r : Run) (w : Word24) : Run := r.put w (r.a w <<< shN w) (flagsShl (r.a w) (shN w))
def opShr (r : Run) (w : Word24) : Run := r.put w (r.a w >>> shN w) (flagsShr (r.a w) (r.a w >>> shN w) (shN w))
def opSar (r : Run) (w : Word24) : Run :=
  r.put w ((r.a w).sshiftRight (shN w)) (flagsShr (r.a w) ((r.a w).sshiftRight (shN w)) (shN w))

/-- MULU: C when the product exceeds 0xFF_FFFF. -/
def opMulu (r : Run) (w : Word24) : Run :=
  r.put w (r.a w * r.b w) (flagsOf (r.a w * r.b w) (2 ^ 24 ≤ (r.a w).toNat * (r.b w).toNat) false)
/-- MULS: V when the product lies outside the signed range. -/
def opMuls (r : Run) (w : Word24) : Run :=
  let p := (r.a w).toInt * (r.b w).toInt
  r.put w (r.a w * r.b w) (flagsOf (r.a w * r.b w) false (p < -8388608 || 8388607 < p))
/-- DIVU: ARITH for a divisor of 0. -/
def opDivu (c : Cluster) (r : Run) (w : Word24) : StepRes :=
  if r.b w = 0 then .fault 9 else .go c (r.putZN w (r.a w / r.b w))
/-- ABS: 0x80_0000 gives itself with V. -/
def opAbs (r : Run) (w : Word24) : Run :=
  let v := if neg24 (r.a w) then -(r.a w) else r.a w
  r.put w v (flagsOf v false (r.a w == 0x800000))
def opMins (r : Run) (w : Word24) : Run := r.putZN w (if (r.a w).toInt ≤ (r.b w).toInt then r.a w else r.b w)
def opMaxs (r : Run) (w : Word24) : Run := r.putZN w (if (r.a w).toInt ≤ (r.b w).toInt then r.b w else r.a w)
def opMinu (r : Run) (w : Word24) : Run := r.putZN w (if r.a w ≤ r.b w then r.a w else r.b w)
def opMaxu (r : Run) (w : Word24) : Run := r.putZN w (if r.a w ≤ r.b w then r.b w else r.a w)
/-- EXTU: p in [9:5], w - 1 in [4:0]. -/
def opExtu (r : Run) (w : Word24) : Run :=
  r.putZN w ((r.a w >>> bits w.toNat 9 5) &&& BitVec.ofNat 24 (2 ^ (bits w.toNat 4 0 + 1) - 1))

/-! ## Data store access (08 Table 8-5) -/

/-- A loaded value in RD: ZN, with C and V unchanged. -/
def Run.load (r : Run) (w v : Word24) : Run := r.put w v (flagsZN r.f v)

def opLdh (c : Cluster) (r : Run) (w : Word24) : StepRes := withHist c r (off12 w) (fun _ v => .go c (r.load w v))
def opLdhx (c : Cluster) (r : Run) (w : Word24) : StepRes := withHist c r (offX r w) (fun _ v => .go c (r.load w v))
def opLdt (c : Cluster) (r : Run) (w : Word24) : StepRes := withTable c r (off12 w) (fun v => .go c (r.load w v))
def opLdtx (c : Cluster) (r : Run) (w : Word24) : StepRes := withTable c r (offX r w) (fun v => .go c (r.load w v))

/-- A store of RD to the history window. -/
def storeHist (c : Cluster) (r : Run) (w : Word24) (off : Nat) : StepRes :=
  match inWindow r.d.att.hbase r.d.att.hlen off with
  | none => .fault 3
  | some a => .go (c.dataPut a (r.reg (fD w))) r.next
def opSth (c : Cluster) (r : Run) (w : Word24) : StepRes := storeHist c r w (off12 w)
def opSthx (c : Cluster) (r : Run) (w : Word24) : StepRes := storeHist c r w (offX r w)

/-- CMPT: RA in [17:14]. -/
def opCmpt (c : Cluster) (r : Run) (w : Word24) : StepRes :=
  withTable c r (off12 w) (fun v => .go c { r with f := flagsSub (r.reg (fD w)) v }.next)
def opXchh (c : Cluster) (r : Run) (w : Word24) : StepRes :=
  withHist c r (off12 w) (fun a v => .go (c.dataPut a (r.reg (fD w))) (r.load w v))
def opAddh (c : Cluster) (r : Run) (w : Word24) : StepRes :=
  withHist c r (bits w.toNat 9 0) (fun a v => .go (c.dataPut a (v + r.a w)) (r.put w v (flagsAdd v (r.a w))))

/-- Table window offsets that BAND reads, the unbounded sums rb + k (08 R325). -/
def bandOffs (r : Run) (w : Word24) : List Nat := (List.range (bits w.toNat 5 3 + 1)).map (fun k => (r.b w).toNat + k)
/-- BAND: WINDOW when any offset lies outside the table window, then UNCORR when any word is poisoned, in the order of
Table 8-5 (08 R322, R325); else the count of the words that do not exceed RA, signed. -/
def opBand (c : Cluster) (r : Run) (w : Word24) : StepRes :=
  let as := (bandOffs r w).map (fun o => r.d.att.tbase + o)
  if (bandOffs r w).any (fun o => r.d.att.tlen ≤ o) then .fault 3
  else if as.any (setHas c.dataBad) then .fault 8
  else .go c (r.putZN w (BitVec.ofNat 24 (as.countP (fun a => (tabGet 0 c.data a).toInt ≤ (r.a w).toInt))))

/-! ## Branches (08 Table 8-6) -/

def opB (r : Run) (w : Word24) : Run :=
  if condHolds (fD w) r.f then r.branch ((w.extractLsb' 0 14).setWidth 13) else r.next
/-- Bit BIT of RA, which stands in [17:14]. -/
def bitOf (r : Run) (w : Word24) : Bool := (r.reg (fD w)).getLsbD (bits w.toNat 13 9)
def off9 (w : Word24) : BitVec 13 := (w.extractLsb' 0 9).signExtend 13
def opBbs (r : Run) (w : Word24) : Run := if bitOf r w then r.branch (off9 w) else r.next
def opBbc (r : Run) (w : Word24) : Run := if bitOf r w then r.next else r.branch (off9 w)

/-! ## Actions (08 Table 8-7) -/

/-- A result action recorded: RESULT when one stands already; with E = 1 the run ends (07 R288, 08 R332). -/
def record (c : Cluster) (r : Run) (w : Word24) (x : ResultAct) : StepRes :=
  if r.acts.result.isSome then .fault 5
  else
    let r := { r with acts := { r.acts with result := some x } }
    if w.getLsbD 17 then .ends r else .go c r.next

/-- Names of class, priority and target in a word (08 R330). -/
def namesOf (r : Run) (w : Word24) : RankNames :=
  { cls := if w.getLsbD 16 then some (w.extractLsb' 12 2) else none,
    prio := if w.getLsbD 15 then some (w.extractLsb' 4 8) else none,
    tgt := if w.getLsbD 14 then some ((r.reg (bits w.toNat 3 0)).extractLsb' 0 10) else none }

def opEmit (c : Cluster) (r : Run) (w : Word24) : StepRes := record c r w (.emit (namesOf r w))
/-- EMITR: class from RA[1:0], priority from RA[9:2], RA in [7:4]. -/
def opEmitr (c : Cluster) (r : Run) (w : Word24) : StepRes :=
  let a := r.reg (bits w.toNat 7 4)
  record c r w (.emit { cls := some (a.extractLsb' 0 2), prio := some (a.extractLsb' 2 8), tgt := (namesOf r w).tgt })
def opCoalesce (c : Cluster) (r : Run) (w : Word24) : StepRes := record c r w (.coalesce (namesOf r w))
def opSuppress (c : Cluster) (r : Run) (w : Word24) : StepRes := record c r w .suppress
/-- LOG: N words from RA on, numbered modulo 16. -/
def opLog (c : Cluster) (r : Run) (w : Word24) : StepRes :=
  if 4 ≤ r.acts.logs.length then .fault 6
  else
    let l : LogAct := { code := w.extractLsb' 8 8,
                        words := (List.range (bits w.toNat 17 16)).map (fun k => r.reg ((bits w.toNat 7 4 + k) % 16)) }
    .go c { r with acts := { r.acts with logs := r.acts.logs ++ [l] } }.next
/-- TIMER: RA in [17:14]. -/
def opTimer (c : Cluster) (r : Run) (w : Word24) : StepRes :=
  if !r.d.att.ten then .fault 7 else .go c { r with acts := { r.acts with timer := some (r.reg (fD w)) } }.next
def opEnd (_ : Cluster) (r : Run) (_ : Word24) : StepRes := .ends r

/-- What the instruction with opcode `op` does (08 Tables 8-4 to 8-7); an opcode not listed faults ILLEGAL. -/
def opStep (op : Nat) : Cluster → Run → Word24 → StepRes :=
  match op with
  | 0x01 => ofRun opMov | 0x02 => ofRun opLdi | 0x03 => ofRun opLuh | 0x04 => ofRun opAdd | 0x05 => ofRun opSub
  | 0x06 => ofRun opAddi | 0x07 => ofRun opCmp | 0x08 => ofRun opCmpi | 0x09 => ofRun opAnd | 0x0A => ofRun opOr
  | 0x0B => ofRun opXor | 0x0C => ofRun opAndi | 0x0D => ofRun opOri | 0x0E => ofRun opShl | 0x0F => ofRun opShr
  | 0x10 => ofRun opSar | 0x11 => ofRun opMulu | 0x12 => ofRun opMuls | 0x13 => opDivu | 0x14 => ofRun opAbs
  | 0x15 => ofRun opMins | 0x16 => ofRun opMaxs | 0x17 => ofRun opMinu | 0x18 => ofRun opMaxu | 0x19 => ofRun opExtu
  | 0x20 => opLdh | 0x21 => opLdhx | 0x22 => opSth | 0x23 => opSthx | 0x24 => opLdt | 0x25 => opLdtx | 0x26 => opCmpt
  | 0x27 => opXchh | 0x28 => opAddh | 0x29 => opBand | 0x30 => ofRun opB | 0x31 => ofRun opBbs | 0x32 => ofRun opBbc
  | 0x38 => opEmit | 0x39 => opEmitr | 0x3A => opCoalesce | 0x3B => opSuppress | 0x3C => opLog | 0x3D => opTimer
  | 0x3E => opEnd
  | _ => fun _ _ _ => .fault 1

/-- The instruction at the PC of an engine is executed, if it is the one with opcode `op`. -/
def Blk.isa (b : Blk) (c k op : Nat) : Blk := b.instr c k op (opStep op) false

/-! ## The rows -/

/-- MOV (08 R324). -/
def execClMov (cluster engine : Nat) (s : State) : Host.Outcome State Fault Refusal :=
  s.onBlk (fun b => b.isa cluster engine 0x01)
/-- LDI (08 R324). -/
def execClLdi (cluster engine : Nat) (s : State) : Host.Outcome State Fault Refusal :=
  s.onBlk (fun b => b.isa cluster engine 0x02)
/-- LUH (08 R324). -/
def execClLuh (cluster engine : Nat) (s : State) : Host.Outcome State Fault Refusal :=
  s.onBlk (fun b => b.isa cluster engine 0x03)
/-- ADD (08 R324). -/
def execClAdd (cluster engine : Nat) (s : State) : Host.Outcome State Fault Refusal :=
  s.onBlk (fun b => b.isa cluster engine 0x04)
/-- SUB (08 R324). -/
def execClSub (cluster engine : Nat) (s : State) : Host.Outcome State Fault Refusal :=
  s.onBlk (fun b => b.isa cluster engine 0x05)
/-- ADDI (08 R324). -/
def execClAddi (cluster engine : Nat) (s : State) : Host.Outcome State Fault Refusal :=
  s.onBlk (fun b => b.isa cluster engine 0x06)
/-- CMP (08 R324). -/
def execClCmp (cluster engine : Nat) (s : State) : Host.Outcome State Fault Refusal :=
  s.onBlk (fun b => b.isa cluster engine 0x07)
/-- CMPI (08 R324). -/
def execClCmpi (cluster engine : Nat) (s : State) : Host.Outcome State Fault Refusal :=
  s.onBlk (fun b => b.isa cluster engine 0x08)
/-- AND (08 R324). -/
def execClAnd (cluster engine : Nat) (s : State) : Host.Outcome State Fault Refusal :=
  s.onBlk (fun b => b.isa cluster engine 0x09)
/-- OR (08 R324). -/
def execClOr (cluster engine : Nat) (s : State) : Host.Outcome State Fault Refusal :=
  s.onBlk (fun b => b.isa cluster engine 0x0A)
/-- XOR (08 R324). -/
def execClXor (cluster engine : Nat) (s : State) : Host.Outcome State Fault Refusal :=
  s.onBlk (fun b => b.isa cluster engine 0x0B)
/-- ANDI (08 R324). -/
def execClAndi (cluster engine : Nat) (s : State) : Host.Outcome State Fault Refusal :=
  s.onBlk (fun b => b.isa cluster engine 0x0C)
/-- ORI (08 R324). -/
def execClOri (cluster engine : Nat) (s : State) : Host.Outcome State Fault Refusal :=
  s.onBlk (fun b => b.isa cluster engine 0x0D)
/-- SHL (08 R324). -/
def execClShl (cluster engine : Nat) (s : State) : Host.Outcome State Fault Refusal :=
  s.onBlk (fun b => b.isa cluster engine 0x0E)
/-- SHR (08 R324). -/
def execClShr (cluster engine : Nat) (s : State) : Host.Outcome State Fault Refusal :=
  s.onBlk (fun b => b.isa cluster engine 0x0F)
/-- SAR (08 R324). -/
def execClSar (cluster engine : Nat) (s : State) : Host.Outcome State Fault Refusal :=
  s.onBlk (fun b => b.isa cluster engine 0x10)
/-- MULU (08 R324). -/
def execClMulu (cluster engine : Nat) (s : State) : Host.Outcome State Fault Refusal :=
  s.onBlk (fun b => b.isa cluster engine 0x11)
/-- MULS (08 R324). -/
def execClMuls (cluster engine : Nat) (s : State) : Host.Outcome State Fault Refusal :=
  s.onBlk (fun b => b.isa cluster engine 0x12)
/-- DIVU (08 R324). -/
def execClDivu (cluster engine : Nat) (s : State) : Host.Outcome State Fault Refusal :=
  s.onBlk (fun b => b.isa cluster engine 0x13)
/-- ABS (08 R324). -/
def execClAbs (cluster engine : Nat) (s : State) : Host.Outcome State Fault Refusal :=
  s.onBlk (fun b => b.isa cluster engine 0x14)
/-- MINS (08 R324). -/
def execClMins (cluster engine : Nat) (s : State) : Host.Outcome State Fault Refusal :=
  s.onBlk (fun b => b.isa cluster engine 0x15)
/-- MAXS (08 R324). -/
def execClMaxs (cluster engine : Nat) (s : State) : Host.Outcome State Fault Refusal :=
  s.onBlk (fun b => b.isa cluster engine 0x16)
/-- MINU (08 R324). -/
def execClMinu (cluster engine : Nat) (s : State) : Host.Outcome State Fault Refusal :=
  s.onBlk (fun b => b.isa cluster engine 0x17)
/-- MAXU (08 R324). -/
def execClMaxu (cluster engine : Nat) (s : State) : Host.Outcome State Fault Refusal :=
  s.onBlk (fun b => b.isa cluster engine 0x18)
/-- EXTU (08 R324). -/
def execClExtu (cluster engine : Nat) (s : State) : Host.Outcome State Fault Refusal :=
  s.onBlk (fun b => b.isa cluster engine 0x19)
/-- LDH (08 R326). -/
def execClLdh (cluster engine : Nat) (s : State) : Host.Outcome State Fault Refusal :=
  s.onBlk (fun b => b.isa cluster engine 0x20)
/-- LDHX (08 R326). -/
def execClLdhx (cluster engine : Nat) (s : State) : Host.Outcome State Fault Refusal :=
  s.onBlk (fun b => b.isa cluster engine 0x21)
/-- STH (08 R326). -/
def execClSth (cluster engine : Nat) (s : State) : Host.Outcome State Fault Refusal :=
  s.onBlk (fun b => b.isa cluster engine 0x22)
/-- STHX (08 R326). -/
def execClSthx (cluster engine : Nat) (s : State) : Host.Outcome State Fault Refusal :=
  s.onBlk (fun b => b.isa cluster engine 0x23)
/-- LDT (08 R326). -/
def execClLdt (cluster engine : Nat) (s : State) : Host.Outcome State Fault Refusal :=
  s.onBlk (fun b => b.isa cluster engine 0x24)
/-- LDTX (08 R326). -/
def execClLdtx (cluster engine : Nat) (s : State) : Host.Outcome State Fault Refusal :=
  s.onBlk (fun b => b.isa cluster engine 0x25)
/-- CMPT (08 R326). -/
def execClCmpt (cluster engine : Nat) (s : State) : Host.Outcome State Fault Refusal :=
  s.onBlk (fun b => b.isa cluster engine 0x26)
/-- XCHH (08 R326). -/
def execClXchh (cluster engine : Nat) (s : State) : Host.Outcome State Fault Refusal :=
  s.onBlk (fun b => b.isa cluster engine 0x27)
/-- ADDH (08 R326). -/
def execClAddh (cluster engine : Nat) (s : State) : Host.Outcome State Fault Refusal :=
  s.onBlk (fun b => b.isa cluster engine 0x28)
/-- BAND (08 R326). -/
def execClBand (cluster engine : Nat) (s : State) : Host.Outcome State Fault Refusal :=
  s.onBlk (fun b => b.isa cluster engine 0x29)
/-- B (08 R328). -/
def execClB (cluster engine : Nat) (s : State) : Host.Outcome State Fault Refusal :=
  s.onBlk (fun b => b.isa cluster engine 0x30)
/-- BBS (08 R328). -/
def execClBbs (cluster engine : Nat) (s : State) : Host.Outcome State Fault Refusal :=
  s.onBlk (fun b => b.isa cluster engine 0x31)
/-- BBC (08 R328). -/
def execClBbc (cluster engine : Nat) (s : State) : Host.Outcome State Fault Refusal :=
  s.onBlk (fun b => b.isa cluster engine 0x32)
/-- EMIT (08 R329). -/
def execClEmit (cluster engine : Nat) (s : State) : Host.Outcome State Fault Refusal :=
  s.onBlk (fun b => b.isa cluster engine 0x38)
/-- EMITR (08 R329). -/
def execClEmitr (cluster engine : Nat) (s : State) : Host.Outcome State Fault Refusal :=
  s.onBlk (fun b => b.isa cluster engine 0x39)
/-- COALESCE (08 R329). -/
def execClCoalesce (cluster engine : Nat) (s : State) : Host.Outcome State Fault Refusal :=
  s.onBlk (fun b => b.isa cluster engine 0x3A)
/-- SUPPRESS (08 R329). -/
def execClSuppress (cluster engine : Nat) (s : State) : Host.Outcome State Fault Refusal :=
  s.onBlk (fun b => b.isa cluster engine 0x3B)
/-- LOG (08 R329). -/
def execClLog (cluster engine : Nat) (s : State) : Host.Outcome State Fault Refusal :=
  s.onBlk (fun b => b.isa cluster engine 0x3C)
/-- TIMER (08 R329). -/
def execClTimer (cluster engine : Nat) (s : State) : Host.Outcome State Fault Refusal :=
  s.onBlk (fun b => b.isa cluster engine 0x3D)
/-- END (08 R329, R332). -/
def execClEnd (cluster engine : Nat) (s : State) : Host.Outcome State Fault Refusal :=
  s.onBlk (fun b => b.isa cluster engine 0x3E)

end Sys2Proof.Machine
end

