-- ==== Sys2Proof/Machine/Admission.lean ====
section
/-! DEFINITION. The admission check, R352, evaluated on a block that holds the resulting configuration (09 R340 to R361).
Times are in ticks of 1/6 ns. -/
namespace Sys2Proof.Machine
open Sys2Proof

/-! ## Sources of the configuration -/

/-- A mapped source: its STT index and entry. -/
abbrev MSrc := Nat × Stt

/-- The mapped sources, in ascending index. -/
def Blk.mapped (b : Blk) : List MSrc := (b.sram.stt.map (fun x => (x.1, b.stt x.1))).filter (fun x => x.2.valid)

/-- Message and wired kinds (09 R342). -/
def SrcKind.isMsg (k : SrcKind) : Bool := k = .msi || k = .data
def SrcKind.isWired (k : SrcKind) : Bool := k = .edge || k = .level

/-- The admitted sources: live class CRITICAL or FIRM (09 R340). -/
def Blk.adm (b : Blk) : List MSrc := b.mapped.filter (fun x => 2#2 ≤ x.2.rank.cls && x.2.kind ≠ .internal)

/-- Admitted classes are live (09 R340). -/
def Blk.classesLive (b : Blk) : Bool := !b.adm.isEmpty

/-- The bank of a resident source (04 R153). -/
def MSrc.bank (x : MSrc) : Nat := x.2.slot % 16

/-- res(b): the mapped resident sources of a bank, internal sources excluded. -/
def Blk.resOf (b : Blk) (bank : Nat) : List MSrc :=
  b.mapped.filter (fun x => x.2.res && x.2.kind ≠ .internal && MSrc.bank x == bank)

/-- The ingress lane of a source, numbered as RNUM of R354. -/
inductive LaneName where
  | lane (n : Nat)
  | unknown
  | none
  deriving DecidableEq, Repr

/-- lane(x) (09 R343, R352). -/
def Blk.laneName (b : Blk) (x : MSrc) : LaneName :=
  match x.2.kind with
  | .edge | .level => .lane (12 + x.1 / 128)
  | .msi | .data =>
    let g := tabGet 0 b.sram.igrp x.2.env.env
    if x.2.env.envv && g < 12 then .lane g else .unknown
  | .core => .none
  | .internal => .lane 24

/-- The route entry of a source, when it has a route (05 R181). -/
def Blk.routeOf (b : Blk) (x : MSrc) : Option Route :=
  if x.2.kind = .core then some { valid := true, domid := x.2.domid, kind := 0, target := x.1 - (b.dom x.2.domid).sh.cmbase }
  else if !x.2.route.rv then none
  else
    let r := b.liveRt.route x.2.route.ridx
    if r.valid then some r else none

/-- Physical contexts of the route members that run on a context whose link is UP. -/
def Blk.ctxsOf (b : Blk) (x : MSrc) : NSet :=
  match b.routeOf x with
  | none => []
  | some r => setOf ((b.liveRt.members r).filterMap (fun v => match b.memberClass x.2.domid v with
      | .eligible p => some p
      | _ => none))

/-- links(x). -/
def Blk.linksOf (b : Blk) (x : MSrc) : NSet := setOf ((b.ctxsOf x).map (· / 64))

/-- The clause attachment of a source (07 R265). -/
def Blk.attachOf (b : Blk) (x : MSrc) : Option Attach :=
  if x.2.clause.cv then some (tabGet {} (b.cl x.2.clause.clus).att x.2.clause.aidx) else none

/-- Run length of an attachment, BUDGET + 8. -/
def Attach.runLen (a : Attach) : Nat := a.budget + 8

/-- The envelope a source names. -/
def Blk.envOf (b : Blk) (x : MSrc) : Envelope := b.env x.2.env.env

/-! ## Charges (09 R348, R349, R352) -/

/-- count(x, W). -/
def Blk.count (b : Blk) (x : MSrc) (w : Nat) : Nat := (b.envOf x).b + w / (6 * (b.envOf x).p)

/-- count(INT(b), W). -/
def countInt (w : Nat) : Nat := 1 + w / 6000000

/-- Whether a bank's internal aggregate is routed (09 R349). -/
def Blk.intRouted (b : Blk) (bank : Nat) : Bool :=
  b.mapped.any (fun x => x.2.kind = .internal && x.2.res && MSrc.bank x == bank && (b.routeOf x).isSome)

/-- k(INT(b)). -/
def Blk.kInt (b : Blk) (bank : Nat) : Nat := if b.intRouted bank then 3 else 0

/-- k(x): notices per arrival. -/
def Blk.kOf (b : Blk) (x : MSrc) : Nat :=
  match b.routeOf x with
  | none => 0
  | some r => if r.kind = 3 then 2 + (b.linksOf x).length else 3

/-- runs(x, W). -/
def Blk.runsOf (b : Blk) (x : MSrc) (w : Nat) : Nat :=
  match b.attachOf x with
  | none => 0
  | some a => b.count x w + (if a.ten then 1 + w / (6000 * a.tmin) else 0)

/-- Lanes that a source of a bank may use at input 6. -/
def Blk.lanesOf (b : Blk) (x : MSrc) : List Nat :=
  match b.laneName x with
  | .lane n => [n]
  | .unknown => List.range 12
  | .none => []

/-- a6(b, own): other input-6 requesters. -/
def Blk.a6 (b : Blk) (bank : Nat) (own : LaneName) : Nat :=
  let s := setOf (24 :: (b.resOf bank).flatMap b.lanesOf)
  let s := match own with
    | .lane n => setDel s n
    | _ => s
  min 24 s.length

/-- n7(b, excl, W): input-7 operations. -/
def Blk.n7 (b : Blk) (bank : Nat) (excl : Option Nat) (w : Nat) : Nat :=
  b.kInt bank * countInt w +
  (((b.resOf bank).filter (fun x => some x.1 ≠ excl)).map (fun x => b.kOf x * b.count x w)).sum

/-- w6(b, own, W). -/
def Blk.w6 (b : Blk) (bank : Nat) (own : LaneName) (w : Nat) : Nat := 12 * b.a6 bank own + 24 * b.n7 bank none w

/-- Mapped lines of a wired group. -/
def Blk.linesOf (b : Blk) (g : Nat) : Nat := (b.mapped.filter (fun x => x.2.kind.isWired && x.1 / 128 == g)).length

/-- hol(s, W): MIP and ingress lane. -/
def Blk.hol (b : Blk) (s : MSrc) (w : Nat) : Nat :=
  let own := b.laneName s
  let msg := s.2.kind.isMsg
  let ahead := if msg then b.count s w - 1 else 0
  let cap := if msg then 31 else b.linesOf (s.1 / 128) - 1
  let others := b.mapped.filter (fun y => y.2.res && y.1 ≠ s.1 && y.2.kind ≠ .internal && b.laneName y == own)
  let worst := if 0 < ahead then b.w6 (MSrc.bank s) own w else 0
  let worst := others.foldl (fun m y => max m (b.w6 (MSrc.bank y) own w)) worst
  min (ahead + (others.map (fun y => b.count y w)).sum) cap * worst

/-- Every VALID attachment of a cluster: the longest run length. -/
def Blk.longestRun (b : Blk) (c : Nat) : Nat :=
  ((b.cl c).att.filter (fun a => a.2.valid)).foldl (fun m a => max m a.2.runLen) 0

/-- cluster_wait(s, W); none: CLUSTER_LOAD. -/
def Blk.clusterWait (b : Blk) (s : MSrc) (a : Attach) (w : Nat) : Option Nat :=
  let c := s.2.clause.clus
  let others := b.mapped.filter (fun x => x.1 ≠ s.1 && x.2.clause.cv && x.2.clause.clus == c && s.2.rank.cls ≤ x.2.rank.cls)
  let n := b.runsOf s w - 1 + (others.map (fun x => b.runsOf x w)).sum
  if 16 < n + 1 then none
  else
    let past := n + 1 - (b.cl c).regs.rsv
    let t := if 0 < past then 2 * b.longestRun c * ceilDiv past 16 else 0
    some (t + (if s.2.rank.ord then 2 * a.runLen * (b.runsOf s w - 1) else 0))

/-! ## Slot tables -/

/-- The longest spacing of reserved slots, counted cyclically; 64 for a table without any (06 R215, 09 R352). -/
def slotSpacing (t : Dword) : Nat :=
  let rs := (List.range 64).filter (fun k => t.getLsbD k)
  match rs with
  | [] => 64
  | f :: _ => ((rs.zip (rs.drop 1 ++ [f + 64])).map (fun x => x.2 - x.1)).foldl max 0

/-- R215: no 8 consecutive slots without a reserved one. -/
def slotTableOk (t : Dword) : Bool := (List.range 64).any (fun k => t.getLsbD k) && slotSpacing t ≤ 8

/-- Reserved slots of a table. -/
def reservedSlots (t : Dword) : Nat := ((List.range 64).filter (fun k => t.getLsbD k)).length

/-- slot(s, W) and the worst link, the first of equals. -/
def Blk.slotWait (b : Blk) (s : MSrc) (w : Nat) : Nat × Nat :=
  let crit : Bool := s.2.rank.cls = 3
  (b.linksOf s).foldl (fun m l =>
    let xs := b.adm.filter (fun x => x.1 ≠ s.1 && setHas (b.linksOf x) l && (!crit || x.2.rank.cls == 3))
    let n := (xs.map (fun x => b.count x w)).sum
    let t := if crit then 4 * slotSpacing (b.link l).live * (n + 1) else 4 * (684 + n)
    if m.1 < t then (t, l) else m) (0, 0)

/-! ## The bound -/

/-- A refusal report (09 R355). -/
def refusal (code rkind rnum : Nat) (src : Nat := 0x7FFFF) (bnd lim : Nat := 0) : Report :=
  { code := code, rkind := rkind, rnum := rnum, src := src, bound := bnd, limit := lim }

/-- Period of HCLK at an operating point in ticks (09 R346). -/
def opTicks (op : BitVec 2) : Nat := if op = 0 then 2 else if op = 1 then 3 else 6

/-- Kind and number of the largest of the contention terms, the first of equals (09 R352, R354). -/
def largestTerm (ts : List (Nat × Nat × Nat)) : Nat × Nat × Nat :=
  ts.foldl (fun m t => if m.1 < t.1 then t else m) (ts.headD (0, 0, 0))

/-- Terms of the bound that a clause attachment adds: 2 L(s), the cluster wait, and the closing at the bank. -/
def Blk.clauseTerms (b : Blk) (s : MSrc) (w : Nat) : Option (Nat × Nat × Nat) :=
  match b.attachOf s with
  | none => some (0, 0, 0)
  | some a => match b.clusterWait s a w with
    | none => none
    | some t =>
      let bank := MSrc.bank s
      let others := (b.resOf bank).filter (fun x => x.1 ≠ s.1)
      let n6 := countInt w + b.count s w - 1 + ((others.filter (fun x => b.laneName x ≠ .none)).map (fun x => b.count x w)).sum
      let n5 := (others.map (fun x => b.runsOf x w)).sum
      some (2 * a.runLen, t, 12 * (n6 + 2 * n5 + 1) + 24 * b.n7 bank (some s.1) w)

/-- bound(s) in ticks, with the resource of its largest contention term; none: CLUSTER_LOAD. -/
def Blk.bound (b : Blk) (s : MSrc) : Option (Nat × Nat × Nat) :=
  let dl := (b.envOf s).dl
  let w := 12 * dl
  let bank := MSrc.bank s
  let lane := b.laneName s
  let ing := if s.2.kind.isWired then 16 + b.linesOf (s.1 / 128) - 1 else 18
  let tLane := b.hol s w
  match b.clauseTerms s w with
  | none => none
  | some (run, tClu, extra) =>
    let tBank := 12 * b.a6 bank lane + 24 * b.n7 bank (some s.1) w + extra
    let link := b.slotWait s w
    let c := opTicks b.clk.floor
    let t := c * (ing + tLane + tBank + 12 + run + tClu + 15 + link.1 + 72)
    let t := if b.clk.floor = 0 then t else t + c * 4 * (1 + dl / 6400)
    let laneNo := match lane with
      | .lane n => n
      | _ => 0
    let r := largestTerm [(tLane, 1, laneNo), (tBank, 2, bank), (tClu, 3, s.2.clause.clus), (link.1, 4, link.2)]
    some (t, r.2.1, r.2.2)

/-! ## checkAdmission() -/

/-- DL in the range of Table 9-1 for the class. -/
def dlInRange (cls : BitVec 2) (dl : Nat) : Bool :=
  if cls = 3 then 90 ≤ dl && dl ≤ 2000 else 2000 ≤ dl && dl ≤ 1000000

/-- Structural checks of Table 9-4, codes 1 to 6, on one admitted source. -/
def Blk.structural (b : Blk) (s : MSrc) : Option Report :=
  if s.2.env.envv && !dlInRange s.2.rank.cls (b.envOf s).dl then some (refusal 1 6 s.2.env.env s.1)
  else if !s.2.env.envv then some (refusal 2 0 0 s.1)
  else if !s.2.res then some (refusal 3 0 0 s.1)
  else if s.2.rank.cls = 3 && (match b.attachOf s with
      | some a => 40 < a.budget
      | none => false) then some (refusal 4 3 s.2.clause.clus s.1)
  else if (match b.routeOf s with
      | some r => r.kind == 3
      | none => true) || (b.ctxsOf s).isEmpty then some (refusal 5 0 0 s.1)
  else if s.2.kind.isMsg && tabGet 0 b.sram.igrp s.2.env.env = 15 then some (refusal 6 6 s.2.env.env s.1)
  else none

/-- The admitted banks (09 R350). -/
def Blk.admBanks (b : Blk) : NSet :=
  let lanes := b.adm.map b.laneName
  setOf (b.adm.map MSrc.bank ++
    ((b.mapped.filter (fun x => x.2.res && x.2.kind ≠ .internal && lanes.contains (b.laneName x))).map MSrc.bank))

/-- UNBOUNDED: a charged source without an envelope. -/
def Blk.unbounded (b : Blk) : Option Report :=
  let banks := b.admBanks
  (b.mapped.find? (fun x => x.2.res && x.2.kind ≠ .internal && setHas banks (MSrc.bank x) && !x.2.env.envv)).map
    (fun x => refusal 7 2 (MSrc.bank x) x.1)

/-- SLOT_GAP and LINK_LOAD of one link. -/
def Blk.linkCheck (b : Blk) (l : Nat) : Option Report :=
  let xs := b.adm.filter (fun x => x.2.rank.cls == 3 && setHas (b.linksOf x) l)
  let c := opTicks b.clk.floor
  if xs.isEmpty then none
  else if !slotTableOk (b.link l).live then some (refusal 8 4 l)
  else if reservedSlots (b.link l).live * 2 ^ 32 < (xs.map (fun x => ceilDiv (256 * c * 2 ^ 32) (6 * (b.envOf x).p))).sum then
    some (refusal 9 4 l)
  else none

/-- BANK_LOAD of one admitted bank. -/
def Blk.bankCheck (b : Blk) (bank : Nat) : Option Report :=
  let c := opTicks b.clk.floor
  let int := ceilDiv ((1 + b.kInt bank) * 2 * c * 2 ^ 32) 1000000
  let u := (b.resOf bank).map (fun x =>
    let ops := b.kOf x + b2n (b.attachOf x).isSome + b2n (b.laneName x ≠ .none)
    ceilDiv (ops * 2 * c * 2 ^ 32) (b.envOf x).p)
  if 3 * 2 ^ 30 < int + u.sum then some (refusal 10 2 bank) else none

/-- CLUSTER_LOAD of one cluster with an admitted attachment. -/
def Blk.clusterCheck (b : Blk) (cl : Nat) : Option Report :=
  let xs := b.adm.filter (fun x => x.2.clause.cv && x.2.clause.clus == cl)
  let c := opTicks b.clk.floor
  let u := xs.map (fun x =>
    let a := (b.attachOf x).getD {}
    ceilDiv (a.runLen * c * 2 ^ 32) (3 * (b.envOf x).p) +
      (if a.ten then ceilDiv (a.runLen * c * 2 ^ 32) (3000 * a.tmin) else 0))
  if xs.isEmpty then none
  else if (b.cl cl).regs.rsv * 2 ^ 32 < u.sum then some (refusal 11 3 cl) else none

/-- CONTEXT: more than 4 admitted sources can be delivered to one context. -/
def Blk.contextCheck (b : Blk) : Option Report :=
  let ps := b.adm.flatMap b.ctxsOf
  ((setOf ps).find? (fun p => 4 < ps.count p)).map (fun p => refusal 12 5 p)

/-- DEADLINE of one admitted source, or its bound. -/
def Blk.deadlineCheck (b : Blk) (s : MSrc) : Report ⊕ Nat :=
  match b.bound s with
  | none => .inl (refusal 11 3 s.2.clause.clus s.1)
  | some (t, rk, rn) =>
    let lim := 6 * (b.envOf s).dl
    if lim < t then .inl (refusal 13 rk rn s.1 t lim) else .inr t

/-- The deadline checks in ascending index: the first refusal, or the report of the source with the least slack. -/
def Blk.deadlines (b : Blk) : List MSrc → Option Report → Report
  | [], best => best.getD { src := 0x7FFFF }
  | s :: rest, best =>
    match b.deadlineCheck s with
    | .inl r => r
    | .inr t =>
      let lim := 6 * (b.envOf s).dl
      let mine : Report := { src := s.1, bound := t, limit := lim }
      b.deadlines rest (match best with
        | some r => if lim - t < r.limit - r.bound then some mine else best
        | none => some mine)

/-- checkAdmission(): the report, CODE 0 when the configuration is accepted (09 R352, R353, R355). -/
def Blk.checkAdmission (b : Blk) : Report :=
  let first := [b.adm.findSome? b.structural, b.unbounded, (List.range 16).findSome? b.linkCheck,
    b.admBanks.findSome? b.bankCheck, (List.range 16).findSome? b.clusterCheck, b.contextCheck].findSome? id
  if b.clk.floor = 3 || b.clk.floor < b.clk.curOp then refusal 14 7 b.clk.floor.toNat
  else match first with
    | some r => r
    | none => b.deadlines b.adm none

end Sys2Proof.Machine
end

