-- ==== Sys2Proof/Machine/Hmac.lean ====
section
/-! DEFINITION. SHA-256 and HMAC-SHA-256 over byte lists, as FIPS 180-4 and FIPS 198-1 define them (15 R561). -/
namespace Sys2Proof.Machine
open Sys2Proof

/-! ## Constants: eight words a row, the first in the highest bits -/

/-- The words of a row. -/
def shaRow (r : BitVec 256) : List Word := (List.range 8).map (fun k => r.extractLsb' (32 * (7 - k)) 32)

/-- The hash value before the first block. -/
def shaInit : List Word := shaRow 0x6a09e667bb67ae853c6ef372a54ff53a510e527f9b05688c1f83d9ab5be0cd19

/-- A constant for each of the 64 rounds. -/
def shaK : List Word :=
  [0x428a2f9871374491b5c0fbcfe9b5dba53956c25b59f111f1923f82a4ab1c5ed5,
   0xd807aa9812835b01243185be550c7dc372be5d7480deb1fe9bdc06a7c19bf174,
   0xe49b69c1efbe47860fc19dc6240ca1cc2de92c6f4a7484aa5cb0a9dc76f988da,
   0x983e5152a831c66db00327c8bf597fc7c6e00bf3d5a7914706ca635114292967,
   0x27b70a852e1b21384d2c6dfc53380d13650a7354766a0abb81c2c92e92722c85,
   0xa2bfe8a1a81a664bc24b8b70c76c51a3d192e819d6990624f40e3585106aa070,
   0x19a4c1161e376c082748774c34b0bcb5391c0cb34ed8aa4a5b9cca4f682e6ff3,
   0x748f82ee78a5636f84c878148cc7020890befffaa4506cebbef9a3f7c67178f2].flatMap shaRow

/-! ## One block -/

/-- The sum without carries of a word's rotations to the right. -/
def rotSum (x : Word) (by_ : List Nat) : Word := by_.foldl (fun a n => a ^^^ x.rotateRight n) 0

/-- The schedule's window of sixteen words, moved on by one. -/
def shaNext (w : List Word) : List Word :=
  let at_ (k : Nat) : Word := w.getD k 0
  let near := rotSum (at_ 14) [17, 19] ^^^ at_ 14 >>> 10
  let far := rotSum (at_ 1) [7, 18] ^^^ at_ 1 >>> 3
  w.tail ++ [near + at_ 9 + far + at_ 0]

/-- One round, with `x` its constant plus its schedule word: the eight working variables move down one place, two of them
changed. -/
def shaRound (x : Word) : List Word → List Word
  | [a, b, c, d, e, f, g, h] =>
    let chosen := g ^^^ e &&& (f ^^^ g)
    let most := a &&& b ||| c &&& (a ||| b)
    let t := h + rotSum e [6, 11, 25] + chosen + x
    [t + rotSum a [2, 13, 22] + most, a, b, c, d + t, e, f, g]
  | v => v

/-- The rounds of the constants left, with the schedule's window. -/
def shaRounds : List Word → List Word → List Word → List Word
  | [], _, v => v
  | k :: ks, w, v => shaRounds ks (shaNext w) (shaRound (k + w.headD 0) v)

/-- The hash value after a block of sixteen words. -/
def shaBlock (h w : List Word) : List Word := List.zipWith (· + ·) h (shaRounds shaK w h)

/-! ## Messages -/

/-- Bytes as big-endian words. -/
def beWords : List Byte → List Word
  | w :: x :: y :: z :: rest => (w ++ (x ++ (y ++ z)) : BitVec 32) :: beWords rest
  | _ => []

/-- A word's bytes, most significant first. -/
def beBytes (w : Word) : List Byte :=
  [w.extractLsb' 24 8, w.extractLsb' 16 8, w.extractLsb' 8 8, w.extractLsb' 0 8]

/-- The hash value after `n` blocks of a padded message. -/
def shaBlocks : Nat → List Word → List Word → List Word
  | 0, h, _ => h
  | n + 1, h, ws => shaBlocks n (shaBlock h (ws.take 16)) (ws.drop 16)

/-- SHA-256 of a message. -/
def sha256 (msg : List Byte) : List Byte :=
  let n := msg.length
  let blocks := (n + 9 + 63) / 64
  let len : BitVec 64 := BitVec.ofNat 64 (8 * n)
  let tail := (List.range 8).map (fun k => len.extractLsb' (56 - 8 * k) 8)
  let padded := msg ++ (0x80 : Byte) :: List.replicate (64 * blocks - n - 9) 0 ++ tail
  (shaBlocks blocks shaInit (beWords padded)).flatMap beBytes

/-- HMAC-SHA-256 with a key of at most 64 bytes. -/
def hmacSha256 (key msg : List Byte) : List Byte :=
  let k := key ++ List.replicate (64 - key.length) (0 : Byte)
  sha256 (k.map (· ^^^ 0x5c) ++ sha256 (k.map (· ^^^ 0x36) ++ msg))

end Sys2Proof.Machine
end

