-- ==== Sys2Proof/Config.lean ====
section
/-! DEFINITION. What the block holds that the spec leaves open: constants without a body. -/
namespace Sys2Proof.Config
open Sys2Proof

/-- The entropy source's `n`-th 128-bit number (15 R560). A free value: nothing constrains it. -/
opaque freeEntropy : Nat → BitVec 128

/-- The words of the Sequencer's ROM (15 R574, 16 R586): the spec gives no image. A free value. -/
opaque romWord : Nat → Word

/-- The `n`-th word that a read of the memory window returns where the spec states none: a stored word whose check is
broken, and a register of an engine without a run (15 R568). A free value. -/
opaque freeWord : Nat → Word

end Sys2Proof.Config
end

