-- ==== Sys2Proof/Machine/Session.lean ====
section
/-! DEFINITION. Descriptors and their answers, mappings, and the staging session: what it holds, its end and its switch
(09 R344, 10 R374 to R387). -/
namespace Sys2Proof.Machine
open Sys2Proof

/-! ## Descriptors -/

/-- A fetched descriptor: its ring, its sequence number and its line. -/
structure Desc where
  ring : RingId
  seq : Nat
  line : BitVec 512
  deriving DecidableEq, Repr

/-- Word `k` of a descriptor. -/
def Desc.w (d : Desc) (k : Nat) : Nat := (lineWord d.line k).toNat
/-- Bits [hi:lo] of word `k`. -/
def Desc.f (d : Desc) (k hi lo : Nat) : Nat := bits (d.w k) hi lo
/-- Bit `n` of word `k`. -/
def Desc.b (d : Desc) (k n : Nat) : Bool := bit (d.w k) n
/-- OP. -/
def Desc.op (d : Desc) : Nat := d.f 0 7 0
/-- TAG. -/
def Desc.tag (d : Desc) : Nat := d.f 0 31 16
/-- Line number of an address in words `k` (bits [31:6]) and `k + 1`. -/
def Desc.lineAt (d : Desc) (k : Nat) : Nat := (d.w (k + 1) * 2 ^ 32 + d.w k) / 64
/-- The descriptor came on a manager Command Ring. -/
def Desc.manager (d : Desc) : Bool := match d.ring with
  | .mgr _ => true
  | .guest _ => false
/-- DOMID in bits [11:0] of word `k`, over which the Hub writes the domain of a Guest Ring (05 R207; 10 R376). -/
def Desc.dom (d : Desc) (k : Nat) : Nat := match d.ring with
  | .guest g => g
  | .mgr _ => d.f k 11 0

/-- Assigned fields of Table 10-5: word, highest and lowest bit. -/
abbrev Fields := List (Nat × Nat × Nat)

/-- Every bit of words 0 to 14 outside the common fields and those listed is 0 (00 R10; 10 Table 10-3). -/
def Desc.reservedZero (d : Desc) (fs : Fields) : Bool :=
  (List.range 15).all (fun k =>
    let mask := (((0, 7, 0) :: (0, 31, 16) :: fs).filter (fun f => f.1 == k)).foldl
      (fun a f => a ||| (2 ^ (f.2.1 + 1) - 2 ^ f.2.2)) 0
    d.w k &&& mask == d.w k)

/-- Completion status, Table 10-7. -/
inductive Status where
  | ok | format | check | ring | refused | inUse | stageRequired | lock | admission | route | busy
  deriving DecidableEq, Repr

/-- Code of a status. -/
def Status.code : Status → Nat
  | .ok => 0 | .format => 1 | .check => 2 | .ring => 3 | .refused => 4 | .inUse => 5 | .stageRequired => 6 | .lock => 7
  | .admission => 8 | .route => 9 | .busy => 10

/-- What a command answers: a completion record, or that it stays executing (10 R379, R383). -/
inductive Reply where
  | done (st : Status) (detail : Nat) (result : List Word)
  | wait (w : Wait)
  deriving DecidableEq, Repr

/-- OK with nothing else. -/
def Reply.ok : Reply := .done .ok 0 []
/-- A status with DETAIL 0. -/
def Reply.st (s : Status) : Reply := .done s 0 []
/-- REFUSED with the position of its case (10 R380). -/
def Reply.refuse (n : Nat) : Reply := .done .refused n []

/-- A command of Table 10-4 on a descriptor. -/
abbrev Cmd := List Host.Cell → Desc → Blk → Blk × Reply

/-- Position, counted from 1, of the first case that holds (10 R380). -/
def firstCase (cs : List Bool) : Option Nat := (cs.findIdx? id).map (· + 1)

/-! ## The session of a command (10 R386) -/

/-- How a staged command is taken: at once, staged, or turned away because another ring's session is open. -/
inductive Mode where
  | now | stage | lock
  deriving DecidableEq, Repr

def Blk.mode (b : Blk) (r : RingId) : Mode :=
  match b.rings.session with
  | none => .now
  | some s => if s.ring = r then .stage else .lock

/-- A change added to the open session. -/
def Blk.stage (b : Blk) (x : Staged) : Blk :=
  { b with rings := { b.rings with session := b.rings.session.map (fun s => { s with staged := s.staged ++ [x] }) } }

/-! ## Mappings (03 R85 to R91, 10 R377) -/

/-- An STT entry of a new mapping: CLASS STANDARD, PRIO 0, nothing attached (10 R377). -/
def Stt.fresh (s : Stt) (kind : SrcKind) (pol : Bool) (domid : Nat) (vintid : Word24) (res : Bool) (slot : Nat) : Stt :=
  { valid := true, kind := kind, mapgen := s.mapgen + 1, domid := domid, vintid := vintid, pol := pol, res := res,
    slot := slot, rank := { cls := 1 } }

/-- The STT entry of a wired line mapped anew, or changed in its trigger mode and polarity (10 R377 case 9). -/
def Blk.mapLineStt (b : Blk) (i : Nat) (kind : SrcKind) (pol : Bool) (domid : Nat) (vintid : Word24) : Blk :=
  let old := b.stt i
  let b := { b with ecc := { b.ecc with sttBad := setDel b.ecc.sttBad i } }
  b.modStt i (fun s => if old.valid then { s with kind := kind, pol := pol } else s.fresh kind pol domid vintid true i)

/-- The current accepted level of a level-mode line enters its entry (03 R102; 02 R67). -/
def Blk.sampleLevel (b : Blk) (m : List Host.Cell) (i : Nat) : Blk :=
  let st := b.stt i
  if st.valid && st.kind = .level then
    let ev : Event := { stt := i, mapgen := st.mapgen, gen := (b.dom st.domid).gen,
                        kind := .level (setHas b.ing.level i == st.pol), time := b.now }
    b.rpApply m { stt := i, mapgen := st.mapgen, kind := .event ev }
  else b

/-- The entry of a wired line after its mapping: zeroed with USED set for a new one; a change of mode keeps it, drops
LVL in edge mode, and takes the accepted level in level mode (03 R102; 10 R377). -/
def Blk.mapLineEntry (b : Blk) (m : List Host.Cell) (i : Nat) (isNew : Bool) : Blk :=
  let g := (b.dom (b.stt i).domid).gen
  let b := b.modSlot i (fun s =>
    if isNew then { entry := { used := true, gen := g }, owner := i }
    else if (b.stt i).kind = .edge then { s with entry := { s.entry with lvl := false } } else s)
  b.sampleLevel m i

/-! ## What a session holds -/

/-- Attachment entry `a` of a cluster written (07 R266). -/
def Blk.setAttach (b : Blk) (c a : Nat) (x : Attach) : Blk :=
  let b := { b with ecc := { b.ecc with attBad := setDel b.ecc.attBad (timerKey c a) } }
  let b := b.modCl c (fun cl => { cl with att := tabSet {} cl.att a x })
  if x.ten then b else { b with tim := { b.tim with armed := tabDel b.tim.armed (timerKey c a),
                                                    waiting := tabDel b.tim.waiting (timerKey c a) } }

/-- A staged change applied to the configuration that admission reads. -/
def Blk.applyCfg (b : Blk) : Staged → Blk
  | .cls i c => b.modStt i (fun s => { s with rank := c })
  | .envWrite n p bb dl g =>
    let b := { b with ecc := { b.ecc with envBad := setDel b.ecc.envBad n } }
    let b := b.modEnv n (fun e => { e with p := p, b := bb, dl := dl })
    { b with sram := { b.sram with igrp := tabSet 0 b.sram.igrp n g } }
  | .envAtt i e => b.modStt i (fun s => { s with env := e })
  | .routeAtt i r => b.modStt i (fun s => { s with route := r })
  | .clause i c w =>
    let b := b.modStt i (fun s => { s with clause := c })
    match w with
    | some a => b.setAttach c.clus c.aidx a
    | none => b
  | .mapLine i k p d v => b.mapLineStt i k p d v
  | .resident i slot => b.modStt i (fun s => { s with res := true, slot := slot })
  | .vctxIn d v p => b.modVctx d v (fun _ => { run := true, pctx := p, sw := false })

/-- The history window of an attachment zeroed (07 R263). -/
def Blk.zeroWindow (b : Blk) (c : Nat) (a : Attach) : Blk :=
  b.modCl c (fun x => (List.range a.hlen).foldl (fun x k => x.dataPut (a.hbase + k) 0) x)

/-- An envelope starts afresh: TAT takes the time base and the excess count is cleared (04 R147). -/
def Blk.freshEnv (b : Blk) (n : Nat) : Blk := b.modEnv n (fun e => { e with tat := b.now, excess := 0 })

/-- What a staged change does besides, when it becomes live (04 R147, 07 R263, 10 R377, 11 R419). -/
def Blk.applyFx (b : Blk) (m : List Host.Cell) (before : Blk) : Staged → Blk
  | .envWrite n _ _ _ _ => b.freshEnv n
  | .clause _ c (some a) => b.zeroWindow c.clus a
  | .mapLine i _ _ _ _ => b.mapLineEntry m i (!(before.stt i).valid)
  | .vctxIn d v _ => b.postRescan.sendOwn d v true
  | _ => b

/-- The routes and slot tables written in the session as if live, resynchronisation done as before every flip (05 R195,
DEDUCED 21). -/
def Blk.shadowLive (b : Blk) (s : Session) : Blk :=
  let b := b.resyncAll
  let b := { b with rank := { b.rank with epoch := !b.rank.epoch } }
  s.links.foldl (fun b n => b.modLink n (fun l => { l with live := l.shad })) b

/-- The resulting configuration: the live one with every change of the session applied (09 R344). -/
def Blk.staging (b : Blk) : Blk :=
  match b.rings.session with
  | none => b
  | some s => (s.staged.foldl Blk.applyCfg b).shadowLive s

/-- The holds of the prepared moves of a session that has ended (10 R387). -/
def Blk.unholdAll (b : Blk) (s : Session) : Blk :=
  s.staged.foldl (fun b x => match x with
    | .resident i _ => b.unholdLine (b.sstLine i)
    | _ => b) b

/-! ## The end of a session -/

/-- The Setup Lock freed (14 R540). -/
def Blk.lockFree (b : Blk) : Blk := { b with lock := { b.lock with held := false, relPend := false, remain := 0 } }

/-- A release that waited for the session takes effect (14 R540). -/
def Blk.lockSessionEnd (b : Blk) : Blk := if b.lock.relPend then b.lockFree else b

/-- CLK.OPCTL.FLOOR takes FLOOR_LIVE (09 R344). -/
def Blk.floorBack (b : Blk) : Blk := { b with clk := { b.clk with floor := b.clk.floorLive } }

/-- A prepared move or a staged switch-in undone (10 R387, 11 R419). -/
def Blk.undo (b : Blk) : Staged → Blk
  | .resident _ slot => b.modSlot slot Slot.unused
  | .vctxIn d v _ => (b.modVctx d v (fun _ => {})).rescan
  | _ => b

/-- Route entries, groups and slot tables written since STAGE_BEGIN restored from the live ones (05 R197, 06 R216). -/
def Blk.restoreShadows (b : Blk) (s : Session) : Blk :=
  let live := b.liveRt
  let sh := b.shadRt
  let b := b.setShad
    { routes := s.routes.foldl (fun t i => tabSet {} t i (live.route i)) sh.routes,
      groups := s.groups.foldl (fun t g => tabSet {} t g (live.group g)) sh.groups }
  s.links.foldl (fun b n => b.modLink n (fun l => { l with shad := l.live })) b

/-- Table of a descriptor's completion: OP and TAG are returned (10 Table 10-6). -/
def Blk.completeDesc (b : Blk) (m : List Host.Cell) (d : Desc) (st : Status) (detail : Nat) (res : List Word) : Blk :=
  b.complete m d.ring d.seq { status := st.code, op := d.op, tag := d.tag, detail := detail, result := res }

/-- An executing descriptor removed from its ring. -/
def Blk.dropExec (b : Blk) (r : RingId) (seq : Nat) : Blk :=
  b.modPair r (fun p => { p with exec := p.exec.filter (fun e => e.seq ≠ seq) })

/-- An executing descriptor completed (10 R379). -/
def Blk.finish (b : Blk) (m : List Host.Cell) (r : RingId) (e : Exec) (st : Status) (detail : Nat) (res : List Word) : Blk :=
  (b.dropExec r e.seq).completeDesc m { ring := r, seq := e.seq, line := e.line } st detail res

/-- SET_ROUTE descriptors staged in the session that wait complete with LOCK (05 R196). -/
def Blk.lockWaiters (b : Blk) (m : List Host.Cell) (r : RingId) : Blk :=
  (b.pair r).exec.foldl (fun b e => match e.wait with
    | .resync true => b.finish m r e .lock 0 []
    | _ => b) b

/-- The end of a session other than a successful COMMIT (09 R344, 10 R386). -/
def Blk.abandonSession (b : Blk) (m : List Host.Cell) : Blk :=
  match b.rings.session with
  | none => b
  | some s =>
    let b := s.staged.foldl Blk.undo b
    let b := (b.restoreShadows s).floorBack
    let b := { b with rings := { b.rings with session := none } }
    ((b.unholdAll s).lockWaiters m s.ring).lockSessionEnd

/-- The switch of an accepted COMMIT: every change of the session becomes live (05 R197, 06 R217, 09 R344, 10 R387). -/
def Blk.switchSession (b : Blk) (m : List Host.Cell) : Blk :=
  match b.rings.session with
  | none => b
  | some s =>
    let before := b
    let b := b.flip s.routes s.groups
    let b := s.links.foldl (fun b n => b.modLink n (fun l => { l with live := l.shad })) b
    let b := s.staged.foldl Blk.applyCfg b
    let b := ({ b with rings := { b.rings with session := none }, clk := { b.clk with floorLive := b.clk.floor } }).unholdAll s
    let b := s.staged.foldl (fun b x => b.applyFx m before x) b
    b.lockSessionEnd

/-! ## Check Value Units (14 R524) -/

/-- A mismatch found by unit `u` at a line. -/
def Blk.cvuMismatch (b : Blk) (u line : Nat) : Blk :=
  ({ b with cvu := { b.cvu with host := setAdd b.cvu.host u, mis := tabMod 0 b.cvu.mis u satInc,
                                cap := tabSet 0 b.cvu.cap u (BitVec.ofNat 32 line) } }).raise (0x40 + u)

/-- The CRC-32C of two seed words and a byte sequence (10 R372, R378). -/
def seededCrc (s0 s1 : Nat) (l : List Byte) : Word :=
  crc32c (([BitVec.ofNat 32 s0, BitVec.ofNat 32 s1] : List Word).flatMap wordBytes ++ l)

end Sys2Proof.Machine
end

