-- ==== Sys2Proof/Machine/Rings.lean ====
section
/-! DEFINITION. The Ring Processor: fetch and examination of descriptors, doorbells, drains (10 R366 to R376, R391). -/
namespace Sys2Proof.Machine
open Sys2Proof

/-! ## Which commands there are (10 Table 10-4) -/

/-- OP is listed. -/
def listedOp (op : Nat) : Bool :=
  (1 ≤ op && op ≤ 0x0B) || (0x10 ≤ op && op ≤ 0x13) || (0x20 ≤ op && op ≤ 0x24) || op = 0x30 || op = 0x31 || op = 0x38 ||
  op = 0x39

/-- The command is permitted on the descriptor's ring. -/
def Desc.permitted (d : Desc) : Bool :=
  d.manager || d.op = 0x13 || d.op = 0x30 || (d.op = 0x31 && d.f 1 1 0 == 0)

/-- A command that begins as FENCE does (10 R384, R385). -/
def fenceOp (op : Nat) : Bool := 0x10 ≤ op && op ≤ 0x13

/-- Words 3 to 10 of an ATTACH_CLAUSE that writes its entry. -/
def attachWords : Fields :=
  [(3, 9, 0), (3, 28, 16), (4, 5, 0), (4, 15, 8), (4, 16, 16), (5, 11, 0), (5, 27, 16), (6, 11, 0), (6, 27, 16), (7, 23, 0),
   (8, 18, 0), (9, 23, 0), (10, 23, 0)]

/-- Three words with an address layout of RING.MCMDm_LO and _HI without EN. -/
def ringWords (k : Nat) : Fields := [(k, 3, 0), (k, 31, 12), (k + 1, 31, 0)]

/-- Assigned fields of a command's form, Table 10-5; none: the form is not listed (10 R376, R378). N_M1 is assigned in every
form of SEND_CORE_MSG, and any value of it is accepted where it has no meaning, in MASK and ALL (DESIGN CHOICE 117). -/
def Desc.fields (d : Desc) : Option Fields :=
  let form := d.f 1 1 0
  match d.op with
  | 0x01 =>
    if d.b 1 0 then some [(1, 0, 0), (2, 15, 0), (2, 17, 16), (2, 31, 24), (3, 18, 0), (4, 16, 0), (5, 18, 0), (6, 16, 0)]
    else some [(1, 0, 0), (2, 18, 0), (2, 22, 20), (2, 24, 24), (3, 11, 0), (4, 23, 0)]
  | 0x02 => some [(2, 18, 0)]
  | 0x03 =>
    match form with
    | 0 => some [(1, 1, 0), (2, 12, 0), (2, 16, 16), (3, 13, 0), (3, 19, 16), (4, 9, 0), (4, 26, 16)]
    | 1 => some [(1, 1, 0), (2, 10, 0), (3, 11, 0), (4, 31, 6), (5, 31, 0), (6, 31, 0)]
    | 2 => some [(1, 1, 0), (2, 18, 0), (2, 20, 20), (3, 12, 0)]
    | _ => none
  | 0x04 => some [(2, 18, 0), (3, 9, 0), (3, 12, 12)]
  | 0x05 =>
    if d.b 1 0 then some [(1, 0, 0), (2, 18, 0), (2, 20, 20), (3, 13, 0)]
    else some [(1, 0, 0), (2, 13, 0), (3, 23, 0), (4, 15, 0), (5, 23, 0), (6, 3, 0)]
  | 0x06 => some [(2, 3, 0), (3, 31, 6), (4, 31, 0)]
  | 0x07 =>
    let head : Fields := [(2, 18, 0), (2, 20, 20), (2, 27, 24)]
    if !d.b 2 20 then some head
    else if d.b 2 21 then some ((2, 21, 21) :: (3, 9, 0) :: head)
    else some (attachWords ++ head)
  | 0x08 => some [(2, 3, 0), (3, 31, 0), (4, 31, 0)]
  | 0x09 => some [(2, 18, 0), (2, 20, 20), (3, 17, 0)]
  | 0x0A => some [(2, 3, 0), (2, 25, 16), (3, 23, 0)]
  | 0x0B =>
    match form with
    | 0 => some [(1, 1, 0), (2, 11, 0), (2, 16, 16), (3, 18, 0), (4, 23, 0), (5, 15, 0), (6, 18, 0), (7, 10, 0)]
    | 1 => some ([(1, 1, 0), (2, 11, 0), (2, 19, 16), (3, 9, 0)] ++ ringWords 4 ++ ringWords 6 ++ ringWords 8)
    | 2 => some ([(1, 1, 0), (2, 11, 0)] ++ ([3, 4, 5, 6].flatMap (fun k => [(k, 9, 0), (k, 25, 16), (k, 31, 30)])))
    | _ => none
  | 0x20 | 0x23 | 0x24 => some [(2, 11, 0)]
  | 0x21 => some [(2, 11, 0), (3, 31, 6), (4, 31, 0), (5, 23, 0)]
  | 0x22 => some [(2, 11, 0), (3, 31, 6), (4, 31, 0)]
  | 0x30 =>
    match d.f 2 17 16 with
    | 0 => some [(2, 11, 0), (2, 19, 16), (3, 9, 0), (3, 25, 16), (4, 9, 0), (4, 25, 16)]
    | 1 => some [(2, 11, 0), (2, 19, 16), (3, 9, 0), (4, 31, 0), (5, 31, 0)]
    | 2 => some [(2, 11, 0), (2, 19, 16)]
    | _ => none
  | 0x31 =>
    match form with
    | 0 => some [(1, 1, 0), (2, 11, 0), (3, 23, 0)]
    | 1 => some [(1, 1, 0), (2, 13, 0)]
    | 2 => some [(1, 1, 0), (2, 11, 0)]
    | _ => none
  | 0x38 | 0x39 => some [(1, 0, 0), (2, 31, 6), (3, 31, 0), (4, 15, 0)]
  | _ => some []

/-! ## Fetch (10 R367, R374, R381, R384, R385) -/

/-- A power client that has not stopped takes new work (13 R481). -/
def Blk.clientUp (b : Blk) (k : Nat) : Bool := !setHas b.pwr.seq.stopped k

/-- Descriptors of a frozen domain are fetched only up to the PSEQ at its freeze (11 R438). -/
def Blk.fetchOpen (b : Blk) : RingId → Bool
  | .mgr _ => true
  | .guest g =>
    let d := b.dom g
    match d.st with
    | .freezing => d.fetchTo ≠ some d.pair.cmd.r
    | _ => !d.still

/-- Completion records of a ring wait for their line. -/
def Blk.cplWaits (b : Blk) (r : RingId) : Bool := b.fp.recs.any (fun w => w.kind == .completion r)

/-- A descriptor of a ring can be fetched. With the cache DISABLED its line passes through a line buffer (10 R402). -/
def Blk.canFetch (b : Blk) (r : RingId) (op : Nat) : Bool :=
  let p := b.pair r
  b.awake && b.clientUp 28 && p.st = .enabled && b.fetchOpen r && p.cmd.r ≠ p.cmd.w && (b.lc.on || b.lbufs < 4) &&
  p.exec.length + seqDist p.cpl.r p.cpl.w < p.cpl.size && p.exec.length < 32 &&
  !(p.exec.any (fun e => fenceOp ((lineWord e.line 0).toNat % 256))) &&
  (!fenceOp op || (p.exec.isEmpty && !b.cplWaits r))

/-- What an executing descriptor waits for. -/
def Blk.setWait (b : Blk) (r : RingId) (seq : Nat) (w : Wait) : Blk :=
  b.modPair r (fun p => { p with exec := p.exec.map (fun y => if y.seq = seq then { y with wait := w } else y) })

/-- The answer of an executing descriptor: its completion record, or what it waits for now. -/
def Blk.answer (b : Blk) (m : List Host.Cell) (r : RingId) (e : Exec) : Reply → Blk
  | .done st detail res => b.finish m r e st detail res
  | .wait w => b.setWait r e.seq w

/-- The descriptor's answer takes effect: its completion record, or a place among the executing ones. -/
def Blk.reply (b : Blk) (m : List Host.Cell) (d : Desc) : Reply → Blk
  | .done st detail res => b.completeDesc m d st detail res
  | .wait w => b.modPair d.ring (fun p => { p with exec := p.exec ++ [{ seq := d.seq, line := d.line, wait := w }] })

/-- While SPILL_ALL runs, every descriptor but these stays executing (16 R593). -/
def Blk.spillHolds (b : Blk) (op : Nat) : Bool :=
  (match b.ops.prog with
   | .spill _ _ _ => true
   | _ => false) &&
  !(op = 0x13 || op = 0x30 || op = 0x31 || op = 0x0A || op = 0x38 || op = 0x39 || op = 0x21)

/-- A descriptor whose check has passed, examined and executed (10 R374). -/
def Blk.examine (b : Blk) (m : List Host.Cell) (d : Desc) (cmd : Cmd) : Blk :=
  if !d.permitted then b.completeDesc m d .ring 0 []
  else match d.fields with
    | none => b.completeDesc m d .format 0 []
    | some fs =>
      if !d.reservedZero fs then b.completeDesc m d .format 0 []
      else if b.spillHolds d.op then b.reply m d (.wait .again)
      else
        let r := cmd m d b
        r.1.reply m d r.2

/-- The descriptor at FSEQ is fetched, checked and executed, if it is one of this command, or completes unexecuted. No
event when its OP is another listed one. -/
def Blk.fetch (b : Blk) (m : List Host.Cell) (r : RingId) (op : Nat) (cmd : Cmd) : Blk :=
  if !b.canFetch r op then b
  else
    let q := (b.pair r).cmd
    let n := q.r
    let addr := q.addr 64 n
    let x := b.readOnce m (addr / 64)
    let next (b : Blk) : Blk := b.modPair r (fun p => { p with cmd := { p.cmd with r := seqInc n } })
    match x.2 with
    | none => (next x.1).complete m r n { status := Status.check.code }
    | some line =>
      let inj := x.1.injHit 11 0
      let b1 := if inj then x.1.injDone 11 else x.1
      let ws := (List.range 15).map (lineWord line)
      let d : Desc := { ring := r, seq := n, line := line }
      if inj || entryCheck n 1 addr ws ≠ lineWord line 15 then
        ((next b1).cvuMismatch 0 (addr / 64)).complete m r n { status := Status.check.code }
      else if !listedOp d.op then (next b1).completeDesc m d .format 0 []
      else if d.op ≠ op then b
      else (next b1).examine m d cmd

/-- A waiting descriptor that may try again: one held by resynchronisation, by the Sequencer, or by a resource. -/
def Wait.retries : Wait → Bool
  | .resync _ | .sequencer | .again | .line _ => true
  | _ => false

/-- An executing descriptor tries again. None: it still waits. -/
def Blk.retry (b : Blk) (m : List Host.Cell) (r : RingId) (e : Exec) (cmd : Cmd) : Option Blk :=
  let x := cmd m { ring := r, seq := e.seq, line := e.line } b
  if b.spillHolds ((lineWord e.line 0).toNat % 256) then none
  else match x.2 with
  | .done st detail res => some (x.1.finish m r e st detail res)
  | .wait w =>
    if w.retries then none else some (x.1.setWait r e.seq w)

/-- An executing descriptor tries again, and keeps what it has done when it still waits. -/
def Blk.tryAgain (b : Blk) (m : List Host.Cell) (r : RingId) (e : Exec) (cmd : Cmd) : Blk :=
  if b.spillHolds ((lineWord e.line 0).toNat % 256) then b
  else
    let x := cmd m { ring := r, seq := e.seq, line := e.line } b
    x.1.answer m r e x.2

/-- A row of a command: a waiting descriptor of it that can now go on does so, else one is fetched. -/
def Blk.descRow (b : Blk) (m : List Host.Cell) (r : RingId) (op : Nat) (cmd : Cmd) : Blk :=
  let ws := (b.pair r).exec.filter (fun e => (lineWord e.line 0).toNat % 256 == op && e.wait.retries)
  match (if b.awake then ws.findSome? (fun e => b.retry m r e cmd) else none) with
  | some b => b
  | none => b.fetch m r op cmd

/-! ## Doorbells (10 R369, R370, R390) -/

/-- A doorbell write discarded and counted. -/
def Blk.dbError (b : Blk) : Blk := { b with fp := { b.fp with dbErr := satInc b.fp.dbErr } }

/-- PSEQ written for a ring pair. -/
def Blk.writePseq (b : Blk) (r : RingId) (v : Word) : Blk :=
  let p := b.pair r
  if p.st = .enabled && v.toNat < 2 ^ 24 && seqDist p.cmd.r v.toNat ≤ p.cmd.size then
    b.modPair r (fun p => { p with cmd := { p.cmd with w := v.toNat } })
  else b.dbError

/-- Whether a CSEQ may be written: not backwards, and not past the records written. -/
def RingQ.cseqOk (q : RingQ) (v : Nat) : Bool := seqDist v q.w ≤ seqDist q.r q.w

/-- CSEQ written for a ring pair's completion ring. -/
def Blk.writeCseq (b : Blk) (r : RingId) (v : Word) : Blk :=
  let p := b.pair r
  if p.st ≠ .disabled && v.toNat < 2 ^ 24 && p.cpl.cseqOk v.toNat then
    b.modPair r (fun p => { p with cpl := { p.cpl with r := v.toNat } })
  else b.dbError

/-- ELQ_CSEQ written for a domain: CSEQ, and CLR_OVF (10 R370, R390). -/
def Blk.writeElqCseq (b : Blk) (d : Nat) (v : Word) : Blk :=
  let q := (b.dom d).elq
  let c := bits v.toNat 23 0
  if q.st ≠ .disabled && bits v.toNat 30 24 == 0 && q.ring.cseqOk c then
    let b := b.modDom d (fun x => { x with elq := { x.elq with ring := { x.elq.ring with r := c } } })
    if bit v.toNat 31 then
      (b.modDom d (fun x => { x with elq := { x.elq with overflow := false, lost := 0 } })).writeHeader d
    else b
  else b.dbError

/-- A 32-bit write to a word of a domain's doorbell page; words outside Table 10-2 ignore it (10 R369). -/
def Blk.doorbell (b : Blk) (dom off : Nat) (v : Word) : Blk :=
  if off = 0 then (if dom = 0 then b else b.writePseq (.guest dom) v)
  else if off = 4 then (if dom = 0 then b else b.writeCseq (.guest dom) v)
  else if off = 8 then b.writeElqCseq dom v
  else if dom = 0 && 0x100 ≤ off && off < 0x140 then
    (if off % 8 = 0 then b.writePseq (.mgr ((off - 0x100) / 8)) v
     else if off % 8 = 4 then b.writeCseq (.mgr ((off - 0x100) / 8)) v else b)
  else b

/-! ## Enabling and draining (10 R366, R390, R391) -/

/-- Counts of a ring at its enabling. -/
def RingQ.zero (q : RingQ) : RingQ := { q with w := 0, r := 0 }

/-- A ring pair enabled. -/
def Pair.enable (p : Pair) : Pair :=
  { p with st := .enabled, cmd := p.cmd.zero, cpl := p.cpl.zero, again := false }

/-- EN written in RING.MCTLm (10 R391, R405). -/
def Blk.mgrEn (b : Blk) (n : Nat) (v : Bool) : Blk :=
  let p := b.pair (.mgr n)
  if v then
    if 10 < p.cmd.log2sz || 10 < p.cpl.log2sz then b
    else match p.st with
      | .disabled => b.modPair (.mgr n) (fun p => { p.enable with en := true })
      | .busy => b.modPair (.mgr n) (fun p => { p with again := true, en := true })
      | .enabled => b
  else match p.st with
    | .enabled => b.modPair (.mgr n) (fun p => { p with st := .busy, en := false })
    | .busy => b.modPair (.mgr n) (fun p => { p with again := false, en := false })
    | .disabled => b

/-- An Event Log Queue enabled, with its header (10 R390, R391). -/
def Blk.elqEnable (b : Blk) (d : Nat) : Blk :=
  (b.modDom d (fun x => { x with elq := { ring := x.elq.ring.zero, st := .enabled } })).writeHeader d

/-- Commands that waited for the drains of a domain's rings complete: a RINGS form, or a reset, which returns the domain
to its state (11 R432, R434). -/
def Blk.drainsDone (b : Blk) (m : List Host.Cell) : Blk :=
  b.allExec.foldl (fun b x => match x.2.wait with
    | .drains d =>
      if (b.dom d).pair.st = .busy || (b.dom d).elq.st = .busy then b
      else
        let b := if (lineWord x.2.line 0).toNat % 256 = 0x24 then b.modDom d (fun y => { y with st := y.back }) else b
        b.finish m x.1 x.2 .ok 0 []
    | _ => b) b

/-- The drain of a ring pair finishes: its session ends, and it becomes DISABLED, or ENABLED again. -/
def Blk.pairDrained (b : Blk) (m : List Host.Cell) (r : RingId) : Blk :=
  let p := b.pair r
  if p.st ≠ .busy || !p.exec.isEmpty || b.recPending (.completion r) then b
  else
    let b := match b.rings.session with
      | some s => if s.ring = r then b.abandonSession m else b
      | none => b
    let b := b.modPair r (fun p => if p.again then p.enable else { p with st := .disabled })
    b.drainsDone m

/-- The drain of an Event Log Queue finishes. -/
def Blk.elqDrained (b : Blk) (m : List Host.Cell) (d : Nat) : Blk :=
  if (b.dom d).elq.st ≠ .busy || b.recPending (.event d) then b
  else (b.modDom d (fun x => { x with elq := { x.elq with st := .disabled } })).drainsDone m

/-- The drain boundary of a ring. -/
def Blk.ringDrainEnd (b : Blk) (m : List Host.Cell) : RingSel → Blk
  | .pair r => b.pairDrained m r
  | .elq d => b.elqDrained m d

/-! ## The Sequencer (01 R20, R21) -/

/-- The Sequencer can take a command: it is not halted and runs no other (01 R21, 15 R566, 16 R592). -/
def Blk.seqFree (b : Blk) : Bool :=
  !b.dbg.haltSeq && (!b.ops.busy || (match b.ops.prog with
    | .spill _ _ _ => true
    | _ => false)) && !(b.allExec.any (fun x => match x.2.wait with
    | .commit _ | .snapBody .. | .snapHdr .. | .secondReading .. => true
    | .generation _ | .entries .. => (lineWord x.2.line 0).toNat % 256 = 0x22
    | _ => false))

end Sys2Proof.Machine
end

