-- ==== Sys2Proof/Machine/Setup.lean ====
section
/-! DEFINITION. Commands that set up sources, routes, classes, envelopes and clauses, and the session's commands
(04 R133 to R161, 05 R196 to R208, 07 R264 to R267, 08 R333 to R339, 09 R342 to R358, 10 R377 to R387). -/
namespace Sys2Proof.Machine
open Sys2Proof

/-! ## Views used by refusals -/

/-- Larger of the live and the staged class of a source. -/
def Blk.topClass (b v : Blk) (i : Nat) : BitVec 2 :=
  let a := (b.stt i).rank.cls
  let c := (v.stt i).rank.cls
  if a < c then c else a

/-- Virtual contexts of a domain: 1,024 in domain 0, CMCOUNT elsewhere (05 R184; 11 R409). -/
def Blk.nctxOf (b : Blk) (d : Nat) : Nat := if d = 0 then 1024 else if (b.dom d).st = .absent then 0 else (b.dom d).sh.cmcount

/-- State Store slots from 1,792 upward that a domain's sources hold (11 R413). -/
def Blk.shareUsed (b : Blk) (d : Nat) : Nat := (b.mapped.filter (fun x => x.2.domid == d && x.2.res && 1792 ≤ x.2.slot)).length

/-- The mapped source with a domain and a virtual INTID (03 R85). -/
def Blk.findSource (b : Blk) (d : Nat) (v : Word24) : Option Nat :=
  (b.mapped.find? (fun x => x.2.domid == d && x.2.vintid == v)).map (·.1)

/-- A change made at once or staged in the session. -/
def Blk.apply (b : Blk) (m : List Host.Cell) (x : Staged) : Blk × Reply :=
  if b.rings.session.isSome then (b.stage x, .ok) else ((b.applyCfg x).applyFx m b x, .ok)

/-! ## MAP_SOURCE (10 R377) -/

/-- KIND as a kind of source; none from 5 on. -/
def kindOf (k : Nat) : Option SrcKind :=
  match k with
  | 0 => some .msi | 1 => some .data | 2 => some .edge | 3 => some .level | 4 => some .core
  | _ => none

/-- The virtual INTID lies in the range of Table 3-1 for its kind, and keeps R86 and R91. -/
def vintidOk (k i d v : Nat) : Bool :=
  match k with
  | 4 => v ≤ 0x3FF
  | 2 | 3 => 0x400 ≤ v && v ≤ 0x9FF && (d ≠ 0 || v == 0x400 + i)
  | _ => 0xB00 ≤ v && v ≤ 0xFFFFFE

/-- The first refusing case of R377 in source form, over the view that holds staged mappings. -/
def Blk.mapRefusal (b v : Blk) (i k d vi : Nat) : Option Nat :=
  let e := v.stt i
  let wired : Bool := k = 2 || k = 3
  let other : Bool := k = 0 || k = 1 || k = 4
  let same : Bool := wired && e.kind.isWired && e.domid == d && e.vintid.toNat == vi
  firstCase [5 ≤ k, wired && 1536 ≤ i, other && i < 1792, d ≠ 0 && (b.dom d).st = .absent, !vintidOk k i d vi,
    (match v.findSource d (BitVec.ofNat 24 vi) with
     | some j => j ≠ i
     | none => false),
    k = 4 && ((b.dom d).sh.cmcount ≤ vi || i ≠ (b.dom d).sh.cmbase + vi), other && !b.sstEn, e.valid && !same,
    e.valid && k = 3 && e.clause.cv]

/-- A source other than a wired line mapped: its STT entry and a zeroed, spilled entry. None: its Spill State line cannot be
had now. -/
def Blk.mapSpilled (b : Blk) (m : List Host.Cell) (i : Nat) (k : SrcKind) (pol : Bool) (d : Nat) (vi : Word24) :
    Option Blk :=
  match b.sstFill m (b.sstLine i) with
  | none => none
  | some b =>
    let b := { b with ecc := { b.ecc with sttBad := setDel b.ecc.sttBad i, spillBad := setDel b.ecc.spillBad i } }
    let b := b.modStt i (fun s => s.fresh k pol d vi false 0)
    some (b.sstWrite m i { gen := (b.dom d).gen })

/-- MAP_SOURCE, source form. -/
def cmdMapSource : Cmd := fun m d b =>
  let i := d.f 2 18 0
  let k := d.f 2 22 20
  let dom := d.f 3 11 0
  let vi := d.f 4 23 0
  let pol := d.b 2 24
  let v := b.staging
  match kindOf k with
  | none => (b, .refuse 1)
  | some kind =>
    if kind.isWired && b.mode d.ring = .lock then (b, .st .lock)
    else match b.mapRefusal v i k dom vi with
      | some n => (b, .refuse n)
      | none =>
        if kind.isWired then
          if b.mode d.ring = .now && b.classesLive then (b, .st .stageRequired)
          else b.apply m (.mapLine i kind pol dom (BitVec.ofNat 24 vi))
        else match b.mapSpilled m i kind pol dom (BitVec.ofNat 24 vi) with
          | some b => (b, .ok)
          | none => (b, .wait (.line (b.sstLine i)))

/-- MAP_SOURCE, requester form (04 R133). -/
def cmdMapRequester : Cmd := fun _ d b =>
  let pc := d.f 2 31 24 + 1
  let r : Requester := { valid := d.b 2 16, pmode := d.b 2 17, pcount := pc, mbase := d.f 3 18 0, mcount := d.f 4 16 0,
                         cbase := d.f 5 18 0, ccount := d.f 6 16 0 }
  if 65536 < r.mcount || 65536 < r.ccount then (b, .st .format)
  else match firstCase [r.mcount ≠ 0 && 524287 < r.mbase + pc * r.mcount - 1, r.ccount ≠ 0 && 524287 < r.cbase + pc * r.ccount - 1] with
    | some n => (b, .refuse n)
    | none => ({ b with sram := { b.sram with req := tabSet {} b.sram.req (d.f 2 15 0) r },
                        ecc := { b.ecc with reqBad := setDel b.ecc.reqBad (d.f 2 15 0) } }, .ok)

def cmdMap : Cmd := fun m d b => if d.b 1 0 then cmdMapRequester m d b else cmdMapSource m d b

/-! ## UNMAP_SOURCE (03 Table 3-6, R119; 11 R426) -/

/-- An entry after its source is unmapped: a place of an active INTID stays until its completion. -/
def unmapEntry (e : Entry) : Entry :=
  if e.act then { e with pend := false, defr := false, rpt := false } else {}

/-- Staged changes that name an unmapped source leave the session. -/
def Staged.names (i : Nat) : Staged → Bool
  | .cls j _ | .envAtt j _ | .routeAtt j _ | .clause j _ _ | .mapLine j _ _ _ _ | .resident j _ => j = i
  | _ => false

def Blk.unstage (b : Blk) (i : Nat) : Blk :=
  match b.rings.session with
  | none => b
  | some s =>
    let c := { b with rings := { b.rings with session := some { s with staged := s.staged.filter (fun x => !x.names i) } } }
    match b.preparedSlot i with
    | some n => (c.modSlot n Slot.unused).unholdLine (b.sstLine i)
    | none => c

/-- Every bit of an index leaves the bitmaps. -/
def Blk.clearBits (b : Blk) (i : Nat) : Blk :=
  let b := b.clearHolds i
  { b with rings := { b.rings with spillBits := setDel b.rings.spillBits i, frozenBits := setDel b.rings.frozenBits i } }

/-- The mapping ends: the copies are withdrawn, MAPGEN advances. -/
def Blk.unmap (b : Blk) (m : List Host.Cell) (i : Nat) (st : Stt) : Option Blk :=
  let fin (b : Blk) : Blk :=
    let b := (b.withdraw i st.mapgen).1
    let b := (b.clearBits i).unstage i
    b.modStt i (fun s => { s with valid := false, mapgen := s.mapgen + 1 })
  if st.res then some (fin ((b.modSlot st.slot (fun s =>
      if s.entry.act then { s with entry := unmapEntry s.entry } else {})).granted (st.slot % 16) 4))
  else match b.sstFill m (b.sstLine i) with
    | none => none
    | some b => some (fin (b.sstWrite m i (unmapEntry (b.sstEntry m i))))

def cmdUnmap : Cmd := fun m d b =>
  let i := d.f 2 18 0
  let st := b.stt i
  if !st.valid then (b, .refuse 0xFFFF)
  else if st.kind = .internal then (b, .refuse 1)
  else match b.unmap m i st with
    | some b => (b, .ok)
    | none => (b, .wait (.line (b.sstLine i)))

/-! ## SET_ROUTE (05 R196 to R200) -/

/-- A live CRITICAL or FIRM source whose attached route satisfies `p`. -/
def Blk.liveRouteUser (b : Blk) (p : Nat → Route → Bool) : Bool :=
  b.adm.any (fun x => x.2.route.rv && p x.2.route.ridx (b.liveRt.route x.2.route.ridx))

/-- Members outside a domain's contexts, or unpopulated ones of domain 0. -/
def Blk.outside (b : Blk) (d : Nat) (ms : List Nat) : Bool := ms.any (fun v => b.nctxOf d ≤ v)
def Blk.unpopulated (b : Blk) (d : Nat) (ms : List Nat) : Bool := d = 0 && ms.any (fun v => !b.ctxPop v)

/-- The copy that a write of the session or of an unstaged SET_ROUTE goes to. -/
def Blk.writeShadow (b : Blk) (staged : Bool) (f : RtCopy → RtCopy) (routes groups : NSet) : Blk :=
  let b := b.setShad (f b.shadRt)
  let b := { b with ecc := { b.ecc with routeBad := b.ecc.routeBad.filter (fun i => !routes.contains i),
                                        groupBad := b.ecc.groupBad.filter (fun i => !groups.contains i) } }
  if staged then
    { b with rings := { b.rings with session := b.rings.session.map (fun s =>
      { s with routes := routes.foldl setAdd s.routes, groups := groups.foldl setAdd s.groups }) } }
  else b.flip routes groups

def cmdRouteEntry : Cmd := fun _ d b =>
  let staged : Bool := b.mode d.ring = .stage
  let i := d.f 2 12 0
  let r : Route := { valid := d.b 2 16, domid := d.f 3 11 0, kind := BitVec.ofNat 2 (d.f 3 13 12), gch := d.f 3 19 16,
                     target := d.f 4 9 0, group := d.f 4 26 16 }
  let fixed : Bool := r.kind = 0
  match firstCase [r.valid && fixed && b.outside r.domid [r.target], r.valid && fixed && b.unpopulated r.domid [r.target],
      r.valid && !fixed && (b.shadRt.group r.group).domid ≠ r.domid, !staged && b.liveRouteUser (fun n _ => n == i)] with
  | some n => (b, .refuse n)
  | none => (b.writeShadow staged (fun c => { c with routes := tabSet {} c.routes i r }) [i] [], .ok)

/-- The 128 bytes of a member mask read from two lines; none: a line read failed. -/
def Blk.readMask (b : Blk) (m : List Host.Cell) (line : Nat) : Blk × Option (List Byte) :=
  let x := b.readOnce m line
  let y := x.1.readOnce m (line + 1)
  match x.2, y.2 with
  | some p, some q => (y.1, some (lineBytes p 0 16 ++ lineBytes q 0 16))
  | _, _ => (y.1, none)

/-- Members of a mask: member v at bit v mod 8 of byte v / 8 (10 R378). -/
def maskMembers (l : List Byte) : NSet := (List.range 1024).filter (fun v => (l.getD (v / 8) 0).getLsbD (v % 8))

def cmdRouteGroup : Cmd := fun m d b =>
  let staged : Bool := b.mode d.ring = .stage
  let g := d.f 2 10 0
  let dom := d.f 3 11 0
  let line := d.lineAt 4
  let x := b.readMask m line
  match x.2 with
  | none => (x.1, .st .check)
  | some l =>
    if seededCrc (g + 5 * 2 ^ 24) (bits (64 * line) 36 5) l ≠ lineWord d.line 6 then (x.1.cvuMismatch 0 line, .st .check)
    else
      let b := x.1
      let ms := maskMembers l
      match firstCase [b.outside dom ms, b.unpopulated dom ms,
          !staged && b.liveRouteUser (fun _ r => r.kind ≠ 0 && r.group == g)] with
      | some n => (b, .refuse n)
      | none => (b.writeShadow staged (fun c => { c with groups := tabSet {} c.groups g { domid := dom, members := ms } }) [] [g], .ok)

def cmdRouteAttach : Cmd := fun m d b =>
  let i := d.f 2 18 0
  let r : RouteAtt := { rv := d.b 2 20, ridx := d.f 3 12 0 }
  let v := b.staging
  let st := v.stt i
  if !st.valid then (b, .refuse 0xFFFF)
  else match firstCase [st.kind = .core, r.rv && (v.liveRt.route r.ridx).domid ≠ st.domid] with
    | some n => (b, .refuse n)
    | none =>
      if b.mode d.ring = .stage then b.apply m (.routeAtt i r)
      else if 2#2 ≤ (b.stt i).rank.cls then (b, .st .route)
      else if b.classesLive && (b.stt i).res then (b, .st .stageRequired)
      else
        let x := b.apply m (.routeAtt i r)
        (if r.rv && setHas b.rank.parked i then x.1.rescan else x.1, x.2)

def cmdSetRoute : Cmd := fun m d b =>
  let form := d.f 1 1 0
  if b.mode d.ring = .lock then (b, .st .lock)
  else if form = 2 then cmdRouteAttach m d b
  else if b.rank.resync || b.oldCnt ≠ 0 then (b, .wait (.resync (b.mode d.ring = .stage)))
  else if form = 0 then cmdRouteEntry m d b
  else cmdRouteGroup m d b

/-! ## SET_CLASS, SET_ENVELOPE -/

def cmdSetClass : Cmd := fun m d b =>
  let i := d.f 2 18 0
  let c : ClassCfg := { cls := BitVec.ofNat 2 (d.f 3 1 0), prio := BitVec.ofNat 8 (d.f 3 9 2), ord := d.b 3 12 }
  let st := b.staging.stt i
  if b.mode d.ring = .lock then (b, .st .lock)
  else if !st.valid then (b, .refuse 0xFFFF)
  else if 2#2 ≤ c.cls && (st.kind = .core || st.kind = .internal) then (b, .refuse 1)
  else if b.mode d.ring = .now && (2#2 ≤ c.cls || (b.classesLive && (b.stt i).res)) then (b, .st .stageRequired)
  else b.apply m (.cls i c)

def cmdSetEnvelope : Cmd := fun m d b =>
  let attach := d.b 1 0
  let i := d.f 2 18 0
  let g := d.f 6 3 0
  if !attach && (d.f 3 23 0 = 0 || d.f 4 15 0 = 0 || (12 ≤ g && g ≤ 14)) then (b, .st .format)
  else if b.mode d.ring = .lock then (b, .st .lock)
  else if attach && !(b.staging.stt i).valid then (b, .refuse 0xFFFF)
  else if b.mode d.ring = .now && b.classesLive then (b, .st .stageRequired)
  else if attach then b.apply m (.envAtt i { envv := d.b 2 20, env := d.f 3 13 0 })
  else b.apply m (.envWrite (d.f 2 13 0) (d.f 3 23 0) (d.f 4 15 0) (d.f 5 23 0) g)

/-! ## LOAD_CLAUSE (08 R333 to R339) -/

/-- Lines read in ascending order until one fails: those read, and whether all were. -/
def Blk.readLines (b : Blk) (m : List Host.Cell) (line : Nat) : Nat → Blk × List (BitVec 512) × Bool
  | 0 => (b, [], true)
  | n + 1 =>
    let x := b.readOnce m line
    match x.2 with
    | none => (x.1, [], false)
    | some l =>
      let y := x.1.readLines m (line + 1) n
      (y.1, l :: y.2.1, y.2.2)

/-- The words of a run of lines. -/
def lineWords (ls : List (BitVec 512)) : List Word := ls.flatMap (fun l => (List.range 16).map (lineWord l))

/-- Header of a program image, Table 8-8. -/
structure ImgHead where
  region : Nat
  pbase : Nat
  plen : Nat
  dlen : Nat
  dbase : Nat
  check : Word
  deriving DecidableEq, Repr

/-- The header's fields, when Table 8-9 accepts it. -/
def imgHead (l : BitVec 512) : Option ImgHead :=
  let w (k : Nat) : Nat := (lineWord l k).toNat
  let h : ImgHead := { region := bits (w 1) 5 0, pbase := bits (w 1) 28 16, plen := bits (w 2) 13 0, dlen := bits (w 2) 28 16,
                       dbase := bits (w 3) 11 0, check := lineWord l 4 }
  if w 0 ≠ 0x01C1A05E || bits (w 1) 15 6 ≠ 0 || bits (w 1) 31 29 ≠ 0 || bits (w 2) 15 14 ≠ 0 || bits (w 2) 31 29 ≠ 0 ||
     bits (w 3) 31 12 ≠ 0 || w 5 ≠ 0 || w 6 ≠ 0 || w 7 ≠ 0 || 8192 < h.plen || 8192 < h.pbase + h.plen || 4096 < h.dlen ||
     4096 < h.dbase + h.dlen || (h.plen = 0 && (h.region ≠ 0 || h.pbase ≠ 0 || h.dlen = 0)) then none
  else some h

/-- Check value of an image (08 R334). -/
def imgCheck (clus : Nat) (h : ImgHead) (ws : List Word) : Word :=
  let body := ws.take (8 + h.plen + h.dlen)
  crc32c (wordBytes (BitVec.ofNat 32 (clus * 2 ^ 24 + h.region * 2 ^ 16 + h.pbase)) ++
    (body.take 4 ++ [0] ++ body.drop 5).flatMap wordBytes)

/-- Region `n` is the one named, or a valid one whose extent overlaps the new one. -/
def Cluster.touches (c : Cluster) (h : ImgHead) (n : Nat) : Bool :=
  let g := tabGet {} c.regions n
  n == h.region || (g.valid && g.pbase < h.pbase + h.plen && h.pbase < g.pbase + g.plen)

/-- Regions named by a live or staged attachment, or by a dispatch record queued or in flight, in the spill path either (07
R264). -/
def Blk.regionsInUse (b : Blk) (c : Nat) : List Nat :=
  let cl := b.cl c
  let att (a : Nat) : Nat := (tabGet {} cl.att a).region
  let live := (b.mapped.filter (fun x => x.2.clause.cv && x.2.clause.clus == c)).map (fun x => att x.2.clause.aidx)
  let staged := match b.rings.session with
    | none => []
    | some s => s.staged.filterMap (fun x => match x with
        | .clause _ k w => if k.cv && k.clus == c then some (match w with
            | some a => a.region
            | none => ((b.staging.cl c).att |> fun t => tabGet {} t k.aidx).region) else none
        | _ => none)
  let flying := cl.flying ++ cl.queue ++ (b.spillClosings.map (·.d)).filter (fun d => d.clus == c)
  live ++ staged ++ flying.map (fun d => d.att.region)

/-- Program and data words of the image written, as far as they were read. -/
def Cluster.writeImage (c : Cluster) (h : ImgHead) (ws : List Word) : Cluster :=
  let body := (ws.drop 8).map (fun w => w.setWidth 24)
  let ps := (body.take h.plen).zipIdx
  let ds := ((body.drop h.plen).take h.dlen).zipIdx
  let c := ps.foldl (fun c x => { c with prog := tabSet 0 c.prog (h.pbase + x.2) x.1,
                                         progBad := setDel c.progBad (h.pbase + x.2) }) c
  ds.foldl (fun c x => c.dataPut (h.dbase + x.2) x.1) c

/-- Steps 3 to 5 of R336. -/
def Blk.loadStep3 (b : Blk) (m : List Host.Cell) (clus line lines : Nat) (h : ImgHead) : Blk × Reply :=
  let used := b.regionsInUse clus
  if 0 < h.plen && (List.range 64).any (fun n => (b.cl clus).touches h n && used.contains n) then (b, .st .inUse)
  else
    let b := b.modCl clus (fun c => if h.plen = 0 then c else
      { c with regions := tabMap {} (fun n g => if c.touches h n then {} else g) c.regions })
    let x := b.readLines m line lines
    let ws := lineWords x.2.1
    let b := x.1.modCl clus (fun c => c.writeImage h ws)
    if !x.2.2 then (b, .st .check)
    else if imgCheck clus h ws ≠ h.check then (b.cvuMismatch 0 line, .st .check)
    else if h.plen = 0 then (b, .ok)
    else (({ b with ecc := { b.ecc with regBad := setDel b.ecc.regBad (64 * clus + h.region) } }).modCl clus (fun c =>
      { c with regions := tabSet {} c.regions h.region { valid := true, pbase := h.pbase, plen := h.plen } }), .ok)

def cmdLoadClause : Cmd := fun m d b =>
  let clus := d.f 2 3 0
  let line := d.lineAt 3
  let x := b.readOnce m line
  match x.2 with
  | none => (x.1, .st .check)
  | some l => match imgHead l with
    | none => (x.1, .st .format)
    | some h =>
      let lines := ceilDiv (8 + h.plen + h.dlen) 16
      let y := x.1.readLines m line lines
      let ws := lineWords y.2.1
      if !y.2.2 then (y.1, .st .check)
      else if ((ws.drop 8).take (h.plen + h.dlen)).any (fun w => 2 ^ 24 ≤ w.toNat) then (y.1, .st .format)
      else if imgCheck clus h ws ≠ h.check then (y.1.cvuMismatch 0 line, .st .check)
      else y.1.loadStep3 m clus line lines h

/-! ## ATTACH_CLAUSE (07 R267, 10 R378) -/

/-- The entry that a descriptor writes. -/
def Desc.attach (d : Desc) : Attach :=
  { valid := true, paddr := BitVec.ofNat 13 (d.f 3 28 16), region := d.f 4 5 0, budget := d.f 4 15 8, ten := d.b 4 16,
    hbase := d.f 5 11 0, hlen := d.f 5 27 16, tbase := d.f 6 11 0, tlen := d.f 6 27 16, param := BitVec.ofNat 24 (d.f 7 23 0),
    owner := d.f 8 18 0, cint := d.f 9 23 0, tmin := d.f 10 23 0 }

/-- A source that keeps no program (03 R93). -/
def SrcKind.noProgram (k : SrcKind) : Bool := k = .level || k = .core || k = .internal

/-- The first refusing case of R267. -/
def Blk.attachRefusal (b v : Blk) (i clus aidx : Nat) (a : Attach) : Option Nat :=
  let k := (v.stt i).kind
  let g := tabGet {} (b.cl clus).regions a.region
  let p := a.paddr.toNat
  let others (x : Blk) : Bool := x.mapped.any (fun y => y.2.clause.cv && y.2.clause.clus == clus && y.2.clause.aidx == aidx &&
    y.1 ≠ a.owner)
  firstCase [k.noProgram, a.budget = 0, 4096 < a.hbase + a.hlen || 4096 < a.tbase + a.tlen,
    !(g.valid && g.pbase ≤ p && p < g.pbase + g.plen), a.ten && (i ≠ a.owner || others b || others v),
    b.topClass v i = 3 && 40 < a.budget]

def cmdAttach : Cmd := fun m d b =>
  let i := d.f 2 18 0
  let cv := d.b 2 20
  let keep := d.b 2 21
  let clus := d.f 2 27 24
  let aidx := d.f 3 9 0
  let v := b.staging
  let a := if keep then tabGet {} (v.cl clus).att aidx else d.attach
  if b.mode d.ring = .lock then (b, .st .lock)
  else if !(v.stt i).valid then (b, .refuse 0xFFFF)
  else if cv && !keep && a.tmin = 0 then (b, .st .format)
  else match (if cv then b.attachRefusal v i clus aidx a else firstCase [(v.stt i).kind.noProgram]) with
    | some n => (b, .refuse n)
    | none =>
      if b.mode d.ring = .now && b.classesLive && (b.stt i).res then (b, .st .stageRequired)
      else if cv then b.apply m (.clause i { cv := true, clus := clus, aidx := aidx } (if keep then none else some a))
      else b.apply m (.clause i { (v.stt i).clause with cv := false } none)

/-! ## RESERVE_SLOTS, SET_RESIDENCY, SET_TIMER -/

/-- A live CRITICAL source can be delivered over a link. -/
def Blk.criticalLink (b : Blk) (n : Nat) : Bool := b.adm.any (fun x => x.2.rank.cls == 3 && setHas (b.linksOf x) n)

def cmdReserveSlots : Cmd := fun _ d b =>
  let n := d.f 2 3 0
  let t : Dword := BitVec.ofNat 64 (d.w 3 + d.w 4 * 2 ^ 32)
  if b.mode d.ring = .lock then (b, .st .lock)
  else if !(b.link n).pop then (b, .refuse 1)
  else if b.mode d.ring = .stage then
    let b := b.modLink n (fun l => { l with shad := t })
    ({ b with rings := { b.rings with session := b.rings.session.map (fun s => { s with links := setAdd s.links n }) } }, .ok)
  else if b.criticalLink n && !slotTableOk t then (b, .refuse 1)
  else (b.modLink n (fun l => { l with shad := t, shadDue := true }), .wait (.slotLive n))

/-- The first refusing case of R160. The moves that the session has prepared count in the domain's resident share (10 R387). -/
def Blk.moveRefusal (b v : Blk) (i slot : Nat) (res : Bool) : Option Nat :=
  let st := b.stt i
  firstCase [i < 1792, res && (slot < 1792 || (b.slot slot).entry.used),
    res && !(v.stt i).res && (b.dom st.domid).sh.rshare < v.shareUsed st.domid + 1, !res && !b.sstEn,
    !res && 2#2 ≤ b.topClass v i, if res then (v.stt i).res else !st.res]

/-- A spilled source made resident, or its move prepared in a session (04 R161, 10 R387). None: its line cannot be had. -/
def Blk.toSlot (b : Blk) (m : List Host.Cell) (i slot : Nat) (prepare : Bool) : Option Blk :=
  match b.holdLine m (b.sstLine i) with
  | none => none
  | some b =>
    let b := (b.modSlot slot (fun _ => { entry := { b.sstEntry m i with used := true }, owner := i })).granted (slot % 16) 4
    some (if prepare then b.stage (.resident i slot)
      else (b.modStt i (fun s => { s with res := true, slot := slot })).unholdLine (b.sstLine i))

/-- A resident source spilled (04 R161). USED of the copy in its Spill State line is written as 0 (DESIGN CHOICE 119). None:
its line cannot be had, or its slot waits for its rebuild. -/
def Blk.toLine (b : Blk) (m : List Host.Cell) (i : Nat) (st : Stt) : Option Blk :=
  let b := b.slotRead st.slot
  if setHas b.ecc.entryBad st.slot then none
  else match b.holdLine m (b.sstLine i) with
    | none => none
    | some b =>
      let b := (b.sstWrite m i { (b.slot st.slot).entry with used := false }).granted (st.slot % 16) 4
      some (((b.modSlot st.slot Slot.unused).modStt i (fun s => { s with res := false, slot := 0 })).unholdLine (b.sstLine i))

def cmdResidency : Cmd := fun m d b =>
  let i := d.f 2 18 0
  let res := d.b 2 20
  let slot := d.f 3 17 0
  let st := b.stt i
  let owns : Bool := b.mode d.ring = .stage
  if !res && slot ≠ 0 then (b, .st .format)
  else if res && b.mode d.ring = .lock then (b, .st .lock)
  else if !st.valid then (b, .refuse 0xFFFF)
  else match b.moveRefusal b.staging i slot res with
    | some n => (b, .refuse n)
    | none =>
      if !owns && b.classesLive then (b, .st .stageRequired)
      else match (if res then b.toSlot m i slot owns else b.toLine m i st) with
        | some b => (b, .ok)
        | none => (b, .wait (.line (b.sstLine i)))

def cmdSetTimer : Cmd := fun _ d b =>
  let clus := d.f 2 3 0
  let aidx := d.f 2 25 16
  let a := tabGet {} (b.cl clus).att aidx
  if a.ten then ({ b with tim := b.tim.operate (timerKey clus aidx) (d.f 3 23 0) a.tmin }, .ok) else (b, .ok)

/-! ## The session's commands (10 R386) -/

/-- The agent for which a manager ring pair acts holds the Setup Lock. -/
def Blk.ringHolds (b : Blk) (r : RingId) : Bool := b.lock.held && b.lock.owner == (b.pair r).agent

def cmdStageBegin : Cmd := fun _ d b =>
  if b.rings.session.isNone && b.ringHolds d.ring then
    ({ b with rings := { b.rings with session := some { ring := d.ring } } }, .ok)
  else (b, .st .lock)

/-- Result words of COMMIT (10 Table 10-8). -/
def Report.words (r : Report) : List Word :=
  [BitVec.ofNat 32 (pack [(r.code, 8, 0), (r.rkind, 4, 8), (r.rnum, 16, 12)]), BitVec.ofNat 32 (r.src % 2 ^ 19),
   BitVec.ofNat 32 r.bound, BitVec.ofNat 32 r.limit]

def cmdCommit : Cmd := fun m d b =>
  if !b.seqFree then (b, .wait .sequencer)
  else if b.mode d.ring ≠ .stage then (b, .st .lock)
  else
    let r := b.staging.checkAdmission
    if r.code = 0 then (b, .wait (.commit r)) else (b.abandonSession m, .done .admission 0 r.words)

def cmdAbandon : Cmd := fun m d b => if b.mode d.ring = .stage then (b.abandonSession m, .ok) else (b, .st .lock)

def cmdFence : Cmd := fun _ _ b => (b, .ok)

/-- The switch of an accepted COMMIT, with its completion record (09 R344, R355). -/
def Blk.commitSwitch (b : Blk) (m : List Host.Cell) : Blk :=
  match b.allExec.find? (fun x => match x.2.wait with
    | .commit _ => true
    | _ => false) with
  | some (r, e) => match e.wait with
    | .commit rep => (b.switchSession m).finish m r e .ok 0 rep.words
    | _ => b
  | none => b

/-- A slot table becomes live, and the RESERVE_SLOTS that wrote it completes (06 R216, R217). -/
def Blk.slotTableLive (b : Blk) (m : List Host.Cell) (n : Nat) : Blk :=
  let b := b.slotLive n
  b.allExec.foldl (fun b x => if x.2.wait = .slotLive n then b.finish m x.1 x.2 .ok 0 [] else b) b

/-! ## Core messages, queries and the cache's commands -/

/-- Targets that a descriptor names, ascending, each once; none: an encoding that Table 10-5 does not list (05 R205, R206). -/
def Desc.targets (d : Desc) (nctx : Nat) : Option (List Nat) :=
  match d.f 2 17 16 with
  | 0 =>
    let n := d.f 2 19 18 + 1
    let ts := [d.f 3 9 0, d.f 3 25 16, d.f 4 9 0, d.f 4 25 16]
    if (ts.drop n).any (· ≠ 0) then none else some (setOf (ts.take n))
  | 1 =>
    if d.f 3 5 0 ≠ 0 then none
    else some ((bitsOf 64 (d.w 4 + d.w 5 * 2 ^ 32)).map (fun k => d.f 3 9 0 + k))
  | _ => some (List.range nctx)

/-- A target beyond the domain's contexts or without a valid STT entry is skipped. -/
def Blk.coreTarget (b : Blk) (dom v : Nat) : Bool :=
  let st := b.stt (b.coreIdx dom v)
  v < (b.dom dom).sh.cmcount && st.valid && st.kind = .core

/-- An arrival of the SEND_CORE_MSG with this ring and DSEQ. -/
def Upd.sentBy (r : RingId) (seq : Nat) (u : Upd) : Bool :=
  match u.kind with
  | .coreMsg _ (some x) => x == (r, seq)
  | _ => false

/-- Arrivals of a SEND_CORE_MSG are not yet applied (04 R144). -/
def Blk.arrivalsWait (b : Blk) (r : RingId) (seq : Nat) : Bool :=
  (b.rings.spillq ++ b.rings.spillw ++ b.rings.rpWait).any (Upd.sentBy r seq)

/-- The completion of a SEND_CORE_MSG whose arrivals are applied. -/
def arrivalsReply (skipped : Nat) : Reply := .done .ok (min skipped 0xFFFF) []

def cmdSendCoreMsg : Cmd := fun m d b =>
  let dom := d.dom 2
  match d.targets (b.nctxOf dom) with
  | none => (b, .st .format)
  | some ts =>
    let good := ts.filter (b.coreTarget dom)
    let skipped := ts.length - good.length
    let b := good.foldl (fun b v => b.coreArrival m dom v (some (d.ring, d.seq))) b
    (b, if b.arrivalsWait d.ring d.seq then .wait (.arrivals skipped) else arrivalsReply skipped)

def cmdQueryIntid : Cmd := fun m d b =>
  match b.findSource (d.dom 2) (BitVec.ofNat 24 (d.f 3 23 0)) with
  | none => (b, .refuse 1)
  | some i =>
    let st := b.stt i
    let ans (b : Blk) (e : Entry) : Blk × Reply :=
      let v := encodeEntry e
      (b, .done .ok 0 [v.extractLsb' 0 32, v.extractLsb' 32 32,
        BitVec.ofNat 32 (pack [(if d.manager then i else 0, 19, 0), (b2n st.res, 1, 20), (st.rank.cls.toNat, 2, 21)])])
    if st.res then ans b (b.slot st.slot).entry
    else match b.sstFill m (b.sstLine i) with
      | none => (b, .wait (.line (b.sstLine i)))
      | some b => ans b (b.sstEntry m i)

/-- Code of a domain state, Table 11-1. -/
def DState.code : DState → Nat
  | .absent => 0 | .live => 1 | .freezing => 2 | .frozen => 3 | .resetting => 4 | .restoring => 5

def cmdQuery : Cmd := fun m d b =>
  match d.f 1 1 0 with
  | 0 => cmdQueryIntid m d b
  | 1 =>
    let n := d.f 2 13 0
    (b.modEnv n (fun e => { e with excess := 0 }), .done .ok 0 [(b.env n).excess.setWidth 32])
  | _ =>
    let dom := d.dom 2
    let x := b.dom dom
    (b, .done .ok 0 [BitVec.ofNat 32 (b.shareUsed dom), BitVec.ofNat 32 (seqDist x.elq.ring.r x.elq.ring.w),
      BitVec.ofNat 32 (x.gen.toNat + x.st.code * 2 ^ 8)])

/-- Whether a line lies in the scope of a cache command. -/
def Desc.inScope (d : Desc) (line : Nat) : Bool :=
  !d.b 1 0 || (d.lineAt 2 ≤ line && line < d.lineAt 2 + d.f 4 15 0)

/-- Dirty lines of a flush pass to free line buffers, and stay valid and clean (10 R399). A line that left the cache
meanwhile stands in a buffer already, or has been written. -/
def Blk.flushPump (b : Blk) (left : NSet) : List Nat → Blk × NSet × NSet
  | [] => (b, [], left)
  | l :: rest =>
    match b.lc.find l with
    | some x =>
      if !x.dirty then b.flushPump left rest
      else if b.lbufs < 4 && !b.inBuf l then
        let c := b.lc.modLine l (fun y => { y with dirty := false })
        ({ b with lc := { c with bufs := c.bufs ++ [x] } }).flushPump (setAdd left l) rest
      else
        let r := b.flushPump left rest
        (r.1, setAdd r.2.1 l, r.2.2)
    | none => b.flushPump (if b.inBuf l then setAdd left l else left) rest

def cmdFlush : Cmd := fun _ d b =>
  let dirty := setOf ((b.lc.lines.filter (fun l => l.dirty && d.inScope l.line)).map (·.line))
  if d.b 1 0 && d.f 4 15 0 = 0 then (b, .st .format)
  else if dirty.isEmpty then
    (if d.b 1 0 then b else { b with lc := { b.lc with dropped := 0 } }, .ok)
  else
    let x := b.flushPump [] dirty
    (x.1, .wait (.flush x.2.1 x.2.2 dirty.length (!d.b 1 0)))

/-- Flushes go on after a write-back of a line was acknowledged; those with nothing left complete (10 R399). -/
def Blk.flushStep (b : Blk) (m : List Host.Cell) (line : Nat) : Blk :=
  b.allExec.foldl (fun b x => match x.2.wait with
    | .flush todo left n all =>
      let y := b.flushPump (setDel left line) todo
      if y.2.1.isEmpty && y.2.2.isEmpty then
        let b := if all then { y.1 with lc := { y.1.lc with dropped := 0 } } else y.1
        b.finish m x.1 x.2 .ok (min n 0xFFFF) []
      else y.1.modPair x.1 (fun p => { p with exec := p.exec.map (fun e =>
        if e.seq = x.2.seq then { e with wait := .flush y.2.1 y.2.2 n all } else e) })
    | _ => b) b

def cmdInvalidate : Cmd := fun _ d b =>
  if d.b 1 0 && d.f 4 15 0 = 0 then (b, .st .format)
  else if b.lc.lines.any (fun l => l.held && d.inScope l.line) || b.lc.fills.any d.inScope then (b, .wait .again)
  else
    let gone := b.lc.lines.filter (fun l => d.inScope l.line)
    let dirty := gone.filter (·.dirty)
    let c := { b.lc with lines := b.lc.lines.filter (fun l => !d.inScope l.line), dropped := satAdd b.lc.dropped dirty.length,
                         invalSince := b.lc.invalSince || !d.b 1 0 }
    (dirty.foldl (fun b _ => b.raise 0x0E) { b with lc := c }, .ok)

end Sys2Proof.Machine
end

