-- ==== Sys2Proof/Machine/Domains.lean ====
section
/-! DEFINITION. Domains: shares, rings, virtual context switches, freeze, snapshot, restore, thaw and reset (11 R406 to
R451). -/
namespace Sys2Proof.Machine
open Sys2Proof

/-! ## States (11 Table 11-2) -/

/-- What a domain command answers by the domain's state alone; none: it goes on. -/
def Blk.gate (b : Blk) (dom : Nat) (live frozen : Bool) : Option Reply :=
  if dom = 0 then some (.refuse 1)
  else match (b.dom dom).st with
    | .absent => some (.refuse 1)
    | .live => if live then none else some (.refuse 1)
    | .frozen => if frozen then none else some (.refuse 1)
    | _ => some (.st .busy)

/-! ## SET_SHARE, DOMAIN form (11 R409 to R414) -/

/-- Guest domains that have been created, but for one. -/
def Blk.otherDoms (b : Blk) (dom : Nat) : List Dom := (b.sram.doms.filter (fun x => x.1 ≠ dom)).map (·.2)

/-- Two runs of numbers meet. -/
def runsMeet (a n c k : Nat) : Bool := a < c + k && c < a + n

/-- A core-message run is free: no STT index of it is valid, and it meets no other domain's run (11 R410 case 4). -/
def Blk.runFree (b : Blk) (dom base n : Nat) : Bool :=
  !(b.mapped.any (fun x => base ≤ x.1 && x.1 < base + n)) &&
  !((b.otherDoms dom).any (fun d => runsMeet base n d.sh.cmbase d.sh.cmcount))

/-- The lowest free run of `n` entries of the Virtual Context Table (11 R409, R410 case 6). -/
def Blk.freeVct (b : Blk) (dom n : Nat) : Option Nat :=
  let ds := ((b.sram.doms.filter (fun x => x.1 ≠ dom && x.1 ≠ 0)).map (·.2)).filter (fun d => d.st ≠ .absent)
  let bases := setOf (0 :: ds.map (fun d => d.sh.vbase + d.sh.cmcount))
  bases.find? (fun a => a + n ≤ 32768 && !(ds.any (fun d => runsMeet a n d.sh.vbase d.sh.cmcount)))

/-- A domain still holds something (11 R410 case 1). -/
def Blk.holds (b : Blk) (dom : Nat) : Bool :=
  let d := b.dom dom
  d.st ≠ .absent && (b.mapped.any (fun x => x.2.domid == dom) || d.pair.st ≠ .disabled || d.elq.st ≠ .disabled || d.st ≠ .live)

/-- Shares that a descriptor carries. -/
def Desc.shares (d : Desc) (s : Shares) : Shares :=
  { s with rshare := d.f 3 18 0, elimit := d.f 4 23 0, rweight := d.f 5 7 0, eweight := d.f 5 15 8 }

/-- Cases 2 to 4 of R410. -/
def Blk.runCases (b : Blk) (dom base n : Nat) : List Bool :=
  [n = 0 || 1024 < n, base < 1792 || 524287 < base + n - 1, !b.runFree dom base n]

/-- CREATE of a guest domain. A domain that is created again frees its old run of entries; a context on which one of them
ran returns to domain 0, which is a trigger of the parked rescan (11 R410, R417, R422; DEDUCED 100). -/
def Blk.create (b : Blk) (dom : Nat) (d : Desc) : Blk × Reply :=
  let base := d.f 6 18 0
  let n := d.f 7 10 0
  let s := d.shares {}
  match firstCase (b.holds dom :: b.runCases dom base n ++ [s.rweight = 0 || s.eweight = 0, (b.freeVct dom n).isNone]) with
  | some k => (b, .refuse k)
  | none =>
    let old := b.dom dom
    let v := (b.freeVct dom n).getD 0
    let gone (k : Nat) : Bool := (old.st ≠ .absent && old.sh.vbase ≤ k && k < old.sh.vbase + old.sh.cmcount) || (v ≤ k && k < v + n)
    let ran : Bool := b.sram.vct.any (fun x => gone x.1 && x.2.run)
    let b := { b with sram := { b.sram with vct := b.sram.vct.filter (fun x => !gone x.1) },
                      ecc := { b.ecc with vctBad := b.ecc.vctBad.filter (fun k => !gone k) } }
    let b := if ran then b.rescan else b
    (b.modDom dom (fun x => { st := .live, gen := x.gen, sh := { s with cmbase := base, cmcount := n, vbase := v } }), .ok)

/-- CREATE naming domain 0 (11 R411). -/
def Blk.createZero (b : Blk) (d : Desc) : Blk × Reply :=
  let base := d.f 6 18 0
  let n := d.f 7 10 0
  match firstCase ((decide ((b.dom 0).sh.cmcount ≠ 0)) :: b.runCases 0 base n) with
  | some k => (b, .refuse k)
  | none => (b.modDom 0 (fun x => { x with sh := { x.sh with cmbase := base, cmcount := n } }), .ok)

/-- The shares of a domain changed, with the header when the limit changes (10 R390; 11 R412 to R414). -/
def Blk.setShares (b : Blk) (dom : Nat) (s : Shares) : Blk :=
  let old := (b.dom dom).elqLimit
  let was := (b.dom dom).sh
  let b := b.modDom dom (fun x => { x with sh := s })
  let b := { b with ptrs := { b.ptrs with wrr := b.ptrs.wrr.change dom was.rweight s.rweight },
                    cls := tabMap {} (fun _ c => { c with wrr := c.wrr.change dom was.eweight s.eweight }) b.cls }
  if (b.dom dom).elq.st ≠ .disabled && (b.dom dom).elqLimit ≠ old then b.writeHeader dom else b

def cmdShareDomain : Cmd := fun _ d b =>
  let dom := d.f 2 11 0
  if d.b 2 16 then (if dom = 0 then b.createZero d else b.create dom d)
  else if d.f 6 18 0 ≠ 0 || d.f 7 10 0 ≠ 0 then (b, .st .format)
  else
    let s := d.shares (b.dom dom).sh
    match firstCase [dom ≠ 0 && (b.dom dom).st = .absent, s.rweight = 0 || s.eweight = 0] with
    | some k => (b, .refuse k)
    | none => (b.setShares dom s, .ok)

/-! ## SET_SHARE, RINGS form (10 R391, R392; 11 R451) -/

/-- Base and size from a word pair with the layout of RING.MCMDm_LO and _HI. -/
def Desc.ringAt (d : Desc) (k : Nat) : RingQ :=
  { base := d.w (k + 1) * 2 ^ 32 + d.f k 31 12 * 2 ^ 12, log2sz := d.f k 3 0 }

/-- A guest pair enabled, set, or drained. -/
def Pair.setGuest (p : Pair) (on : Bool) (cmd cpl : RingQ) : Pair :=
  match p.st with
  | .disabled => let q := { p with cmd := cmd, cpl := cpl }; if on then q.enable else q
  | .enabled => if on then p else { p with st := .busy }
  | .busy => p

/-- An Event Log Queue enabled, set, or drained. -/
def Blk.setElq (b : Blk) (dom : Nat) (on : Bool) (q : RingQ) : Blk :=
  match (b.dom dom).elq.st with
  | .disabled =>
    let b := b.modDom dom (fun x => { x with elq := { x.elq with ring := q } })
    if on then b.elqEnable dom else b
  | .enabled => if on then b else b.modDom dom (fun x => { x with elq := { x.elq with st := .busy } })
  | .busy => b

/-- The enables of a FROZEN domain are recorded, its disables drain (11 R451). -/
def Blk.recordRings (b : Blk) (dom : Nat) (gen een : Bool) (d : Desc) : Blk :=
  let b := b.modDom dom (fun x =>
    { x with recEn := { cmd := if gen then some (d.ringAt 4) else none, cpl := if gen then some (d.ringAt 6) else none,
                        elq := if een then some (d.ringAt 8) else none } })
  let b := if gen then b else b.modDom dom (fun x => { x with pair := x.pair.setGuest false (d.ringAt 4) (d.ringAt 6) })
  if een then b else b.setElq dom false (d.ringAt 8)

def cmdShareRings : Cmd := fun _ d b =>
  let dom := d.f 2 11 0
  let gen := d.b 2 16
  let een := d.b 2 17
  let x := b.dom dom
  match (if dom = 0 && !gen then none else b.gate dom true true) with
  | some r => (b, r)
  | none =>
    if 10 < d.f 4 3 0 || 10 < d.f 6 3 0 || 10 < d.f 8 3 0 then (b, .st .format)
    else if (gen && x.pair.st ≠ .disabled) || (een && x.elq.st ≠ .disabled) || x.pair.st = .busy || x.elq.st = .busy then
      (b, .st .busy)
    else
      let b := b.modDom dom (fun x => { x with cnote := d.b 2 18, enote := d.b 2 19, nctx := d.f 3 9 0 })
      let b := if x.st = .frozen then b.recordRings dom gen een d
        else (b.modDom dom (fun x => { x with pair := x.pair.setGuest gen (d.ringAt 4) (d.ringAt 6) })).setElq dom een (d.ringAt 8)
      if (b.dom dom).pair.st = .busy || (b.dom dom).elq.st = .busy then (b, .wait (.drains dom)) else (b, .ok)

/-! ## Virtual context switches (11 R416 to R422) -/

/-- The domain to which a handle's instance belongs; a handle bound to a peer's proxy holds its DOMID in the place of an
STT index. -/
def Blk.handleDom (b : Blk) (h : Handle) : Nat :=
  match h.prox with
  | some _ => h.stt
  | none => (tabGet {} b.sram.stt h.stt).domid

/-- A shared handle has a copy for context `c`: queued, on the wire, in the Ready List, or held by a read. -/
def Blk.copyAt (b : Blk) (n h c : Nat) : Bool :=
  let l := b.link n
  let x := (b.ta n).ctx c
  l.outq.any (fun k => k.handle == h && k.ctx == c) ||
  l.e.wire.any (fun f => f.isCand && bits f.b0.toNat 9 0 == h && bits f.b0.toNat 19 14 == c) ||
  x.ready.any (fun k => k.handle == h) || (match x.held with
    | some k => k.handle == h
    | none => false)

/-- Handles of a domain with a copy or an active INTID at a physical context. -/
def Blk.handlesAt (b : Blk) (dom p : Nat) : List (Nat × Handle) :=
  (b.link (p / 64)).handles.filter (fun x => b.handleDom x.2 == dom && x.2.st ≠ .free &&
    (if x.2.shr && x.2.st ≠ .active then b.copyAt (p / 64) x.1 (p % 64) else x.2.ctx == p % 64))

/-- Copies of a domain at a physical context withdrawn (11 R419, R420). -/
def Blk.withdrawAt (b : Blk) (m : List Host.Cell) (dom p : Nat) : Blk :=
  (b.handlesAt dom p).foldl (fun b x => match x.2.st with
    | .queued => (b.unqueue (p / 64) x.1).releaseHandle m (p / 64) x.1
    | .standing => (b.withdrawHandle (p / 64) x.1).1
    | _ => b) b

/-- A switch-in begins (11 R419 steps 1 and 2); in a session it ends at the COMMIT. -/
def Blk.startIn (b : Blk) (m : List Host.Cell) (dom v p : Nat) (staged : Bool) : Blk :=
  let b := b.modVctx dom v (fun _ => { run := false, pctx := p, sw := true })
  let b := if staged then b.stage (.vctxIn dom v p) else b
  b.withdrawAt m 0 p

/-- A switch-out begins (11 R420 steps 1 and 2). -/
def Blk.startOut (b : Blk) (m : List Host.Cell) (dom v p : Nat) : Blk :=
  (b.modVctx dom v (fun e => { e with sw := true })).withdrawAt m dom p

/-- One word of a VCTX command: the switch it starts. -/
def Blk.startWord (b : Blk) (m : List Host.Cell) (dom v p : Nat) (run staged : Bool) : Blk × List VSwitch :=
  let e := b.vctx dom v
  if e.run && (!run || e.pctx ≠ p) then (b.startOut m dom v e.pctx, [.out v e.pctx (if run then some p else none)])
  else if run && !e.run then (b.startIn m dom v p staged, [.into v p])
  else (b, [])

/-- A switch that can end does so: what is left of it, and whether its session has ended (11 R419, R420). A switch waits
for copies not yet given up as well as for active handles (DEDUCED 22), and one to another context until that context is not
owned (11 R417; DEDUCED 120). -/
def Blk.switchStep (b : Blk) (m : List Host.Cell) (dom : Nat) (staged : Bool) : VSwitch → Blk × List VSwitch × Bool
  | .into v p =>
    let e := b.vctx dom v
    if !e.sw || e.pctx ≠ p then (b, [], true)
    else if !(b.handlesAt 0 p).isEmpty then (b, [.into v p], false)
    else if staged then (b, [], false)
    else (((b.modVctx dom v (fun e => { e with run := true, sw := false })).postRescan).sendOwn dom v true, [], false)
  | .out v p next =>
    if !(b.handlesAt dom p).isEmpty then (b, [.out v p next], false)
    else
      let c := ((b.modVctx dom v (fun _ => {})).rescan).sendOwn dom v false
      match next with
      | none => (c, [], false)
      | some q => if b.ownerOf q = 0 then (c.startIn m dom v q false, [.into v q], false) else (b, [.out v p next], false)

/-- Every switch of a command that can end does so. -/
def Blk.switchAll (b : Blk) (m : List Host.Cell) (dom : Nat) (staged : Bool) : List VSwitch → Blk × List VSwitch × Bool
  | [] => (b, [], false)
  | s :: rest =>
    let x := b.switchStep m dom staged s
    let y := x.1.switchAll m dom staged rest
    (y.1, x.2.1 ++ y.2.1, x.2.2 || y.2.2)

/-- The answer of a VCTX command once its switches have gone as far as they can (11 R421). -/
def Blk.switchReply (b : Blk) (m : List Host.Cell) (dom : Nat) (staged : Bool) (ss : List VSwitch) : Blk × Reply :=
  let x := b.switchAll m dom staged ss
  let y := if x.2.1 = ss then x else x.1.switchAll m dom staged x.2.1
  if !y.2.1.isEmpty then (y.1, .wait (.vctx dom y.2.1))
  else (y.1, .st (if x.2.2 || y.2.2 then .lock else .ok))

/-- Words of a VCTX command with V = 1: context, physical context, RUN. -/
def Desc.vctxWords (d : Desc) : List (Nat × Nat × Bool) :=
  ([3, 4, 5, 6].filter (fun k => d.b k 31)).map (fun k => (d.f k 9 0, d.f k 25 16, d.b k 30))

/-- Physical contexts of the members of live CRITICAL and FIRM routes of domain 0. -/
def Blk.admittedAt (b : Blk) (p : Nat) : Bool :=
  b.adm.any (fun x => x.2.domid == 0 && (match b.routeOf x with
    | some r => setHas (b.liveRt.members r) p
    | none => false))

/-- A word moves a member of a live CRITICAL or FIRM route (09 R357). -/
def Blk.movesMember (b : Blk) (dom : Nat) (w : Nat × Nat × Bool) : Bool :=
  let e := b.vctx dom w.1
  (e.run != w.2.2 || (w.2.2 && e.pctx ≠ w.2.1)) &&
  b.adm.any (fun x => x.2.domid == dom && (match b.routeOf x with
    | some r => setHas (b.liveRt.members r) w.1
    | none => false))

/-- The first refusing case of R418, with the eighth of 12 R465. -/
def Blk.vctxRefusal (b : Blk) (dom : Nat) (staged : Bool) (ws : List (Nat × Nat × Bool)) : Option Nat :=
  let vs := ws.map (·.1)
  let ps := (ws.filter (·.2.2)).map (·.2.1)
  let taken (w : Nat × Nat × Bool) : Bool :=
    let o := b.ownerOf w.2.1
    let e := b.vctx dom w.1
    (o ≠ 0 && !(o = dom && (e.run || e.sw) && e.pctx = w.2.1)) || 1 < ps.count w.2.1
  firstCase [false, vs.any ((b.dom dom).sh.cmcount ≤ ·) || vs.any (fun v => 1 < vs.count v),
    ws.any (fun w => w.2.2 && !b.ctxPop w.2.1), ws.any (fun w => w.2.2 && taken w),
    ws.any (fun w => (b.vctx dom w.1).sw), ws.any (fun w => w.2.2 && b.ownerOf w.2.1 = 0 && b.admittedAt w.2.1),
    staged && ws.any (fun w => !w.2.2 || (b.vctx dom w.1).run), vs.any (fun v => (b.remoteHome dom v).isSome)]

def cmdShareVctx : Cmd := fun m d b =>
  let dom := d.f 2 11 0
  let ws := d.vctxWords
  let staged : Bool := b.mode d.ring = .stage
  if b.mode d.ring = .lock then (b, .st .lock)
  else match b.gate dom true true with
    | some r => (b, r)
    | none =>
      if ws.any (fun w => !w.2.2 && w.2.1 ≠ 0) then (b, .st .format)
      else match b.vctxRefusal dom staged ws with
        | some n => (b, .refuse n)
        | none =>
          if !staged && ws.any (b.movesMember dom) then (b, .st .stageRequired)
          else
            let x := ws.foldl (fun a w =>
              let y := a.1.startWord m dom w.1 w.2.1 w.2.2 staged
              (y.1, a.2 ++ y.2)) (b, [])
            x.1.switchReply m dom staged x.2

def cmdSetShare : Cmd := fun m d b =>
  match d.f 1 1 0 with
  | 0 => cmdShareDomain m d b
  | 1 => cmdShareRings m d b
  | _ => cmdShareVctx m d b

/-- The VCTX command executing on a manager ring goes on; it completes when every switch has finished. -/
def Blk.vctxSwitchEnd (b : Blk) (m : List Host.Cell) (n : Nat) : Blk :=
  let r := RingId.mgr n
  (b.pair r).exec.foldl (fun b e => match e.wait with
    | .vctx dom ss =>
      let x := b.switchReply m dom (b.mode r = .stage) ss
      match x.2 with
      | .done st _ _ => x.1.finish m r e st 0 []
      | .wait w => x.1.modPair r (fun p => { p with exec := p.exec.map (fun y => if y.seq = e.seq then { y with wait := w } else y) })
    | _ => b) b

/-! ## Freeze (11 R435 to R438) -/

/-- Sources of a domain, in ascending STT index. -/
def Blk.sourcesOf (b : Blk) (dom : Nat) : List MSrc := b.mapped.filter (fun x => x.2.domid == dom)

/-- The entry of a source, wherever it lives. -/
def Blk.entryOf (b : Blk) (m : List Host.Cell) (i : Nat) : Entry :=
  let st := b.stt i
  if st.res then (b.slot st.slot).entry else b.sstEntry m i

/-- The attachment of a timer belongs to a domain by its OWNER. -/
def Blk.timerOf (b : Blk) (dom key : Nat) : Bool :=
  let a := tabGet {} (b.cl (key / 1024)).att (key % 1024)
  a.ten && (b.stt a.owner).valid && (b.stt a.owner).domid = dom

/-- An entry of the domain's Virtual Context Table runs or is being switched. -/
def Blk.anyRuns (b : Blk) (dom : Nat) : Bool :=
  let s := (b.dom dom).sh
  b.sram.vct.any (fun x => s.vbase ≤ x.1 && x.1 < s.vbase + s.cmcount && (x.2.run || x.2.sw))

def cmdFreeze : Cmd := fun _ d b =>
  let dom := d.f 2 11 0
  match b.gate dom true false with
  | some r => (b, r)
  | none =>
    if b.anyRuns dom then (b, .refuse 1)
    else if b.federated dom then (b, .refuse 2)
    else (b.modDom dom (fun x => { x with st := .freezing, restored := false, line := none, timers := [], expired := [],
                                          fetchTo := some x.pair.cmd.w }), .wait (.freeze dom))

/-- A dispatch record of a domain is queued, running or closing. -/
def Cluster.hasRun (c : Cluster) (dom : Nat) : Bool :=
  c.queue.any (·.domid == dom) || c.rerun.any (·.2.domid == dom) || c.forced.any (·.d.domid == dom) ||
  c.engines.any (fun x => match x.2.st with
    | .idle => false
    | .running r => r.d.domid == dom
    | .closing k _ => k.d.domid == dom)

/-- The domain's indexes that the parked, posted and Geyser bitmaps hold, with the requests they make. -/
def Blk.heldOf (b : Blk) (dom : Nat) : List (Nat × ReofferFrom) :=
  let mine (i : Nat) : Bool := (b.stt i).valid && (b.stt i).domid = dom
  ((b.rank.parked.filter mine).map (fun i => (i, ReofferFrom.parked))) ++
  ((b.rank.posted.filter mine).map (fun i => (i, ReofferFrom.posted))) ++
  ((b.rank.geyserBits.filter (fun x => mine x.1)).map (fun x => (x.1, ReofferFrom.geyser (x.2.getD 0))))

/-- The conditions of R438 but for the scan. -/
def Blk.drained (b : Blk) (dom : Nat) : Bool :=
  let d := b.dom dom
  let mine (i : Nat) : Bool := (b.stt i).domid = dom
  (d.pair.st ≠ .enabled || d.pair.cmd.r = d.pair.cmd.w || d.fetchTo = some d.pair.cmd.r) && d.pair.exec.isEmpty &&
  !(b.cls.any (fun x => x.2.hasRun dom)) && !(b.updates.any (fun u => mine u.stt)) &&
  !(b.rank.offers.any (fun x => mine x.2.stt)) && !(b.tim.waiting.any (fun x => b.timerOf dom x.1)) &&
  !b.recPending (.event dom) && !b.recPending (.completion (.guest dom))

/-- A freeze advances: the scan issues its requests, and at the boundary the domain is FROZEN (11 R438). -/
def Blk.freezeBoundary (b : Blk) (m : List Host.Cell) (dom : Nat) : Blk :=
  if (b.dom dom).st ≠ .freezing then b
  else match b.heldOf dom with
    | x :: xs => (x :: xs).foldl (fun b y => b.issueReoffer y.1 y.2) b
    | [] =>
      if !b.drained dom then b
      else
        let b := b.modDom dom (fun x => { x with st := .frozen })
        b.allExec.foldl (fun b x => if x.2.wait = .freeze dom then b.finish m x.1 x.2 .ok 0 [] else b) b

/-! ## Snapshot (11 R439 to R441) -/

/-- Version of the block: HID.VERSION bits [15:0] (17 R609). -/
def hubVersion : Nat := 0x0201

/-- KIND of a source, Table 4-3. -/
def SrcKind.code : SrcKind → Nat
  | .msi => 0 | .data => 1 | .edge => 2 | .level => 3 | .core => 4 | .internal => 5

/-- A number as a word. -/
def wd (n : Nat) : Word := BitVec.ofNat 32 n

/-- Source record (11 Table 11-9). -/
def Blk.srcRec (b : Blk) (m : List Host.Cell) (x : MSrc) : List Word :=
  let v := encodeEntry (plainEntry (b.entryOf m x.1))
  [wd (pack [(x.2.vintid.toNat, 24, 0), (x.2.kind.code, 3, 24), (b2n (setHas b.rings.frozenBits x.1), 1, 27)]), v.extractLsb' 0 32,
   v.extractLsb' 32 32, 0]

/-- Timers of a domain that are armed or expired: owner, key, whether expired, REMAIN; in ascending owner. -/
def Blk.timersOf (b : Blk) (dom : Nat) : List (Nat × Nat × Bool × Nat) :=
  let ex := (b.dom dom).expired
  let ks := setOf (((b.tim.armed.map (·.1)).filter (b.timerOf dom)) ++ ex)
  let rs := ks.map (fun k => ((tabGet {} (b.cl (k / 1024)).att (k % 1024)).owner, k, setHas ex k,
    if setHas ex k then 0 else tabGet 0 b.tim.armed k - b.tim.tick))
  sortBy (·.1) rs

/-- Timer record (11 Table 11-10). -/
def Blk.timRec (b : Blk) (t : Nat × Nat × Bool × Nat) : List Word :=
  [(b.stt t.1).vintid.setWidth 32, wd (b2n t.2.2.1), wd t.2.2.2, 0]

/-- Attachments of a domain: key, and the lowest-indexed source attached. -/
def Blk.attachesOf (b : Blk) (dom : Nat) : Tab Nat :=
  ((b.sourcesOf dom).filter (·.2.clause.cv)).foldl (fun t x =>
    let k := timerKey x.2.clause.clus x.2.clause.aidx
    if t.any (fun y => y.1 == k) then t else tabPut t k x.1) []

/-- Words filled up to whole lines. -/
def padLines (ws : List Word) : List Word := ws ++ List.replicate ((16 - ws.length % 16) % 16) 0

/-- History record (11 Table 11-6). -/
def Blk.histRec (b : Blk) (k i : Nat) : List Word :=
  let a := tabGet {} (b.cl (k / 1024)).att (k % 1024)
  padLines ([(b.stt i).vintid.setWidth 32, wd a.hlen] ++
    (List.range a.hlen).map (fun n => (tabGet 0 (b.cl (k / 1024)).data (a.hbase + n)).setWidth 32))

/-- One ring's word of the domain line. -/
def ringWord (n : Nat) (q : RingQ) (en ovf : Bool) : Word :=
  wd (pack [(n, 24, 0), (q.log2sz, 4, 24), (b2n en, 1, 28), (b2n ovf, 1, 29)])

/-- Domain line (11 Table 11-8). -/
def domainLine (d : Dom) : List Word :=
  let on : Bool := d.pair.st = .enabled
  [wd d.sh.cmcount, ringWord d.pair.cmd.r d.pair.cmd on false, wd d.pair.cmd.w, ringWord d.pair.cpl.w d.pair.cpl on false,
   wd d.pair.cpl.r, ringWord d.elq.ring.w d.elq.ring (d.elq.st = .enabled) d.elq.overflow, wd d.elq.ring.r, d.elq.lost,
   wd d.sh.elimit, wd (bits d.pair.cpl.base 36 5), wd (bits d.elq.ring.base 36 5), 0, 0, 0, 0, 0]

/-- Every word of an image but the header's line. -/
def Blk.snapBody (b : Blk) (m : List Host.Cell) (dom : Nat) : List Word :=
  domainLine (b.dom dom) ++ padLines ((b.sourcesOf dom).flatMap (b.srcRec m)) ++ padLines ((b.timersOf dom).flatMap b.timRec) ++
  (b.attachesOf dom).flatMap (fun x => b.histRec x.1 x.2)

/-- Lines of a list of words. -/
def toLines : Nat → List Word → List (BitVec 512)
  | 0, _ => []
  | n + 1, ws => lineOfWords (ws.take 16) :: toLines n (ws.drop 16)

/-- CHECK of an image whose header has these 15 words and this body (11 R440). -/
def snapCheck (seq lines : Nat) (head body : List Word) : Word :=
  seededCrc (seq + 6 * 2 ^ 24) lines ((head ++ [0] ++ body).flatMap wordBytes)

/-- Header words 0 to 14 (11 Table 11-7). -/
def Blk.snapHead (b : Blk) (dom lines seq : Nat) : List Word :=
  [0x01D03A1C, wd hubVersion, wd lines, wd seq, wd dom, wd (b.sourcesOf dom).length, wd (b.timersOf dom).length,
   wd (b.attachesOf dom).length, (b.now.extractLsb' 0 24).setWidth 32, (b.now.extractLsb' 24 24).setWidth 32, 0, 0, 0, 0, 0]

/-- Reads of slots at input 2 of these banks (14 R525, R532). -/
def Blk.bankReads (b : Blk) (banks : List Nat) : Blk := banks.foldl (fun b k => b.granted k 2) b

/-- The transfer at input 2 that point 20 holds (14 R531, R545). -/
def Blk.holdGrant (b : Blk) : Blk :=
  { b with arb := { b.arb with stuck := tabPut b.arb.stuck (bits b.inj.cfg.toNat 11 8) 2 } }

/-- The spilled entries of a domain read, each through the Line Cache (10 R393, R405). -/
def Blk.readEntries (b : Blk) (m : List Host.Cell) (dom : Nat) : Blk :=
  ((b.sourcesOf dom).filter (fun x => !x.2.res)).foldl (fun b x => (b.sstRead m x.1).1) b

def cmdSnapshot : Cmd := fun m d b =>
  let dom := d.f 2 11 0
  if !b.seqFree then (b, .wait .sequencer)
  else match b.gate dom false true with
  | some r => (b, r)
  | none =>
    let banks := (b.sourcesOf dom).filterMap (fun x => if x.2.res then some (x.2.slot % 16) else none)
    if !b.arb.stuck.isEmpty then (b, .wait .sequencer)
    else if banks.any (b.injHit 20) then ((b.injDone 20).holdGrant, .wait .sequencer)
    else
      let b := b.readEntries m dom
      let body := b.snapBody m dom
      let lines := 1 + body.length / 16
      if d.f 5 23 0 < lines then (b, .refuse 1)
      else
        let seq := seqInc b.rings.snapSeq
        let head := b.snapHead dom lines seq
        let hdr := lineOfWords (head ++ [snapCheck seq lines head body])
        let at_ := d.lineAt 3
        let b := b.bankReads banks
        let b := { b with rings := { b.rings with snapSeq := seq } }
        let b := ((toLines (lines - 1) body).zipIdx).foldl (fun b x => b.writeLine (at_ + 1 + x.2) x.1 .snapshot) b
        (b, .wait (.snapBody ((List.range (lines - 1)).map (fun k => at_ + 1 + k)) at_ hdr lines))

/-- A snapshot's line is acknowledged: the header follows the last body line, the completion record the header. -/
def Blk.snapAck (b : Blk) (m : List Host.Cell) (line : Nat) : Blk :=
  b.allExec.foldl (fun b x => match x.2.wait with
    | .snapBody left at_ hdr lines =>
      let rest := setDel left line
      let w := if rest.isEmpty then Wait.snapHdr at_ lines else .snapBody rest at_ hdr lines
      let b := if rest.isEmpty then b.writeLine at_ hdr .snapshot else b
      b.modPair x.1 (fun p => { p with exec := p.exec.map (fun e => if e.seq = x.2.seq then { e with wait := w } else e) })
    | .snapHdr at_ lines => if at_ = line then b.finish m x.1 x.2 .ok 0 [wd lines] else b
    | _ => b) b

/-! ## Reset (11 R428 to R433) -/

/-- A command's update of one entry: at input 4, or through the spill path (04 R144, R158). -/
def Blk.cmdUpdate (b : Blk) (m : List Host.Cell) (i : Nat) (k : UpdKind) : Blk :=
  b.rpApply m { stt := i, mapgen := (b.stt i).mapgen, kind := k }

/-- Steps 1 and 3 to 5 of R432, with the copies withdrawn between them when `copies`. -/
def Blk.wipeDomain (b : Blk) (m : List Host.Cell) (dom : Nat) (copies : Bool) : Blk :=
  let b := b.modDom dom (fun d => { d with gen := d.gen + 1 })
  let g := (b.dom dom).gen
  let ss := b.sourcesOf dom
  let b := if copies then ss.foldl (fun b x => (b.withdraw x.1 x.2.mapgen).1) b else b
  let b := ss.foldl (fun b x => (b.cmdUpdate m x.1 (.wipe g)).clearBits x.1) b
  let mine (k : Nat) : Bool := b.timerOf dom k
  let b := { b with tim := { b.tim with armed := b.tim.armed.filter (fun x => !mine x.1),
                                        waiting := b.tim.waiting.filter (fun x => !mine x.1) } }
  b.modDom dom (fun d => { d with expired := [], timers := [] })

/-- An update that a domain command makes for an entry. -/
def UpdKind.isWrite : UpdKind → Bool
  | .wipe _ | .put .. => true
  | _ => false

/-- Every entry that a command of the domain writes is written. -/
def Blk.entriesDone (b : Blk) (dom : Nat) : Bool :=
  !(b.updates.any (fun u => u.kind.isWrite && (b.stt u.stt).domid = dom))

/-- An item in flight carries this generation of a domain (11 R428, R431). -/
def Blk.genInFlight (b : Blk) (dom : Nat) (g : BitVec 8) : Bool :=
  let mine (i : Nat) : Bool := (b.stt i).domid = dom
  let run (d : Dispatch) : Bool := d.domid == dom && d.gen == g
  b.ing.lanes.any (fun x => (x.2.stall.toList ++ x.2.hold.map (·.2)).any (fun e => mine e.stt && e.gen == g)) ||
  b.cls.any (fun x => x.2.queue.any run || x.2.rerun.any (fun y => run y.2) || x.2.forced.any (fun y => run y.d) ||
    x.2.engines.any (fun y => match y.2.st with
      | .idle => false
      | .running r => run r.d
      | .closing k _ => run k.d)) ||
  b.updates.any (fun u => mine u.stt && u.kind.genOf == g) ||
  b.rank.offers.any (fun x => mine x.2.stt && x.2.gen == g) ||
  b.links.any (fun x => x.2.handles.any (fun h => h.2.st ≠ .free && h.2.prox.isNone && mine h.2.stt && h.2.gen == g))

/-- A domain command ends: the domain returns to the state it held before. -/
def Blk.goBack (b : Blk) (dom : Nat) : Blk := b.modDom dom (fun x => { x with st := x.back })

/-- What a reset still has to do once its entries are to be written: that, then the drains of step 6, then it ends. -/
def Blk.resetEnd (b : Blk) (dom : Nat) : Blk × Reply :=
  if !b.entriesDone dom then (b, .wait (.entries dom true))
  else if (b.dom dom).pair.st = .busy || (b.dom dom).elq.st = .busy then (b, .wait (.drains dom))
  else (b.goBack dom, .ok)

/-- Step 6 of R432 begins: both of the domain's rings drain. -/
def Blk.drainRings (b : Blk) (dom : Nat) : Blk :=
  b.modDom dom (fun x =>
    { x with pair := if x.pair.st = .enabled then { x.pair with st := .busy } else x.pair,
             elq := if x.elq.st = .enabled then { x.elq with st := .busy } else x.elq })

/-- A reset of a domain in RESETTING begins, once no item carries the generation it assigns (11 R431, R432). -/
def Blk.resetGo (b : Blk) (m : List Host.Cell) (dom : Nat) : Blk × Reply :=
  if b.genInFlight dom ((b.dom dom).gen + 1) then (b, .wait (.generation dom))
  else ((b.wipeDomain m dom true).drainRings dom).resetEnd dom

def cmdReset : Cmd := fun m d b =>
  let dom := d.f 2 11 0
  match b.gate dom true true with
  | some r => (b, r)
  | none => (b.modDom dom (fun x => { x with st := .resetting, back := x.st })).resetGo m dom

/-! ## Restore (11 R443 to R447) -/

/-- A snapshot image as read. -/
structure SnapImg where
  nsrc : Nat
  ntim : Nat
  line : List Word
  srcs : List (List Word)
  tims : List (List Word)
  hists : List (List Word)
  deriving DecidableEq, Repr

/-- Words of `n` records of 16 bytes each. -/
def recs4 (ws : List Word) : Nat → List (List Word)
  | 0 => []
  | n + 1 => ws.take 4 :: recs4 (ws.drop 4) n

/-- Lines of `n` records of 16 bytes. -/
def lines4 (n : Nat) : Nat := ceilDiv n 4

/-- History records read one after another, each on whole lines; none: they do not fit the words exactly. -/
def histRecs : Nat → List Word → Option (List (List Word))
  | 0, ws => if ws.isEmpty then some [] else none
  | n + 1, ws =>
    match ws with
    | _ :: h :: _ =>
      let len := 16 * ceilDiv (2 + bits h.toNat 11 0) 16
      if ws.length < len then none else (histRecs n (ws.drop len)).map (fun r => ws.take len :: r)
    | _ => none

/-- The header's fixed fields, version and unassigned bits (11 R444 check 1). -/
def snapHeadOk (l : BitVec 512) : Bool :=
  let w (k : Nat) : Nat := (lineWord l k).toNat
  w 0 == 0x01D03A1C && bits (w 1) 15 8 == hubVersion / 256 && bits (w 1) 7 0 ≤ hubVersion % 256 && w 1 < 2 ^ 16 && w 2 < 2 ^ 24 &&
  w 3 < 2 ^ 24 && w 4 < 2 ^ 12 && w 5 < 2 ^ 20 && w 6 < 2 ^ 15 && w 7 < 2 ^ 15 && w 8 < 2 ^ 24 && w 9 < 2 ^ 24 &&
  [10, 11, 12, 13, 14].all (fun k => w k == 0)

/-- Unassigned bits of the domain line are 0. -/
def domLineOk (ws : List Word) : Bool :=
  let w (k : Nat) : Nat := (ws.getD k 0).toNat
  w 0 < 2 ^ 11 && w 1 < 2 ^ 29 && w 2 < 2 ^ 24 && w 3 < 2 ^ 29 && w 4 < 2 ^ 24 && w 5 < 2 ^ 30 && w 6 < 2 ^ 24 && w 8 < 2 ^ 24 &&
  [11, 12, 13, 14, 15].all (fun k => w k == 0)

/-- Unassigned bits of a source, a timer and a history record are 0. -/
def srcRecOk (r : List Word) : Bool :=
  (r.getD 0 0).toNat < 2 ^ 28 && (r.getD 1 0).toNat &&& 0xFF000D80 == 0 && (r.getD 2 0).toNat < 2 ^ 24 && r.getD 3 0 == 0
def timRecOk (r : List Word) : Bool :=
  (r.getD 0 0).toNat < 2 ^ 24 && (r.getD 1 0).toNat < 2 && (r.getD 2 0).toNat < 2 ^ 24 && r.getD 3 0 == 0
def histRecOk (r : List Word) : Bool :=
  let n := (r.getD 1 0).toNat
  n < 2 ^ 12 && (r.getD 0 0).toNat < 2 ^ 24 && ((r.drop 2).take n).all (fun w => w.toNat < 2 ^ 24) && (r.drop (2 + n)).all (· == 0)

/-- The image's parts, when its size and its unassigned bits are as R444 check 1 asks. -/
def parseSnap (head : BitVec 512) (ws : List Word) : Option SnapImg :=
  let w (k : Nat) : Nat := (lineWord head k).toNat
  let body := ws.drop 16
  let a := 16 * lines4 (w 5)
  let c := 16 * lines4 (w 6)
  let sw := (body.drop 16).take a
  let tw := (body.drop (16 + a)).take c
  match histRecs (w 7) (body.drop (16 + a + c)) with
  | none => none
  | some hs =>
    let img : SnapImg := { nsrc := w 5, ntim := w 6, line := body.take 16, srcs := recs4 sw (w 5), tims := recs4 tw (w 6), hists := hs }
    if body.length < 16 || sw.length ≠ a || tw.length ≠ c || !domLineOk img.line || !(img.srcs.all srcRecOk) || !(img.tims.all timRecOk) ||
       !(hs.all histRecOk) || (sw.drop (4 * w 5)).any (· ≠ 0) || (tw.drop (4 * w 6)).any (· ≠ 0) then none
    else some img

/-- Source of a record's VINTID in a domain. -/
def Blk.recSource (b : Blk) (dom : Nat) (r : List Word) : Option Nat := b.findSource dom ((r.getD 0 0).setWidth 24)

/-- The attachment of a source, when it has one. -/
def Blk.attachKey (b : Blk) (i : Nat) : Option Nat :=
  let c := (b.stt i).clause
  if c.cv then some (timerKey c.clus c.aidx) else none

/-- The attachment entry at a key. -/
def Blk.attAt (b : Blk) (k : Nat) : Attach := tabGet {} (b.cl (k / 1024)).att (k % 1024)

/-- Checks 3 to 7 of Table 11-11. -/
def Blk.restoreRefusal (b : Blk) (dom : Nat) (img : SnapImg) : Option Nat :=
  let d := b.dom dom
  let vs := img.srcs.map (fun r => bits (r.getD 0 0).toNat 23 0)
  let w (k : Nat) : Nat := (img.line.getD k 0).toNat
  let same (on : Bool) (sz : Nat) (q : Option RingQ) : Bool := !on || (match q with
    | some q => q.log2sz == sz
    | none => false)
  firstCase [!(img.srcs.all (fun r => match b.recSource dom r with
      | some i => (b.stt i).kind.code == bits (r.getD 0 0).toNat 26 24
      | none => false)) || vs.any (fun v => 1 < vs.count v),
    w 0 ≠ d.sh.cmcount,
    !(img.tims.all (fun r => match b.recSource dom r with
      | some i => (match b.attachKey i with
        | some k => (b.attAt k).ten && (b.attAt k).owner == i
        | none => false)
      | none => false)),
    !(img.hists.all (fun r => match b.recSource dom r with
      | some i => (match b.attachKey i with
        | some k => (b.attAt k).hlen == (r.getD 1 0).toNat
        | none => false)
      | none => false)),
    !(same (bit (w 1) 28) (bits (w 1) 27 24) d.recEn.cmd && same (bit (w 3) 28) (bits (w 3) 27 24) d.recEn.cpl &&
      same (bit (w 5) 28) (bits (w 5) 27 24) d.recEn.elq)]

/-- The domain line as recorded for THAW_DOMAIN. -/
def domLineOf (ws : List Word) : DomLine :=
  let w (k : Nat) : Nat := (ws.getD k 0).toNat
  let q (a sz n : Nat) : RingQ := { log2sz := bits (w sz) 27 24, w := n, r := a }
  { cmd := q (bits (w 1) 23 0) 1 (w 2), cmdEn := bit (w 1) 28, cpl := q (w 4) 3 (bits (w 3) 23 0), cplEn := bit (w 3) 28,
    elq := q (w 6) 5 (bits (w 5) 23 0), elqEn := bit (w 5) 28, overflow := bit (w 5) 29, lost := ws.getD 7 0,
    cplBase := ws.getD 9 0, elqBase := ws.getD 10 0 }

/-- The entry that a source record holds (11 Table 11-9). -/
def recEntry (r : List Word) : Entry := decodeEntry ((r.getD 2 0) ++ (r.getD 1 0))

/-- A history window written from its record. -/
def Blk.writeWindow (b : Blk) (k : Nat) (r : List Word) : Blk :=
  let a := b.attAt k
  let ws := ((r.drop 2).take (min a.hlen (r.getD 1 0).toNat)).zipIdx
  b.modCl (k / 1024) (fun c => ws.foldl (fun c x => c.dataPut (a.hbase + x.2) (x.1.setWidth 24)) c)

/-- What the second reading writes (11 R445). -/
def Blk.restoreWrite (b : Blk) (m : List Host.Cell) (dom : Nat) (img : SnapImg) : Blk :=
  let g := (b.dom dom).gen
  let b := img.srcs.foldl (fun b r => match b.recSource dom r with
    | none => b
    | some i =>
      let b := b.cmdUpdate m i (.put (recEntry r) g)
      { b with rings := { b.rings with frozenBits := setPut b.rings.frozenBits i (bit (r.getD 0 0).toNat 27) } }) b
  let b := img.hists.foldl (fun b r => match (b.recSource dom r).bind b.attachKey with
    | none => b
    | some k => b.writeWindow k r) b
  let ts := img.tims.filterMap (fun r => ((b.recSource dom r).bind b.attachKey).map (fun k =>
    (k, if bit (r.getD 1 0).toNat 0 then 0 else (r.getD 2 0).toNat)))
  b.modDom dom (fun d => { d with timers := ts.foldl (fun t x => tabPut t x.1 x.2) [], line := some (domLineOf img.line),
                                  restored := true })

/-- The check of an image's words. -/
def snapSound (head : BitVec 512) (ws : List Word) : Bool :=
  snapCheck (lineWord head 3).toNat (lineWord head 2).toNat (ws.take 15) (ws.drop 16) == lineWord head 15

/-- The restore ends with its entries written: the domain is FROZEN again (11 R445, R446). -/
def Blk.restoreDone (b : Blk) (dom : Nat) (good : Bool) : Blk × Reply :=
  if b.entriesDone dom then (b.goBack dom, .st (if good then .ok else .check)) else (b, .wait (.entries dom good))

/-- A second reading that failed: steps 1 and 3 to 5 of R432, and nothing is left recorded (11 R446). -/
def Blk.restoreUndo (b : Blk) (m : List Host.Cell) (dom : Nat) : Blk × Reply :=
  if b.genInFlight dom ((b.dom dom).gen + 1) then (b, .wait (.generation dom))
  else
    let b := b.wipeDomain m dom false
    (b.modDom dom (fun d => { d with line := none, restored := true })).restoreDone dom false

/-- The second reading, which writes what it reads; one that differs from the first in its check, or a line of which cannot
be read, fails (11 R445, R446). What a failed one has written of the history windows stays (DESIGN CHOICE 116). -/
def Blk.secondRead (b : Blk) (m : List Host.Cell) (dom at_ : Nat) (check : Word) : Blk × Reply :=
  let n := (lineWord (b.hostLine m at_) 2).toNat
  let x := b.readLines m at_ n
  let ws := lineWords x.2.1
  let head := x.2.1.headD 0
  let img := parseSnap head ws
  let b := match img with
    | some img => x.1.restoreWrite m dom img
    | none => x.1
  if !x.2.2 then b.restoreUndo m dom
  else if snapSound head ws && lineWord head 15 == check && img.isSome then b.restoreDone dom true
  else (b.cvuMismatch 3 at_).restoreUndo m dom

def cmdRestore : Cmd := fun m d b =>
  let dom := d.f 2 11 0
  if !b.seqFree then (b, .wait .sequencer)
  else match b.gate dom false true with
  | some r => (b, r)
  | none =>
    let at_ := d.lineAt 3
    let h := b.readOnce m at_
    match h.2 with
    | none => (h.1, .st .check)
    | some head =>
      if !snapHeadOk head then (h.1, .st .format)
      else
        let x := h.1.readLines m at_ (lineWord head 2).toNat
        let ws := lineWords x.2.1
        let inj := x.1.injHit 14 0
        let b := if inj then x.1.injDone 14 else x.1
        if !x.2.2 then (b, .st .check)
        else match parseSnap head ws with
          | none => (b, .st .format)
          | some img =>
            if inj || !snapSound head ws then (b.cvuMismatch 3 at_, .st .check)
            else match b.restoreRefusal dom img with
              | some k => (b, .refuse k)
              | none =>
                (b.modDom dom (fun x => { x with st := .restoring, back := x.st }),
                  .wait (.secondReading dom (lineWord head 15) false))

/-! ## Thaw (11 R448 to R451) -/

/-- A record resealed for its new address, if it verifies at its old one (11 R449). -/
def Blk.reseal (b : Blk) (m : List Host.Cell) (q : RingQ) (old : Word) (off tag n : Nat) (k : WKind) : Blk :=
  let addr := q.addr 32 n + off
  let h := lineHalf (b.sstData m (addr / 64)) (addr / 32 % 2)
  let ws := (List.range 7).map (fun i => h.extractLsb' (32 * i) 32)
  let oldAddr := old.toNat * 32 + (addr - q.base)
  if entryCheck n tag oldAddr ws = h.extractLsb' 224 32 then b.writeRec m addr (ws ++ [entryCheck n tag addr ws]) k else b

/-- Every record from CSEQ up to WSEQ. -/
def Blk.resealAll (b : Blk) (m : List Host.Cell) (q : RingQ) (old : Word) (off tag : Nat) (k : WKind) : Blk :=
  (List.range (seqDist q.r q.w)).foldl (fun b i => b.reseal m q old off tag ((q.r + i) % 2 ^ 24) k) b

/-- A ring enabled with the counts of the domain line, or 0 (11 R448 step 1). -/
def thawRing (en : RingQ) (counts : Option RingQ) : RingQ :=
  match counts with
  | some c => { en with w := c.w, r := c.r }
  | none => en.zero

/-- Steps 1 and 2 of R448, for a domain that RESTORE_DOMAIN has written. -/
def Blk.thawRings (b : Blk) (m : List Host.Cell) (dom : Nat) : Blk :=
  let d := b.dom dom
  let cnt (f : DomLine → RingQ) : Option RingQ := d.line.map f
  let b := match d.recEn.cmd, d.recEn.cpl with
    | some c, some p => b.modDom dom (fun x => { x with pair := { x.pair with st := .enabled, cmd := thawRing c (cnt (·.cmd)),
                                                                              cpl := thawRing p (cnt (·.cpl)) } })
    | _, _ => b
  let b := match d.recEn.elq with
    | some q =>
      (b.modDom dom (fun x => { x with elq :=
        { ring := thawRing q (cnt (·.elq)), st := .enabled, overflow := (d.line.map (·.overflow)).getD false,
          lost := (d.line.map (·.lost)).getD 0 } })).writeHeader dom
    | none => b
  match d.line with
  | none => b
  | some l =>
    let b := if d.recEn.cpl.isSome then b.resealAll m (b.dom dom).pair.cpl l.cplBase 0 2 (.completion (.guest dom)) else b
    if d.recEn.elq.isSome then b.resealAll m (b.dom dom).elq.ring l.elqBase 64 3 (.event dom) else b

/-- Step 3 of R448: recorded timers armed, expired ones expire at once. -/
def Blk.thawTimers (b : Blk) (m : List Host.Cell) (dom : Nat) (rec_ : Tab Nat) (ex : NSet) : Blk :=
  let b := (rec_.filter (fun x => x.2 ≠ 0)).foldl (fun b x =>
    { b with tim := { b.tim with armed := tabPut b.tim.armed x.1 (b.tim.tick + x.2) } }) b
  let due := setOf ((rec_.filter (fun x => x.2 = 0)).map (·.1) ++ ex)
  due.foldl (fun b k => if (b.stt (b.attAt k).owner).domid = dom then b.timerRequest m k b.now else b) b

/-- Step 4 of R448: each frozen arrival bit is one arrival, and is cleared. -/
def Blk.thawArrivals (b : Blk) (m : List Host.Cell) (dom : Nat) : Blk :=
  let is := b.rings.frozenBits.filter (fun i => (b.stt i).domid = dom)
  is.foldl (fun b i =>
    let st := b.stt i
    let b := { b with rings := { b.rings with frozenBits := setDel b.rings.frozenBits i } }
    if st.kind = .level then b.sampleLevel m i
    else b.cmdUpdate m i (.lostArrival b.now (b.dom dom).gen)) b

/-- Step 5 of R448: a re-offer request for each entry that is pending and not active. -/
def Blk.thawOffers (b : Blk) (m : List Host.Cell) (dom : Nat) : Blk :=
  (b.sourcesOf dom).foldl (fun b x =>
    let e := b.entryOf m x.1
    if e.pend && !e.act then b.issueReoffer x.1 .parked else b) b

def cmdThaw : Cmd := fun m d b =>
  let dom := d.f 2 11 0
  match b.gate dom false true with
  | some r => (b, r)
  | none =>
    let x := b.dom dom
    let b := if x.restored then b.thawRings m dom else b
    let b := b.modDom dom (fun y => { y with st := .live, recEn := {}, line := none, restored := false, timers := [], expired := [],
                                             fetchTo := none })
    let b := b.thawTimers m dom x.timers x.expired
    (((b.thawArrivals m dom).readEntries m dom).thawOffers m dom, .ok)

/-! ## Which command an opcode names -/

/-- The command of each opcode of Table 10-4. -/
def cmdOf : Nat → Cmd
  | 0x01 => cmdMap
  | 0x02 => cmdUnmap
  | 0x03 => cmdSetRoute
  | 0x04 => cmdSetClass
  | 0x05 => cmdSetEnvelope
  | 0x06 => cmdLoadClause
  | 0x07 => cmdAttach
  | 0x08 => cmdReserveSlots
  | 0x09 => cmdResidency
  | 0x0A => cmdSetTimer
  | 0x0B => cmdSetShare
  | 0x10 => cmdStageBegin
  | 0x11 => cmdCommit
  | 0x12 => cmdAbandon
  | 0x20 => cmdFreeze
  | 0x21 => cmdSnapshot
  | 0x22 => cmdRestore
  | 0x23 => cmdThaw
  | 0x24 => cmdReset
  | 0x30 => cmdSendCoreMsg
  | 0x31 => cmdQuery
  | 0x38 => cmdFlush
  | 0x39 => cmdInvalidate
  | _ => cmdFence

/-- Every waiting descriptor that can now go on does so (01 R21, 05 R196). -/
def Blk.pump (b : Blk) (m : List Host.Cell) : Blk :=
  if !b.awake then b
  else b.allExec.foldl (fun b x =>
    if x.2.wait.retries && (b.pair x.1).exec.any (fun e => e.seq == x.2.seq) then
      b.tryAgain m x.1 x.2 (cmdOf ((lineWord x.2.line 0).toNat % 256))
    else b) b

/-- A wait that ends by itself once what it waits for has happened. -/
def Wait.ends : Wait → Bool
  | .arrivals _ | .generation _ | .entries .. | .secondReading .. => true
  | _ => false

/-- What a descriptor in such a wait answers now; none: it does not go on in this step. -/
def Blk.waitStep (b : Blk) (m : List Host.Cell) (r : RingId) (e : Exec) : Option (Blk × Reply) :=
  let d : Desc := { ring := r, seq := e.seq, line := e.line }
  match e.wait with
  | .arrivals k => if b.arrivalsWait r e.seq then none else some (b, arrivalsReply k)
  | .generation dom => some (if d.op = 0x24 then b.resetGo m dom else b.restoreUndo m dom)
  | .entries dom good => some (if d.op = 0x24 then b.resetEnd dom else b.restoreDone dom good)
  | .secondReading dom c due =>
    if b.dbg.haltSeq then none
    else some (if due then b.secondRead m dom (d.lineAt 3) c else (b, .wait (.secondReading dom c true)))
  | _ => none

/-- Descriptors in such waits go on (04 R144; 11 R431, R432, R445). -/
def Blk.waitsGo (b : Blk) (m : List Host.Cell) : Blk :=
  if !b.awake then b
  else (b.allExec.filter (fun x => x.2.wait.ends && !b.spillHolds ((lineWord x.2.line 0).toNat % 256))).foldl (fun b x =>
    match b.waitStep m x.1 x.2 with
    | some y => y.1.answer m x.1 x.2 y.2
    | none => b) b

end Sys2Proof.Machine
end

