-- ==== Sys2Proof/Machine/Errors.lean ====
section
/-! DEFINITION. Errors and their recovery: failed accesses, acknowledgements, entry rebuild, scrubbers, revoked grants,
and the Setup Lock (10 R396, R397, R401; 14 R515 to R541). -/
namespace Sys2Proof.Machine
open Sys2Proof

/-! ## Outstanding host-memory accesses (10 R396, R397; 11 R441; 14 R522) -/

/-- An outstanding whole-line write leaves the list. -/
def Blk.dropOut (b : Blk) (w : OutW) : Blk := { b with fp := { b.fp with out := b.fp.out.erase w } }

/-- A snapshot whose line cannot be written completes with CHECK, and its remaining lines are not written (14
Table 14-2). -/
def Blk.snapFails (b : Blk) (m : List Host.Cell) : Blk :=
  let b := { b with fp := { b.fp with out := b.fp.out.filter (fun w => w.kind != WKind.snapshot) } }
  b.allExec.foldl (fun b x => match x.2.wait with
    | .snapBody .. | .snapHdr .. => b.finish m x.1 x.2 .check 0 []
    | _ => b) b

/-- Code 25 of Table 14-1: INDEX holds host address bits [29:6] of the line. -/
def Blk.writeLost (b : Blk) (line : Nat) : Blk := b.uncorr 25 2 line

/-- An outstanding write of a line failed again: retried up to 3 times, then given up as its stream gives; `spill` says
what becomes of a spill image (14 R522). -/
def Blk.outFails (b : Blk) (m : List Host.Cell) (w : OutW) (spill : Blk → Blk) : Blk :=
  let b := b.fpFail (w.tries = 0)
  if w.tries < 3 then
    { b with fp := { b.fp with out := b.fp.out.map (fun x => if x = w then { x with tries := x.tries + 1 } else x) } }
  else
    let b := b.dropOut w
    match w.kind with
    | .snapshot => b.snapFails m
    | .spillImage => spill b
    | _ => b.writeLost w.line

/-- A write-back failed again: retried up to 3 times, then lost (14 R522). -/
def Blk.bufFails (b : Blk) (m : List Host.Cell) (l : CLine) : Blk :=
  let b := b.fpFail (l.tries = 0)
  if l.tries < 3 then
    { b with lc := { b.lc with bufs := b.lc.bufs.map (fun x => if x = l then { x with tries := x.tries + 1 } else x) } }
  else (({ b with lc := { b.lc with bufs := b.lc.bufs.erase l } }).writeLost l.line).flushStep m l.line

/-- An attempt of an outstanding access to a line failed (14 R522): a whole-line write, a write-back, or the fill of a
Spill State line, which is retried until it succeeds. With none outstanding, it is the next attempt to read the line that
fails (DESIGN CHOICE 25). -/
def Blk.accessFails (b : Blk) (m : List Host.Cell) (line : Nat) (spill : Blk → Blk) : Blk :=
  match b.fp.out.find? (fun w => w.line == line) with
  | some w => b.outFails m w spill
  | none =>
    match b.lc.bufs.find? (fun l => l.line == line && !l.held) with
    | some l => b.bufFails m l
    | none =>
      if setHas b.lc.fills line then
        let b := b.fpFail (!setHas b.lc.fillFailed line)
        { b with lc := { b.lc with fillFailed := setAdd b.lc.fillFailed line } }
      else { b with fp := { b.fp with fail := tabMod 0 b.fp.fail line (· + 1) } }

/-- The fill of a line arrives: the line takes a place, and the spill path serves its head; with no place free the fill
is tried again (10 R396, R402). -/
def Blk.lineFill (b : Blk) (m : List Host.Cell) (line : Nat) : Blk :=
  if !setHas b.lc.fills line then b
  else if b.readFails line then
    let b := b.readFailed line (!setHas b.lc.fillFailed line)
    { b with lc := { b.lc with fillFailed := setAdd b.lc.fillFailed line } }
  else
    let gone (c : LCache) : LCache := { c with fills := setDel c.fills line, fillFailed := setDel c.fillFailed line }
    if !b.lc.on then { b with lc := gone b.lc }
    else match ({ b with lc := gone b.lc }).sstFill m line with
      | none => b
      | some b => (b.spillServe m).pump m

/-- A request for a line waits: the spill path's head, a record, or a command. -/
def Blk.lineWanted (b : Blk) (line : Nat) : Bool :=
  (b.rings.spillq.head?.any (fun u => b.spilled u && b.sstLine u.stt == line)) ||
  (b.fp.recs.head?.any (fun w => w.line == line)) ||
  b.allExec.any (fun x => x.2.wait == .line line)

/-- A waiting request is served from the line buffer whose write-back was acknowledged, and the line is placed in the cache
again, clean (10 R397). -/
def Blk.placeAgain (b : Blk) (line : Nat) (d : BitVec 512) : Blk :=
  if b.lc.on && (b.lc.find line).isNone && b.lineWanted line then
    match b.makeRoom with
    | some c => { b with lc := c.front { line := line, data := d } }
    | none => b
  else b

/-- The write-back of a line is acknowledged: the line buffer is free, the requests that waited for the line are served, and
flushes go on (10 R397, R399). -/
def Blk.bufAck (b : Blk) (m : List Host.Cell) (l : CLine) : Blk :=
  let b := ({ b with lc := { b.lc with bufs := b.lc.bufs.erase l } }).placeAgain l.line l.data
  let b := b.flushStep m l.line
  let b := match b.rings.spillq with
    | u :: _ => if b.spilled u && b.sstLine u.stt = l.line && b.sstReady l.line then b.spillServe m else b
    | [] => b
  b.pump m

/-- Host memory and the block after the write-back of a line is acknowledged. -/
def State.writebackAck (s : State) (line : Nat) : State :=
  match s.blk.lc.bufs.find? (fun l => l.line == line && !l.held) with
  | none => s
  | some l =>
    let m := memWriteLine s.mem line l.data
    { s with mem := m, blk := (s.blk.bufAck m l).settleNotes m }

/-! ## The Line Cache's switch (10 R401, R403) -/

/-- The cache enabled (10 R403). -/
def Blk.cacheOn (b : Blk) : Blk :=
  let stale := !b.lc.lines.isEmpty && !b.lc.invalSince
  let c := { b.lc with en := true, st := .enabled, again := false, stale := b.lc.stale || stale }
  if stale then ({ b with lc := c }).raise 0x0E else { b with lc := c }

/-- LCACHE.CTL.EN written. -/
def Blk.writeCacheEn (b : Blk) (v : Bool) : Blk :=
  if v then match b.lc.st with
    | .disabled => b.cacheOn
    | .busy => { b with lc := { b.lc with en := true, again := true } }
    | .enabled => b
  else match b.lc.st with
    | .enabled => { b with lc := { b.lc with en := false, st := .busy, invalSince := false } }
    | .busy => { b with lc := { b.lc with en := false, again := false } }
    | .disabled => b

/-- The cache's drain finishes once no fill, write-back or hold is left (10 R401, R403). -/
def Blk.cacheDrained (b : Blk) : Blk :=
  if b.lc.st ≠ .busy || !b.lc.fills.isEmpty || b.lbufs ≠ 0 || b.lc.lines.any (·.held) then b
  else
    let dirty := b.lc.lines.any (·.dirty)
    let b := { b with lc := { b.lc with st := .disabled, dirtyAtDisable := b.lc.dirtyAtDisable || dirty } }
    if b.lc.again then b.cacheOn else b

/-! ## Entry rebuild (14 R518) -/

/-- A state in which some handle or proxy names an index, with its SHR. -/
def Blk.namedBy (b : Blk) (i : Nat) (p : HState → Bool) : Option Bool :=
  let hs := b.links.flatMap (fun l => l.2.handles.filter (fun h => h.2.prox == none)) ++ b.fed.peers.flatMap (·.2.proxies)
  (hs.find? (fun h => h.2.stt == i && p h.2.st)).map (fun h => h.2.shr)

/-- The entry that the error collector writes for an index; `used` is the slot's ownership. -/
def Blk.rebuilt (b : Blk) (i : Nat) (used : Bool) : Entry :=
  let st := b.stt i
  let pend := if st.kind = .level then setHas b.ing.level i == st.pol else true
  let dlv := b.namedBy i (fun s => s == .queued || s == .standing)
  { pend := pend, act := (b.namedBy i (· == .active)).isSome, dlv := dlv.isSome, shr := dlv.getD false,
    lvl := if st.kind = .level then pend else false, used := used, rclass := st.rank.cls, rprio := st.rank.prio,
    gen := (b.dom st.domid).gen, stamp := b.stampNow }

/-- A rebuilt entry enters its place by a read-modify-write at input 4, and is offered if it is due one. A slot that no
source owns is written as an empty one (DEDUCED 23). -/
def Blk.rebuildSlot (b : Blk) (m : List Host.Cell) (n : Nat) : Blk :=
  if !setHas b.ecc.entryBad n then b
  else
    let b := { b with ecc := { b.ecc with entryBad := setDel b.ecc.entryBad n } }
    let bank := n % 16
    let i := match b.sram.stt.find? (fun x => x.2.valid && x.2.res && x.2.slot == n) with
      | some x => x.1
      | none => (b.slot n).owner
    let st := b.stt i
    let owned : Bool := st.valid && st.res && st.slot = n
    let e := b.rebuilt i true
    if !owned && !e.act then (b.modSlot n (fun _ => {})).granted bank 4
    else
      let b := (b.rankFree m bank).granted bank 4
      let r := if owned then b.offerIf bank i st e else (b, { e with pend := false })
      r.1.modSlot n (fun _ => { entry := r.2, owner := i })

/-- A spilled entry rebuilt in its Spill State line, once that can be had. -/
def Blk.rebuildSpilled (b : Blk) (m : List Host.Cell) (i : Nat) : Blk :=
  if !setHas b.ecc.spillBad i then b
  else match b.sstFill m (b.sstLine i) with
    | none => b
    | some b =>
      let b := { b with ecc := { b.ecc with spillBad := setDel b.ecc.spillBad i } }
      let b := b.rankFree m 16
      let r := b.offerIf 16 i (b.stt i) (b.rebuilt i false)
      r.1.sstWrite m i r.2

/-! ## Scrubbers and revoked grants (14 R531 to R535) -/

/-- A bank that has a request at inputs 2 to 7 standing, or a held grant. -/
def Blk.bankBusy (b : Blk) (bank : Nat) : Bool :=
  b.arb.stuck.any (fun x => x.1 == bank) || b.ing.lanes.any (fun l => l.2.hold.any (fun x => x.1 == bank))

/-- The scrubber's request of a bank is granted: the next row is read. -/
def Blk.scrubRow (b : Blk) (bank : Nat) : Blk :=
  let row := tabGet 0 b.arb.scrubRow bank
  let b := (b.slotRead (16 * row + bank)).granted bank 1
  { b with arb := { b.arb with scrubRow := tabSet 0 b.arb.scrubRow bank ((row + 1) % 16384),
                               scrubPend := setDel b.arb.scrubPend bank } }

/-- The period of one bank: a request that still waits is missed, and a new one waits while the bank has other requests. -/
def Blk.scrubBank (b : Blk) (bank : Nat) : Blk :=
  let b := if setHas b.arb.scrubPend bank && !b.bankBusy bank then b.scrubRow bank else b
  if setHas b.arb.scrubPend bank then
    ({ b with err := { b.err with scrubLateCnt := satInc b.err.scrubLateCnt,
                                  st := { b.err.st with scrubLate := true } } }).raise 0x10
  else if b.bankBusy bank then { b with arb := { b.arb with scrubPend := setAdd b.arb.scrubPend bank } }
  else b.scrubRow bank

/-- The scrub period of every bank (14 R533). -/
def Blk.scrubPeriod (b : Blk) : Blk :=
  if !b.awake || !b.err.scrubEn || !b.clientUp 46 then b else (List.range 16).foldl Blk.scrubBank b

/-! ## Uncorrectable words of the other SRAMs (14 R516, R517, R519, R535; Table 14-1) -/

/-- Code 3, each of the 8 entries of a dirty line waits for its rebuild, or code 4, a clean line is dropped. -/
def Blk.lineLost (b : Blk) (line : Nat) : Blk :=
  match b.lc.find line with
  | none => b
  | some l =>
    if l.dirty then
      let is := (List.range 9).map (fun k => (64 * line - b.sstBase) / 8 + k)
      let bad := is.foldl (fun t i => if b.sstLine i = line then setAdd t i else t) b.ecc.spillBad
      ({ b with ecc := { b.ecc with spillBad := bad } }).uncorr 3 1 line
    else ({ b with lc := { b.lc with lines := b.lc.lines.filter (fun k => k.line ≠ line) } }).uncorr 4 0 line

/-- Code 7: the records under a lost attachment or region are closed without running. -/
def Blk.attachLost (b : Blk) (c idx : Nat) : Blk :=
  let gone := (b.cl c).queue.filter b.attLost
  (b.modCl c (fun x => { x.forceAll gone with queue := x.queue.filter (fun d => !gone.contains d) })).uncorr 7 1 idx

/-- A list with its element `k` replaced, or dropped where the answer is none. -/
def listAt {α : Type} (l : List α) (k : Nat) (f : α → Option α) : List α :=
  l.take k ++ ((l.drop k).take 1).filterMap f ++ l.drop (k + 1)

/-- An item whose names are lost is discarded; another keeps its effect without its samples, stamped now (codes 8, 9). -/
def Blk.itemEvent (b : Blk) (names : Bool) (e : Event) : Option Event :=
  if names then none else some { e with time := b.now, pl := { e.pl with ns := 0, samples := [] } }

def Blk.itemUpd (b : Blk) (names : Bool) (u : Upd) : Option Upd :=
  if names then none
  else some { u with kind := match u.kind with
    | .event e => .event ((b.itemEvent false e).getD e)
    | .lostArrival _ g => .lostArrival b.now g
    | .timer k _ g => .timer k b.now g
    | k => k }

def Blk.itemRun (b : Blk) (names : Bool) (d : Dispatch) : Option Dispatch :=
  if names then none
  else some { d with cause := .lost, time := b.now.setWidth 48, pl := { d.pl with ns := 0, samples := [] } }

/-- Codes 8 and 9. -/
def Blk.itemLost (b : Blk) (names : Bool) (idx : Nat) : Blk := if names then b.uncorr 8 2 idx else b.uncorr 9 0 idx

/-- The 64 indexes of word `w` of a bitmap. -/
def wordBits (w : Nat) : List Nat := (List.range 64).map (fun k => 64 * w + k)

/-- An instance that some handle or proxy names, or whose copies are about to be sent. -/
def Blk.isNamed (b : Blk) (i : Nat) : Bool :=
  (b.namedBy i (fun _ => true)).isSome || b.hasCopies i (b.stt i).mapgen

/-- Code 16, after the word was written as zero: instances that no copy stands for are parked, and a rescan starts (14
R519). -/
def Blk.reparkWord (b : Blk) (m : List Host.Cell) (w : Nat) : Blk :=
  let due := (wordBits w).filter (fun i => (b.stt i).valid && (b.entryOf m i).dlv && !b.isNamed i)
  ((due.foldl Blk.park b).rescan).uncorr 16 0 w

/-- Code 22: the link is trained again; the entry is not reported, and a lost floor is 0 (06 Table 6-8). -/
def Blk.tileEntryLost (b : Blk) (n c : Nat) (f : Ctx → Ctx) : Blk :=
  ((b.modTa n (fun a => a.modCtx c f)).retrainIf n).uncorr 22 0 n

/-- A word of another SRAM is found uncorrectable: what Table 14-1 gives for its structure. -/
def Blk.upset (b : Blk) (m : List Host.Cell) : Upset → Blk
  | .cacheLine line => b.lineLost line
  | .program c a => (b.modCl c (fun x => { x with progBad := setAdd x.progBad a })).uncorr 5 1 a
  | .data c a => (b.modCl c (fun x => { x with dataBad := setAdd x.dataBad a })).uncorr 6 1 a
  | .attachment c a => ({ b with ecc := { b.ecc with attBad := setAdd b.ecc.attBad (timerKey c a) } }).attachLost c a
  | .region c r => ({ b with ecc := { b.ecc with regBad := setAdd b.ecc.regBad (64 * c + r) } }).attachLost c r
  | .queued c k names => (b.modCl c (fun x => { x with queue := listAt x.queue k (b.itemRun names) })).itemLost names k
  | .holding q bank names =>
    (b.modLane q (fun l => { l with hold := l.hold.filterMap (fun x =>
      if x.1 = bank then (b.itemEvent names x.2).map (fun e => (bank, e)) else some x) })).itemLost names bank
  | .spillPath k names =>
    ({ b with rings := { b.rings with spillq := listAt b.rings.spillq k (b.itemUpd names) } }).itemLost names k
  | .notice n bank names =>
    (b.modLink n (fun l => { l with notices := tabMod [] l.notices bank (fun q => listAt q 0 (b.itemUpd names)) })).itemLost
      names bank
  | .sttEntry i => ({ b with ecc := { b.ecc with sttBad := setAdd b.ecc.sttBad i } }).uncorr 10 2 i
  | .requester r => ({ b with ecc := { b.ecc with reqBad := setAdd b.ecc.reqBad r } }).uncorr 10 2 r
  | .envelope n => ({ b with ecc := { b.ecc with envBad := setAdd b.ecc.envBad n } }).uncorr 11 2 n
  | .route i => b.routeLost false i
  | .group g => b.routeLost true g
  | .vctEntry k => ({ b with ecc := { b.ecc with vctBad := setAdd b.ecc.vctBad k } }).uncorr 13 2 k
  | .priority p => ({ b with rank := { b.rank with cpt := tabSet 0 b.rank.cpt p 0x400 } }).uncorr 14 0 p
  | .handle n h => ({ b with ecc := { b.ecc with handleBad := setAdd b.ecc.handleBad (1024 * n + h) } }).uncorr 15 2 h
  | .parkedWord w =>
    ({ b with rank := { b.rank with parked := b.rank.parked.filter (fun i => i / 64 ≠ w) } }).reparkWord m w
  | .postedWord w =>
    ({ b with rank := { b.rank with posted := b.rank.posted.filter (fun i => i / 64 ≠ w) } }).reparkWord m w
  | .geyserWord w =>
    ({ b with rank := { b.rank with geyserBits := b.rank.geyserBits.filter (fun x => x.1 / 64 ≠ w) } }).reparkWord m w
  | .arrivalWord w =>
    ({ b with rings := { b.rings with spillBits := (wordBits w).foldl setAdd b.rings.spillBits } }).uncorr 17 1 w
  | .frozenWord w =>
    ({ b with rings := { b.rings with frozenBits := (wordBits w).foldl setAdd b.rings.frozenBits } }).uncorr 17 1 w
  | .timer c a =>
    (({ b with tim := { b.tim with armed := tabMap 0 (fun k t => if k = timerKey c a then b.tim.tick else t) b.tim.armed } }).timerExpiry
      m c a).uncorr 18 1 (timerKey c a)
  | .candidate n k => (((b.link n).outq[k]?).elim b (b.bounceCand n)).uncorr 19 0 n
  | .replay n => (b.retrainIf n).uncorr 20 0 n
  | .ready n c k => ((((b.ta n).ctx c).ready[k]?).elim b (fun x => b.modTa n (fun a => a.dropReady c x))).uncorr 21 0 n
  | .active n c k => b.tileEntryLost n c (fun x => { x with stack := listAt x.stack k (fun _ => none) })
  | .running n c => b.tileEntryLost n c id
  | .floor n c => b.tileEntryLost n c (fun x => { x with pf := 0 })
  | .caldera => ({ b with cal := { b.cal with check := false } }).uncorr 23 0 0

/-- The scrubbers of the other SRAMs rewrite their next words: a single-bit error is corrected, and a word with a double-bit
error is handled as its structure is (14 R515, R516, R535; DESIGN CHOICE 128). -/
def Blk.storeScrub (b : Blk) (m : List Host.Cell) : Blk :=
  if !b.awake then b
  else
    let b := if b.ecc.otherCe = 0 then b
      else ({ b with ecc := { b.ecc with otherCe := b.ecc.otherCe - 1 } }).corrected
    match b.ecc.upsets with
    | [] => b
    | u :: rest => ({ b with ecc := { b.ecc with upsets := rest } }).upset m u

/-- A held grant is revoked (14 R531). -/
def Blk.grantRevoke (b : Blk) (m : List Host.Cell) (bank : Nat) : Blk :=
  if b.arb.stuck.any (fun x => x.1 == bank) then
    (({ b with arb := { b.arb with stuck := tabDel b.arb.stuck bank, revoke := satInc b.arb.revoke } }).raise 0x0A).pump m
  else b

/-! ## The Sequencer's restart (14 R521) -/

/-- Commands that the Sequencer was running complete with CHECK and change nothing; what a RESTORE_DOMAIN has written is reset, as
R446 has it. -/
def Blk.seqAbort (b : Blk) (m : List Host.Cell) : Blk :=
  let b := { b with fp := { b.fp with out := b.fp.out.filter (fun w => w.kind != WKind.snapshot) } }
  b.allExec.foldl (fun b x => match x.2.wait with
    | .commit _ | .snapBody .. | .snapHdr .. => b.finish m x.1 x.2 .check 0 []
    | .secondReading dom _ _ => (b.goBack dom).finish m x.1 x.2 .check 0 []
    | .entries dom true =>
      if (lineWord x.2.line 0).toNat % 256 = 0x22 then
        let y := b.restoreUndo m dom
        y.1.answer m x.1 x.2 y.2
      else b
    | _ => b) b

/-! ## The Setup Lock (14 R536 to R541) -/

/-- The agent slot that a fabric source identifier names (14 R536). -/
def Lock.agentOf (l : Lock) (id : BitVec 8) : Option Nat :=
  firstBelow 16 (fun a => let s := tabGet {} l.agents a; s.valid && s.srcid == id)

/-- The Setup Lock broken with a cause (14 R541): 0 LEASE, 1 FORCED, 2 RE-ACQUIRE, 3 DEBUG. -/
def Blk.lockBreak (b : Blk) (m : List Host.Cell) (cause : BitVec 2) : Blk :=
  let b := b.allExec.foldl (fun b x => match x.2.wait with
    | .commit _ => b.finish m x.1 x.2 .lock 0 []
    | _ => b) b
  let b := (b.abandonSession m).floorBack.lockFree
  (({ b with lock := { b.lock with broken := true, cause := cause } }).raise 0x70).pump m

/-- A lock request denied. -/
def Blk.lockDeny (b : Blk) : Blk := { b with lock := { b.lock with denied := true } }

/-- A lease that ACQUIRE and RENEW accept (14 R538, R539). -/
def leaseOk (n : Nat) : Bool := 1 ≤ n && n ≤ 1000

/-- The lock granted to an agent. -/
def Blk.lockGrant (b : Blk) (a lease : Nat) : Blk :=
  { b with lock := { b.lock with held := true, owner := a, remain := lease } }

/-- ACQUIRE from agent `a` (14 R538). -/
def Blk.lockAcquire (b : Blk) (m : List Host.Cell) (a : Nat) : Blk :=
  let lease := b.lock.lease
  if !leaseOk lease then b.lockDeny
  else if !b.lock.held then b.lockGrant a lease
  else if b.lock.owner ≠ a then b.lockDeny
  else (b.lockBreak m 2).lockGrant a lease

/-- RENEW from agent `a` (14 R539). -/
def Blk.lockRenew (b : Blk) (a : Nat) : Blk :=
  if b.lock.held && b.lock.owner == a && leaseOk b.lock.lease then
    { b with lock := { b.lock with remain := b.lock.lease } }
  else b.lockDeny

/-- RELEASE from agent `a` (14 R540). -/
def Blk.lockRelease (b : Blk) (a : Nat) : Blk :=
  if !(b.lock.held && b.lock.owner == a) then b.lockDeny
  else if b.rings.session.isSome then { b with lock := { b.lock with relPend := true } }
  else b.lockFree

/-- BREAK from agent `a` (14 R541). -/
def Blk.lockBreakBy (b : Blk) (m : List Host.Cell) (a : Nat) : Blk :=
  if b.lock.held && (tabGet {} b.lock.agents a).breaker then b.lockBreak m 1 else b.lockDeny

/-- REMAIN reaches 0, by the lease or by point 21 (14 R539, R541, R545). -/
def Blk.leaseExpiry (b : Blk) (m : List Host.Cell) : Blk :=
  if !b.lock.held then b
  else
    let b := if b.injHit 21 0 then b.injDone 21 else b
    ({ b with lock := { b.lock with remain := 0 } }).lockBreak m 0

end Sys2Proof.Machine
end

