-- ==== Sys2Proof/Machine/Clock.lean ====
section
/-! DEFINITION. Operating points, loss of lock, the AVSBus writes of a running Hub, and aging steps (01 R27 to R37;
13 R509 to R512). -/
namespace Sys2Proof.Machine
open Sys2Proof

/-! ## Voltages and the AVSBus (01 R27; 02 R82; 13 R509) -/

/-- Nominal VDD_IRQ of an operating point in mV, Table 1-4. -/
def opMv (op : BitVec 2) : Nat := if op = 0 then 800 else if op = 1 then 680 else 580

/-- The voltage requested for a point: nominal plus the aging offset. -/
def Blk.voltage (b : Blk) (op : BitVec 2) : Nat := opMv op + b.pwr.cfg.offset.toNat

/-- The power controller's sequence changed. -/
def Blk.modSeq (b : Blk) (f : PwrSeq → PwrSeq) : Blk := { b with pwr := { b.pwr with seq := f b.pwr.seq } }
/-- PWR.CTL and PWR.STAT changed. -/
def Blk.modPwr (b : Blk) (f : PwrRegs → PwrRegs) : Blk := { b with pwr := { b.pwr with regs := f b.pwr.regs } }
/-- The rest of block PWR changed. -/
def Blk.modCfg (b : Blk) (f : PwrCfg → PwrCfg) : Blk := { b with pwr := { b.pwr with cfg := f b.pwr.cfg } }

/-- The frame that writes and commits a target voltage to the rail of PWR.AVS_CFG.SELECT, Table 2-9. -/
def Blk.avsTarget (b : Blk) (mv : Nat) : AvsFrame :=
  { write := true, dataType := 0, rail := b.pwr.cfg.avsSel, data := BitVec.ofNat 16 mv }

/-- The frames that confirm a write: the read of the target voltage and the read of the status, Table 2-9. -/
def Blk.avsReads (b : Blk) : List AvsFrame :=
  [{ write := false, dataType := 0, rail := b.pwr.cfg.avsSel }, { write := false, dataType := 14, rail := b.pwr.cfg.avsSel }]

/-- A voltage write launched on the AVSBus. -/
def Blk.avsWrite (b : Blk) (o : AvsOcc) (mv : Nat) : Blk :=
  b.modSeq (fun q => { q with avs := some (o, mv), bus := [b.avsTarget mv] })

/-- What the slave answered to the write in progress: the frame resent for each CRC error, up to three times, then the
reads (02 R83). -/
def Blk.avsExchange (b : Blk) (mv crcErrors : Nat) : Blk :=
  b.modSeq (fun q => { q with bus := q.bus ++ List.replicate (min crcErrors 3) (b.avsTarget mv) ++
                                     (if crcErrors ≤ 3 then b.avsReads else []) })

/-- The answers acknowledge the write: voltage done, and the target read back as written (02 R83). -/
def avsAcks (mv crcErrors : Nat) (done : Bool) (readBack : Nat) : Bool := crcErrors ≤ 3 && done && readBack == mv

/-- The write in progress ends; the rail took its target when it was acknowledged. -/
def Blk.avsDone (b : Blk) (mv : Option Nat) : Blk := b.modSeq (fun q => { q with avs := none, mv := mv.getD q.mv })

/-- A voltage timeout while the Hub main domain is powered: VTIMEOUT and its source (13 R509). -/
def Blk.vtimeout (b : Blk) : Blk := (b.modPwr (fun r => { r with vtimeout := true })).raise 0x61

/-! ## Time (01 R23, R26; 06 R210; 07 R297; 14 R539) -/

/-- The divider position that clocks the Hub now: a downward change has switched before CUR_OP shows it. -/
def Clk.divider (c : Clk) : BitVec 2 := if c.switching && c.ready.isNone && c.curOp < c.target then c.target else c.curOp

/-- A period of HCLK in sixths of a nanosecond: 1/3, 1/2 and 1 ns at OP0 to OP2, 20 ns in bypass (01 R23, R26, R34). -/
def Clk.period (c : Clk) : Nat := if c.bypass then 120 else opTicks c.divider

/-- The µs tick advances by `n`, and the lease with its milliseconds (07 R297; 14 R539). -/
def Blk.microseconds (b : Blk) (m : List Host.Cell) (n : Nat) : Blk :=
  let k := (b.time.ms + n) / 1000
  let b := { b with time := { b.time with ms := (b.time.ms + n) % 1000 }, tim := { b.tim with tick := b.tim.tick + n } }
  if k = 0 || !b.lock.held then b
  else if b.lock.remain ≤ k then b.leaseExpiry m
  else { b with lock := { b.lock with remain := b.lock.remain - k } }

/-- TB_NS, and the 1 µs tick of REFCLK_100, after `d` sixths of a nanosecond. -/
def Blk.elapse (b : Blk) (m : List Host.Cell) (d : Nat) : Blk :=
  let t := b.time
  let b' := { b with time := { t with tb := t.tb + BitVec.ofNat 64 ((t.sixths + d) / 6), sixths := (t.sixths + d) % 6,
                                      us := (t.us + d) % 6000 } }
  b'.microseconds m ((t.us + d) / 6000)

/-- The frame position after one HCLK (06 R210, R260). -/
def Time.advance (t : Time) : Time :=
  let t := { t with filled := [] }
  if t.hclk + 1 < 256 then { t with hclk := t.hclk + 1 } else { t with hclk := 0, frames := (t.frames + 1) % 2 ^ 24 }

/-! ## Operating-point changes (01 R28 to R31) -/

/-- The voltage request of a change goes out when the AVSBus is free: upward before the switch, downward after it. -/
def Blk.opVoltage (b : Blk) : Blk :=
  let c := b.clk
  if !c.switching || c.ready.isSome || b.pwr.seq.avs.isSome then b
  else if c.target < c.curOp then b.avsWrite (.opUp c.curOp c.target) (b.voltage c.target)
  else b.avsWrite (.opDown c.target) (b.voltage c.target)

/-- A discarded write of CLK.OPCTL.TARGET (01 R29 to R31). -/
def Blk.opRefuse (b : Blk) (cause : BitVec 2) : Blk :=
  { b with clk := { b.clk with refused := true, cause := cause },
           pwr := { b.pwr with cfg := { b.pwr.cfg with refuseCnt := satInc b.pwr.cfg.refuseCnt } } }

/-- A write of CLK.OPCTL.TARGET (01 R29 to R31; 13 R512). One that both R29 and R30 refuse for its point reads BUSY: the
spec gives no order of the two (DESIGN CHOICE 108). -/
def Blk.writeTarget (b : Blk) (t : BitVec 2) : Blk :=
  let c := b.clk
  if t = 3 then b.opRefuse 3
  else if c.switching || c.bypass || b.pwr.seq.seq ≠ .none || b.aon.start.isSome || !b.pwr.cfg.measured then b.opRefuse 1
  else if b.classesLive && c.floorLive < t then b.opRefuse 2
  else
    let c := { c with target := t, switching := true }
    if t < c.curOp then ({ b with clk := c }).opVoltage else { b with clk := { c with ready := some t } }

/-- The clocks held low for 4 HCLK of a period, in sixths of a nanosecond, while the time base goes on (01 R28). -/
def Blk.clocksHeld (b : Blk) (m : List Host.Cell) (period : Nat) : Blk := b.elapse m (4 * period)

/-- The post-divider switches at a frame boundary, the clocks held for 4 HCLK of the lower point (01 R28): the end of an
upward change, and the voltage request of a downward one. -/
def Blk.opSwitch (b : Blk) (m : List Host.Cell) : Blk :=
  match b.clk.ready with
  | none => b
  | some t =>
    let c := { b.clk with ready := none }
    let b' := if t < c.curOp then { b with clk := { c with curOp := t, switching := false } } else ({ b with clk := c }).opVoltage
    b'.clocksHeld m (max (opTicks t) (opTicks c.curOp))

/-- The voltage of an upward change is acknowledged: the switch is ready. -/
def Blk.opUpAck (b : Blk) (new : BitVec 2) : Blk := { b with clk := { b.clk with ready := some new } }

/-- A downward change ends, its voltage acknowledged or timed out. -/
def Blk.opDownEnd (b : Blk) (new : BitVec 2) : Blk := { b with clk := { b.clk with curOp := new, switching := false } }

/-- The voltage of an upward change timed out: the old point stays (01, pseudocode of the change). -/
def Blk.opUpFails (b : Blk) (old : BitVec 2) : Blk :=
  ({ b with clk := { b.clk with target := old, switching := false } }).vtimeout

/-! ## Loss of lock (01 R34 to R37) -/

/-- The IRQPLL loses lock in RUN or IDLE: bypass, in which the bounds of admitted classes are void (01 R34, R36; 14 Table
14-6). A change of the operating point in progress goes on (DESIGN CHOICE 110). -/
def Blk.lockLoss (b : Blk) : Blk :=
  if !b.up || b.pwr.regs.state = .sleep || !b.clk.lock then b
  else
    let b := if b.injHit 23 0 then b.injDone 23 else b
    (({ b with clk := { b.clk with bypass := true, lockLost := true, lock := false, pllOn := false, back := false } }).raise 0x60).raise 0x81

/-- The Sequencer re-enables the IRQPLL in bypass. -/
def Blk.relockAttempt (b : Blk) : Blk :=
  if b.up && b.clk.bypass && !b.dbg.haltSeq then { b with clk := { b.clk with pllOn := true } } else b

/-- The root returns from bypass to the point in CUR_OP at a frame boundary, the clocks held for 4 HCLK of bypass (01
R37). -/
def Blk.bypassGo (b : Blk) (m : List Host.Cell) : Blk :=
  if b.clk.back && b.time.hclk = 0 then
    ({ b with clk := { b.clk with bypass := false, back := false } }).clocksHeld m 120
  else b

/-- The IRQPLL has locked in bypass: the return is ready. -/
def Blk.bypassEnd (b : Blk) (m : List Host.Cell) : Blk :=
  ({ b with clk := { b.clk with lock := true, back := true } }).bypassGo m

/-! ## Aging steps (13 R511, R512) -/

/-- The monitors at an offset report too little margin, and the offset can rise. -/
def Blk.agingWants (b : Blk) : Bool := b.pwr.cfg.offset.toNat < b.pins.need && b.pwr.cfg.offset.toNat < 40

/-- The voltage write of an aging step: the current point with the offset raised by 5 mV. -/
def Blk.agingWrite (b : Blk) (o : AvsOcc) (op : BitVec 2) : Blk := b.avsWrite o (b.voltage op + 5)

/-- A step that has fallen due is taken in RUN with no sequence in progress. -/
def Blk.agingGo (b : Blk) : Blk :=
  if b.pwr.seq.agingDue && b.inRun && b.pwr.seq.seq = .none && !b.clk.switching && b.pwr.seq.avs.isNone then
    (b.modSeq (fun q => { q with agingDue := false })).agingWrite .aging b.clk.curOp
  else b

/-- The monitors are read (13 R511). The value is the offset below which they report too little margin. -/
def Blk.agingRead (b : Blk) (need : Nat) : Blk :=
  if !b.inRun then b
  else
    let b := { b with pins := { b.pins with need := need } }
    if b.agingWants then (b.modSeq (fun q => { q with agingDue := true })).agingGo else b

/-- A step's voltage is acknowledged: offset and count rise. -/
def Blk.agingTaken (b : Blk) : Blk :=
  b.modCfg (fun c => { c with offset := BitVec.ofNat 6 (min 40 (c.offset.toNat + 5)), steps := c.steps + 1 })

end Sys2Proof.Machine
end

