-- ==== Sys2Proof/Machine/Power.lean ====
section
/-! DEFINITION. Power states: requests, clients, entries, wake events and the images that an entry writes (13 R475 to
R508; 06 R252, R253). -/
namespace Sys2Proof.Machine
open Sys2Proof

/-! ## Clients (13 Table 13-3) -/

/-- A client's answer. -/
inductive Answer where
  | accept | delay | refuse
  deriving DecidableEq, Repr

/-- A lane that holds no record and no event. -/
def Lane.idle (l : Lane) : Bool := l.rx.isEmpty && l.stall.isNone && l.hold.isEmpty

/-- Ingress group `g` holds no work. -/
def Blk.groupIdle (b : Blk) (g : Nat) : Bool :=
  (b.lane g).idle && (b.lane (12 + g)).idle && (b.latchOrder g).isEmpty

/-- A drain of a ring, a cluster or the cache is in progress. -/
def Blk.draining (b : Blk) : Bool :=
  b.rings.mgr.any (fun x => x.2.st == .busy) ||
  b.sram.doms.any (fun x => x.2.pair.st == .busy || x.2.elq.st == .busy) ||
  b.cls.any (fun x => x.2.regs.st == .busy) || b.lc.st == .busy

/-- The spill path holds work. -/
def Blk.spillBusy (b : Blk) : Bool :=
  !(b.rings.spillq.isEmpty && b.rings.spillw.isEmpty && b.rings.rpWait.isEmpty && b.rings.spillBits.isEmpty)

/-- A record waits to be written, or a write of the Hub to be acknowledged. -/
def Blk.writesOut (b : Blk) : Bool := !(b.fp.recs.isEmpty && b.fp.out.isEmpty)

/-- The Ranking Unit holds work. -/
def Blk.rankBusy (b : Blk) : Bool :=
  !(b.rank.offers.isEmpty && b.rank.reoffers.isEmpty && b.rank.rescan.isNone && b.rank.postScan.isNone)

/-- The State Store's own work: a held grant, a scrub request, or an internal report on its way. -/
def Blk.storeBusy (b : Blk) : Bool :=
  !(b.arb.stuck.isEmpty && b.arb.scrubPend.isEmpty && (b.lane 24).idle && (b.lane 24).reports.isEmpty)

/-- Dirty lines pass to free line buffers and become clean, oldest first (13 Table 13-3 client 47). -/
def Blk.cleanLines (b : Blk) : Blk :=
  let ls := ((b.lc.lines.filter (·.dirty)).reverse.take (4 - b.lbufs)).map (fun l => { l with held := false })
  { b with lc := { b.lc with bufs := b.lc.bufs ++ ls,
                             lines := b.lc.lines.map (fun l => if ls.any (fun k => k.line == l.line) then
                               { l with dirty := false } else l) } }

/-- A Tile Link port asked: an idle link in UP sends PAUSE (06 R252). -/
def Blk.askPort (b : Blk) (n : Nat) : Blk × Answer :=
  let l := b.link n
  match l.st with
  | .paused | .down | .quiesced | .failed => (b, .accept)
  | .up =>
    if l.outq.isEmpty && l.ctl.isEmpty && l.notices.isEmpty && l.e.inbox.isEmpty && l.ph = .none then
      (b.modLink n (fun l => { l with ctl := [rec24 8 0], ph := .pausing }), .delay)
    else (b, .delay)
  | _ => (b, .delay)

/-- Client `k` asked in an entry to `tgt`. -/
def Blk.ask (b : Blk) (tgt : PState) (k : Nat) : Blk × Answer :=
  let of (idle : Bool) : Blk × Answer := (b, if idle then .accept else .delay)
  if k < 12 then of (b.groupIdle k)
  else if k < 28 then
    let c := b.cl (k - 12)
    of (c.regs.st = .disabled || c.failed || b.clusterQuiet (k - 12))
  else if k = 28 then
    if b.lock.held || b.rings.session.isSome then (b, .refuse)
    else of (b.allExec.isEmpty && !b.spillBusy && !b.writesOut && !b.draining)
  else if k = 29 then of (!b.rankBusy)
  else if k < 46 then b.askPort (k - 30)
  else if k = 46 then of (!b.storeBusy)
  else
    let deep : Bool := tgt = .deep || tgt = .off
    let dirty := deep && b.lc.lines.any (·.dirty)
    if dirty then (b.cleanLines, .delay)
    else of (b.lc.fills.isEmpty && b.lbufs = 0 && !(b.lc.lines.any (·.held)))

/-! ## Images (13 R495 to R500) -/

/-- The wake alarm in AONCLK periods: the earliest armed timer, or firing of a Geyser channel that holds an instance
(13 R493; 05 R202). -/
def Blk.alarmOf (b : Blk) : Option Nat :=
  let us := b.now.toNat / 1000
  let next (c : Nat) : Option Nat :=
    let g := tabGet {} b.rank.geysers c
    let p := g.period.toNat
    if p = 0 || !(b.rank.geyserBits.any (fun x => x.2 == some c)) then none
    else some (p - (us + p - g.phase.toNat % p) % p)
  let ts := b.tim.armed.map (fun x => x.2 - b.tim.tick) ++ (List.range 16).filterMap next
  (ts.min?).map (fun t => ceilDiv (t * 32768) 1000000)

/-- What the save area takes, Table 13-7. -/
def Blk.saveArea (b : Blk) : SaveArea :=
  { clk := b.clk, regs := b.pwr.regs, cfg := b.pwr.cfg, hctl := b.hctl, geysers := b.rank.geysers, epoch := b.rank.epoch,
    mgr := b.rings.mgr, lcEn := b.lc.en, cls := tabMap {} (fun _ c => c) (b.cls.map (fun x => (x.1, x.2.regs))),
    links := tabMap {} (fun _ l => l) (b.links.map (fun x => (x.1,
      { st := x.2.st, quiesce := x.2.quiesce, wakeEn := x.2.wakeEn, live := x.2.live, shad := x.2.shad,
        txSeq := x.2.e.txSeq, rxExp := x.2.e.rxExp }))),
    fed := (b.fed.en, b.fed.hubid, b.fed.cfgLo, b.fed.cfgHi), level := b.dbg.level, lc := b.dbg.lc, agents := b.lock.agents }

/-- The Caldera image of an entry (13 R495); point 16 corrupts its check. -/
def Blk.saveCaldera (b : Blk) (kind : PState) : Blk :=
  let hit := b.injHit 16 0
  let b := if hit then b.injDone 16 else b
  { b with cal := { magic := true, calseq := seqInc b.cal.calseq, valid := true, kind := kind,
                    spillseq := if kind = .off then b.spill.seq else 0, aging := b.pwr.cfg.offset, check := !hit,
                    save := b.saveArea } }

/-- Host address of the spill region (13 R498). -/
def Blk.spillBase (b : Blk) : Nat := b.pwr.cfg.spillHi.toNat * 2 ^ 32 + bits b.pwr.cfg.spillLo.toNat 31 21 * 2 ^ 21

/-- PWR.SPILL_LO.EN. -/
def Blk.spillEn (b : Blk) : Bool := bit b.pwr.cfg.spillLo.toNat 0

/-- The structures of R499. -/
def Blk.spillBody (b : Blk) : SpillBody :=
  { sram := b.sram, rank := b.rank, cls := b.cls, tim := b.tim,
    handles := tabMap [] (fun _ t => t) (b.links.map (fun x => (x.1, x.2.handles))), spillBits := b.rings.spillBits,
    frozenBits := b.rings.frozenBits }

/-- Line 1 of an image: the directory, which names the image (DESIGN CHOICE 10). -/
def spillDir (n : Nat) : BitVec 512 := lineOfWords (wd n :: List.replicate 15 0)

/-- CHECK of a header whose words 0 to 14 are `head`, over an image of two lines. -/
def spillCheck (seq : Nat) (head : List Word) (dir : BitVec 512) : Word :=
  seededCrc (seq + 8 * 2 ^ 24) 2 ((head ++ [0]).flatMap wordBytes ++ lineBytes dir 0 16)

/-- Line 0 of the image written last, Table 13-8; `bad` when point 15 corrupts its check. -/
def Blk.spillHeader (b : Blk) (cause : Nat) (bad : Bool) : BitVec 512 :=
  let head : List Word := [0x015B17E0, wd hubVersion, 2, wd b.spill.seq, wd cause, (b.now.extractLsb' 0 24).setWidth 32,
    (b.now.extractLsb' 24 24).setWidth 32] ++ List.replicate 8 0
  let c := spillCheck b.spill.seq head (spillDir (b.spill.bodies.length - 1))
  lineOfWords (head ++ [if bad then c ^^^ 1 else c])

/-- The spill of the block begins: SPILLSEQ advances, the sections are read through input 2 of the banks, and line 1 is
written (13 R500); point 20 holds one of its grants. -/
def Blk.spillBegin (b : Blk) : Blk :=
  let b := b.bankReads (List.range 16)
  let b := if (List.range 16).any (b.injHit 20) then (b.injDone 20).holdGrant else b
  let n := b.spill.bodies.length
  let b := { b with spill := { seq := seqInc b.spill.seq, bodies := b.spill.bodies ++ [b.spillBody] } }
  b.writeLine (b.spillBase / 64 + 1) (spillDir n) .spillImage

/-- The header of the image is written. -/
def Blk.spillHead (b : Blk) (cause : Nat) : Blk :=
  let hit := b.injHit 15 0
  let b := if hit then b.injDone 15 else b
  b.writeLine (b.spillBase / 64) (b.spillHeader cause hit) .spillImage

/-! ## Leaving a sequence (13 R487, R503) -/

/-- Paused links run again, and a pause that was asked is withdrawn (06 R253; 13 R487). -/
def Blk.resumeLinks (b : Blk) : Blk :=
  { b with links := tabMap {} (fun _ l =>
      if l.st = .paused then { l with st := .up, clkOn := true, ph := .none }
      else if l.ph = .pausing then { l with ph := .none, ctl := l.ctl.filter (fun r => recType r ≠ 8) } else l) b.links }

/-- Records that waited in the receive buffers of stopped groups are taken up (13 R484). -/
def Blk.resumeLanes (b : Blk) : Blk := (List.range 12).foldl (fun b q => b.laneResume q) b

/-- A mapped line sampled at the entry to RUN: a level-mode line takes its level (02 R67). -/
def Blk.sampleLine (b : Blk) (m : List Host.Cell) (i : Nat) : Blk :=
  let st := b.stt i
  if st.kind = .level && (b.entryOf m i).lvl != (setHas b.ing.level i == st.pol) then b.sampleLevel m i else b

/-- Every mapped line is sampled once (02 R67). -/
def Blk.sampleLines (b : Blk) (m : List Host.Cell) : Blk :=
  let b := { b with ing := { b.ing with level := b.pins.lines, sync := b.pins.lines.map (fun i => (i, BitVec.allOnes 5)) } }
  ((b.mapped.filter (fun x => x.1 < 1536)).map (·.1)).foldl (fun b i => b.sampleLine m i) b

/-- Changes of the lines that fell while the Hub was not looking are accepted now, for an entry that was unwound. -/
def Blk.catchLines (b : Blk) : Blk :=
  let up := b.pins.lines.filter (fun i => !setHas b.ing.level i)
  let down := b.ing.level.filter (fun i => !setHas b.pins.lines i)
  let b := up.foldl (fun b i => b.lineChange i true) b
  down.foldl (fun b i => b.lineChange i false) b

/-- The Hub stands in RUN, its clients running: the Caldera image is invalid from now on (13 R497). -/
def Blk.toRun (b : Blk) (m : List Host.Cell) : Blk :=
  let b := b.modSeq (fun q => { q with seq := .none, stopped := [], wake := none, alarm := none, cwPstate := .run })
  let b := (b.modPwr (fun r => { r with state := .run })).resumeLinks
  ({ b with cal := { b.cal with valid := false } }).resumeLanes.pump m

/-- PWR.WAKE_STAT takes a wake event (13 R494). -/
def Blk.wakeStat (b : Blk) (w : Nat × Nat) (entry : Bool) : Blk :=
  b.modCfg (fun c => { c with wakeCause := BitVec.ofNat 4 w.1, wakeIdx := BitVec.ofNat 8 w.2, wakeEntry := entry })

/-- The record of an entry abandoned at an abort point; `wake` when a wake event abandoned it (13 R494). -/
def Blk.abortStat (b : Blk) (ap : Nat) (wake : Option (Nat × Nat)) : Blk :=
  let b := b.modPwr (fun r => { r with abortAp := BitVec.ofNat 3 ap, aborted := true })
  match wake with
  | some w => (b.modCfg (fun c => { c with abortCnt := satInc c.abortCnt })).wakeStat w true
  | none => b

/-- A refusal is counted, recorded and raised (13 R478, R488). -/
def Blk.pwrRefuse (b : Blk) (cause : Nat) : Blk :=
  let b := b.modPwr (fun r => { r with refused := true, cause := BitVec.ofNat 4 cause })
  (b.modCfg (fun c => { c with refuseCnt := satInc c.refuseCnt })).raise 0x62

/-- A client's refusal, or its delay timeout, unwinds the entry (13 R483, R488). -/
def Blk.clientRefused (b : Blk) (m : List Host.Cell) (k : Nat) (timeout : Bool) : Blk :=
  let b := (b.toRun m).pwrRefuse 7
  b.modPwr (fun r => { r with refClient := BitVec.ofNat 6 k, dlyTo := timeout })

/-- An entry unwound from AP2 or AP3, or after AP3 where PG_IRQ has not fallen: the clamps go, the fabric's credits
return, and the lines are watched again (13 R487, R510). -/
def Blk.unwind (b : Blk) (m : List Host.Cell) : Blk :=
  let b := if b.pwr.seq.clamp then
      { b with ing := { b.ing with credit := (List.range 96).map (fun n => (n, 4)) } } else b
  let b := b.modSeq (fun q => { q with clamp := false, offReq := false })
  (b.toRun m).catchLines

/-- A spill image that cannot be written: an entry to OFF is abandoned at AP3, SPILL_ALL ends with an error (14
Table 14-2; 16 Table 16-5). -/
def Blk.spillFails (b : Blk) (m : List Host.Cell) : Blk :=
  let b := { b with fp := { b.fp with out := b.fp.out.filter (fun w => w.kind != WKind.spillImage) } }
  match b.pwr.seq.seq with
  | .save _ _ _ =>
    let b := (b.unwind m).abortStat 3 b.pwr.seq.wake
    (b.pwrRefuse 7).modPwr (fun r => { r with refClient := 47, dlyTo := false })
  | _ =>
    match b.ops.prog with
    | .spill _ h _ => { b with ops := { b.ops with prog := .spill [] h true } }
    | _ => b

/-! ## E4: power (13 Table 13-4) -/

/-- The clamps close: the fabric zeroes its credits (02 R47, R80). -/
def Blk.clampOn (b : Blk) : Blk :=
  { b.modSeq (fun q => { q with clamp := true }) with ing := { b.ing with credit := [] } }

/-- The clamps open and every port's four credits are returned (02 R47, R80). -/
def Blk.clampOff (b : Blk) : Blk :=
  { b.modSeq (fun q => { q with clamp := false }) with
    ing := { b.ing with credit := (List.range 96).map (fun n => (n, 4)) } }

/-- E3 of an entry to DEEP or OFF: the wake alarm and the Caldera image (13 R493, R495). -/
def Blk.alarmAndImage (b : Blk) (kind : PState) : Blk :=
  (b.modSeq (fun q => { q with alarm := b.alarmOf, aon := 0 })).saveCaldera kind

/-- AP3 of an entry to DEEP: abandoned by a wake event, or E4: clamps, IRQPLL off, 450 mV. -/
def Blk.deepDown (b : Blk) (m : List Host.Cell) : Blk :=
  match b.pwr.seq.wake with
  | some w => (b.unwind m).abortStat 3 (some w)
  | none =>
    let b := (b.modSeq (fun q => { q with seq := .power .deep })).clampOn
    ({ b with clk := { b.clk with pllOn := false, lock := false, back := false } }).avsWrite (.deepEntry false) 450

/-- E3's end and AP3 of an entry to OFF: abandoned by a wake event, or E4: clamps and VDD_OFF_REQ. -/
def Blk.offDown (b : Blk) (m : List Host.Cell) : Blk :=
  let b := b.alarmAndImage .off
  match b.pwr.seq.wake with
  | some w => (b.unwind m).abortStat 3 (some w)
  | none => (b.modSeq (fun q => { q with seq := .power .off, offReq := true })).clampOn

/-- The spill of an entry to OFF goes on once its lines are acknowledged and no grant is held: its header, then E4. -/
def Blk.saveStep (b : Blk) (m : List Host.Cell) : Blk :=
  match b.pwr.seq.seq with
  | .save .off [] hdr =>
    if !b.arb.stuck.isEmpty then b
    else if hdr then b.offDown m
    else (b.modSeq (fun q => { q with seq := .save .off [b.spillBase / 64] true })).spillHead 0
  | _ => b

/-- AP2: the entry is abandoned by a wake event, or its E3 begins; for IDLE and SLEEP, in which E3 and E4 are empty, the
entry is complete (13 R485, R486). -/
def Blk.gated (b : Blk) (m : List Host.Cell) (tgt : PState) : Blk :=
  match b.pwr.seq.wake with
  | some w => (b.unwind m).abortStat 2 (some w)
  | none => match tgt with
    | .idle | .sleep =>
      (b.modSeq (fun q => { q with seq := .none, cwPstate := tgt })).modPwr (fun r => { r with state := tgt })
    | .deep => (b.modSeq (fun q => { q with seq := .save .deep [] true })).alarmAndImage .deep
    | .off => ((b.modSeq (fun q => { q with seq := .save .off [b.spillBase / 64 + 1] false })).spillBegin).saveStep m
    | .run => b

/-- An entry in E2, or in E3 of DEEP, comes to the end of its step as time passes (DESIGN CHOICE 2). -/
def Blk.seqStep (b : Blk) (m : List Host.Cell) : Blk :=
  match b.pwr.seq.seq with
  | .gate tgt => b.gated m tgt
  | .save .deep _ _ => b.deepDown m
  | _ => b

/-- Every client has accepted and no wake event has come: AP1 is passed, and E2 begins (13 R485). -/
def Blk.polled (b : Blk) (tgt : PState) : Blk := b.modSeq (fun q => { q with seq := .gate tgt })

/-- The clients from `k` on are asked in turn, up to the first that does not accept (13 R482). -/
def Blk.pollFrom (b : Blk) (m : List Host.Cell) (tgt : PState) : Nat → Nat → Blk
  | 0, _ => b.polled tgt
  | n + 1, k =>
    let x := b.ask tgt k
    match x.2 with
    | .accept => (x.1.modSeq (fun q => { q with stopped := setAdd q.stopped k })).pollFrom m tgt n (k + 1)
    | .delay => x.1.modSeq (fun q => { q with seq := .poll tgt k })
    | .refuse => x.1.clientRefused m k false

/-! ## Wake events (13 R486, R489, R491, R494) -/

/-- The active level stands at an enabled WAKE pin (13 R492). -/
def Blk.pinActive (b : Blk) (k : Nat) : Bool :=
  b.pwr.cfg.wakeEn.getLsbD k && (b.pins.wake.getLsbD k == b.pwr.cfg.wakePol.getLsbD k)

/-- A wake condition that holds when the poll of an entry to `tgt` begins: cause and index, the lowest cause first (13
R486). MIPn_HELD is none for OFF (13 Table 13-5). -/
def Blk.wakeHeld (b : Blk) (tgt : PState) : Option (Nat × Nat) :=
  let pin := (firstBelow 8 b.pinActive).map (fun k => (8, k))
  match b.ing.held with
  | i :: _ => if tgt = .off then pin else some (2, i)
  | [] => pin

/-- The exit from IDLE or SLEEP (13 R503). -/
def Blk.exitLight (b : Blk) (m : List Host.Cell) (w : Nat × Nat) : Blk :=
  let sleep : Bool := b.pwr.regs.state = .sleep
  let b := (b.toRun m).wakeStat w false
  if sleep then b.sampleLines m else b

/-- The exit from DEEP begins with the voltage of the saved point (13 R504). -/
def Blk.exitDeepGo (b : Blk) (entry volt : Bool) : Blk :=
  (b.modSeq (fun q => { q with seq := .exit .deep entry volt })).avsWrite .exitDeep
    (opMv b.cal.save.clk.curOp + b.cal.aging.toNat)

/-- The exit from OFF begins: VDD_OFF_REQ falls (13 R505). -/
def Blk.exitOffGo (b : Blk) (entry volt : Bool) : Blk :=
  b.modSeq (fun q => { q with seq := .exit .off entry volt, offReq := false })

/-- A wake event kept until the next abort point or E5: the first, and of those of one HCLK the one with the lowest cause
(13 R486, R490, R494). -/
def Blk.keepWake (b : Blk) (w : Nat × Nat) : Blk :=
  let t := (b.time.frames, b.time.hclk)
  b.modSeq (fun q => match q.wake with
    | none => { q with wake := some w, wakeAt := t }
    | some v => if q.wakeAt = t && w.1 < v.1 then { q with wake := some w } else q)

/-- A wake event of a cause and an index (13 Table 13-15). -/
def Blk.wakeEv (b : Blk) (m : List Host.Cell) (cause index : Nat) : Blk :=
  let w := (cause, index)
  let keep := b.keepWake w
  match b.pwr.seq.seq with
  | .poll _ _ => (b.toRun m).abortStat 1 (some w)
  | .gate _ | .save _ _ _ | .power _ => keep
  | .exit _ _ _ => b
  | .none =>
    if b.aon.start.isSome || b.aon.failed || !b.pins.pg && b.pwr.regs.state ≠ .off then b
    else match b.pwr.regs.state with
      | .run => b
      | .idle | .sleep => if b.pwr.seq.hubReset then b else b.exitLight m w
      | .deep => keep.exitDeepGo false false
      | .off => if b.pwr.seq.offReq then keep.exitOffGo false false else b

/-- The port branches serve software and control-class messages: RUN and IDLE, up to E1 of an entry, and E2 of an entry to
IDLE, which leaves SCLK running (13 R485, R491). -/
def Blk.served (b : Blk) : Bool :=
  b.up && b.pwr.regs.state ≠ .sleep && (b.pwr.seq.seq = .none || b.pwr.seq.seq.inPoll || b.pwr.seq.seq = .gate .idle)

/-- The TAP serves its accesses: RUN and IDLE, up to E1 of an entry (15 R559). -/
def Blk.tapReady (b : Blk) : Bool :=
  b.up && b.pwr.regs.state ≠ .sleep && (b.pwr.seq.seq = .none || b.pwr.seq.seq.inPoll)

/-- E2 or E3 of an entry that stops the port traffic: FP4 and FP5 still receive, and what they receive is held (13 R485,
Table 13-5). -/
def PSeq.holdsPorts : PSeq → Bool
  | .gate _ | .save _ _ _ => true
  | _ => false

/-- The state that an entry in progress goes to. -/
def PSeq.target : PSeq → Option PState
  | .poll t _ | .gate t | .save t _ _ | .power t => some t
  | _ => Option.none

/-- OFF, or an entry to OFF: a record at an MIP, MIPn_HELD, wake patterns and flits of the pause handshake are no wake
events there (13 Table 13-5). -/
def Blk.offBound (b : Blk) : Bool := b.pwr.regs.state = .off || b.pwr.seq.seq.target == some .off

/-- An entry to DEEP or OFF: a record at an MIP is no wake event of its own, but work for its stopped group (13 R484). -/
def Blk.deepBound (b : Blk) : Bool := b.offBound || b.pwr.seq.seq.target == some .deep

/-- Whether a wake event of the port branches can be seen now: below RUN with the Hub main domain powered, or during an
entry. -/
def Blk.wakeable (b : Blk) : Bool :=
  b.pwr.seq.seq ≠ .none || b.pwr.regs.state ≠ .run

/-! ## AP4 and E5 (13 R489, R490, Table 13-10) -/

/-- The pending challenge is discarded (15 R563). -/
def Tap.noChal (t : Tap) : Tap := { t with chal := none, chalStatus := if t.chal.isSome then 1 else t.chalStatus }

/-- AP4 of an entry to DEEP: complete, or abandoned by a wake event kept since E1. -/
def Blk.deepDone (b : Blk) : Blk :=
  match b.pwr.seq.wake with
  | some _ => b.exitDeepGo true false
  | none =>
    let b := b.modSeq (fun q => { q with seq := .none, cwPstate := .deep })
    { b.modPwr (fun r => { r with state := .deep }) with
      inj := {}, fp := { b.fp with held := [] }, dbg := { b.dbg with tap := b.dbg.tap.noChal } }

/-- The voltage of an entry to DEEP timed out: written once more at the operating voltage, then abandoned. -/
def Blk.deepTimeout (b : Blk) (again : Bool) : Blk :=
  let b := b.modSeq (fun q => { q with vtDue := true })
  if again then b.exitDeepGo true true else b.avsWrite (.deepEntry true) (b.voltage b.clk.curOp)

/-- PG_IRQ has fallen: AP4 of an entry to OFF. -/
def Blk.offAck (b : Blk) : Blk :=
  match b.pwr.seq.seq with
  | .power .off =>
    let b := { b with pins := { b.pins with pg := false } }
    match b.pwr.seq.wake with
    | some _ => b.exitOffGo true false
    | none =>
      let b := b.modSeq (fun q => { q with seq := .none, cwPstate := .off, hubReset := true })
      { b.modPwr (fun r => { r with state := .off }) with
        fp := { b.fp with held := [] }, dbg := { b.dbg with tap := b.dbg.tap.noChal } }
  | _ => b

/-- PG_IRQ has not fallen within 10 ms (13 R510). -/
def Blk.pgTimeout (b : Blk) (m : List Host.Cell) : Blk :=
  match b.pwr.seq.seq with
  | .power .off =>
    let w := b.pwr.seq.wake
    let b := (b.unwind m).abortStat 3 w
    (b.pwrRefuse 8).vtimeout
  | _ => b

/-! ## Requests (13 R477 to R480) -/

/-- The target that REQ asks for. -/
def reqTarget (r : BitVec 3) : PState :=
  if r = 1 then .idle else if r = 2 then .sleep else if r = 3 then .deep else .off

/-- The first check of Table 13-2 that refuses a request; none: it is accepted. -/
def Blk.pwrCheck (b : Blk) (r : BitVec 3) : Option Nat :=
  let q := b.pwr.seq
  let aging : Bool := match q.avs with
    | some (.aging, _) => true
    | _ => false
  if r = 5 || r = 6 || r = 7 then some 3
  else if q.seq ≠ .none || b.clk.switching || aging || b.dbg.haltSeq || !b.dbg.haltCl.isEmpty then some 1
  else if b.classesLive then some 2
  else if r ≠ 1 && b.fed.peers.any (·.2.joined) then some 4
  else if b.ops.busy then some 5
  else if r = 4 && !b.spillEn then some 6
  else none

/-- An accepted request: the poll begins; a wake condition that holds already abandons it at AP1 (13 R485, R486). -/
def Blk.pwrEnter (b : Blk) (m : List Host.Cell) (r : BitVec 3) : Blk :=
  let b := (b.modPwr (fun x => { x with req := r })).modSeq (fun q => { q with seq := .poll (reqTarget r) 0 })
  match b.wakeHeld (reqTarget r) with
  | some w => (b.toRun m).abortStat 1 (some w)
  | none => b.pollFrom m (reqTarget r) 48 0

/-- A write of PWR.CTL.REQ in RUN (13 R477, R478). -/
def Blk.writeReq (b : Blk) (m : List Host.Cell) (r : BitVec 3) : Blk :=
  if r = 0 then b
  else match b.pwrCheck r with
    | some c => b.pwrRefuse c
    | none => b.pwrEnter m r

/-- A Tile Link port without work, Table 13-3: no candidate, record or notice, no pause handshake, no training. -/
def Link.idlePort (l : Link) : Bool :=
  l.outq.isEmpty && l.ctl.isEmpty && l.notices.isEmpty && l.e.inbox.isEmpty && l.ph = .none &&
  (match l.st with
   | .training | .retrain | .quiescing => false
   | _ => true)

/-- Every power client is without work, Table 13-3. -/
def Blk.noWork (b : Blk) : Bool :=
  (List.range 12).all b.groupIdle &&
  b.cls.all (fun x => x.2.regs.st == .disabled || x.2.failed || b.clusterQuiet x.1) &&
  b.allExec.isEmpty && !b.spillBusy && !b.writesOut && !b.draining && !b.rankBusy &&
  b.links.all (fun x => x.2.idlePort) && !b.storeBusy &&
  b.lc.fills.isEmpty && b.lbufs = 0 && !(b.lc.lines.any (·.held))

/-- AUTO_IDLE's own request, refused in silence (13 R480). -/
def Blk.autoIdle (b : Blk) (m : List Host.Cell) : Blk :=
  if b.inRun && b.pwr.regs.autoIdle && b.noWork && (b.pwrCheck 1).isNone then b.pwrEnter m 1 else b

/-- The client that delays is asked again (13 R482). -/
def Blk.clientPoll (b : Blk) (m : List Host.Cell) : Blk :=
  match b.pwr.seq.seq with
  | .poll tgt k => b.pollFrom m tgt (48 - k) k
  | _ => b

/-- The client that delays has done so for too long (13 R483). -/
def Blk.delayTimeout (b : Blk) (m : List Host.Cell) : Blk :=
  match b.pwr.seq.seq with
  | .poll _ k => b.clientRefused m k true
  | _ => b

end Sys2Proof.Machine
end

