-- ==== Sys2Proof/Machine/Start.lean ====
section
/-! DEFINITION. Resets, the start steps, settling, failed starts, and the exits from DEEP and OFF that a lock or a
voltage completes (13 R504 to R512; 16 R575 to R591). -/
namespace Sys2Proof.Machine
open Sys2Proof

/-! ## What a reset of the Hub main domain leaves (16 R576; 13 Table 13-7) -/

/-- The resynchronisation of the route tables brought to its end, so that the shadow that the SRAM keeps agrees with the
live copy. -/
def Blk.rankKept (b : Blk) : Ranking :=
  let r := b.resyncAll.rank
  { parked := r.parked, geyserBits := r.geyserBits, posted := r.posted, cpt := r.cpt, bcast := r.bcast, rot := r.rot,
    copy0 := r.copy0, copy1 := r.copy1, epoch := r.epoch,
    geysers := tabMap {} (fun _ g => { resume := g.resume }) r.geysers }

/-- What the SRAMs keep of a cluster. -/
def Cluster.kept (c : Cluster) : Cluster :=
  { prog := c.prog, data := c.data, progBad := c.progBad, dataBad := c.dataBad, att := c.att, regions := c.regions }

/-- What the always-on domain keeps of the power sequence. -/
def PwrSeq.kept (q : PwrSeq) : PwrSeq :=
  { seq := q.seq, wake := q.wake, alarm := q.alarm, aon := q.aon, avs := q.avs, mv := q.mv, vtDue := q.vtDue,
    clamp := q.clamp, offReq := q.offReq, cwPstate := q.cwPstate, hubReset := q.hubReset }

/-- The Hub main domain with every flop reset and every SRAM kept. -/
def Blk.flopsReset (b : Blk) : Blk :=
  { pins := b.pins, time := { tb := b.time.tb, valid := b.time.valid }, pwr := { seq := b.pwr.seq.kept },
    ing := { held := b.ing.held }, sram := b.sram, rank := b.rankKept,
    links := tabMap {} (fun _ l => { handles := tabMap {} (fun _ h => h.settled) l.handles, hasTab := l.hasTab }) b.links, tas := b.tas,
    cls := tabMap {} (fun _ c => c.kept) b.cls, tim := b.tim, fp := { fail := b.fp.fail, badIn := b.fp.badIn },
    rings := { spillBits := b.rings.spillBits, frozenBits := b.rings.frozenBits, snapSeq := b.rings.snapSeq },
    lc := { lines := b.lc.lines.map (fun l => { l with held := false, tries := 0 }),
            bufs := (b.lc.bufs.filter (fun l => l.dirty || !l.held)).map (fun l => { l with held := false, tries := 0 }) },
    ecc := b.ecc,
    dbg := { lc := b.dbg.lc, seqRam := b.dbg.seqRam, seqBad := b.dbg.seqBad,
             tap := { ir := b.dbg.tap.ir, fails := b.dbg.tap.fails } },
    hctl := { fwver := b.hctl.fwver, tilePop := b.hctl.tilePop, ctxPop := b.hctl.ctxPop },
    aon := b.aon, cal := b.cal, spill := b.spill, free := b.free }

/-- The configuration registers of a save area put in force (13 Table 13-7; 16 R576). -/
def Blk.putCfg (b : Blk) (s : SaveArea) (aging : BitVec 6) : Blk :=
  let clk := { b.clk with target := s.clk.target, floor := s.clk.floor, floorLive := s.clk.floorLive, curOp := s.clk.curOp }
  let regs := { b.pwr.regs with autoIdle := s.regs.autoIdle, dlyTimeout := s.regs.dlyTimeout }
  let cfg := { b.pwr.cfg with wakeEn := s.cfg.wakeEn, wakePol := s.cfg.wakePol, offset := aging, measured := s.cfg.measured,
                              spillLo := s.cfg.spillLo, spillHi := s.cfg.spillHi, idleDly := s.cfg.idleDly,
                              avsSel := s.cfg.avsSel }
  let gey := (List.range 16).foldl (fun t c => tabMod {} t c (fun g =>
    let v := tabGet ({} : Geyser) s.geysers c
    { g with cfgW := v.cfgW, phaseW := v.phaseW }.load)) b.rank.geysers
  let links := (List.range 16).foldl (fun t n => tabMod {} t n (fun l =>
    let v := tabGet {} s.links n
    { l with quiesce := v.quiesce, wakeEn := v.wakeEn, live := v.live, shad := v.shad, pop := setHas b.hctl.tilePop n }))
    b.links
  let cls := (List.range 16).foldl (fun t c => tabMod {} t c (fun x =>
    let r := tabGet {} s.cls c
    { x with regs := { x.regs with en := r.en, rsv := r.rsv, st := if r.en then .enabled else .disabled } })) b.cls
  { b with clk := clk, pwr := { b.pwr with regs := regs, cfg := cfg },
           hctl := { b.hctl with sstLo := s.hctl.sstLo, sstHi := s.hctl.sstHi, msiLo := s.hctl.msiLo, msiHi := s.hctl.msiHi },
           rank := { b.rank with geysers := gey, epoch := s.epoch }, links := links, cls := cls,
           rings := { b.rings with mgr := s.mgr },
           lc := { b.lc with en := s.lcEn, st := if s.lcEn then .enabled else .disabled },
           fed := { b.fed with en := s.fed.1, hubid := s.fed.2.1, cfgLo := s.fed.2.2.1, cfgHi := s.fed.2.2.2 } }

/-- The Hub main domain as a cold start's S6 and S7 leave it: zeroed, with a new Caldera header (16 Table 16-3). -/
def Blk.coldMain (b : Blk) : Blk :=
  { pins := b.pins, time := { tb := b.time.tb, valid := b.time.valid },
    pwr := { seq := { clamp := true, cwPstate := b.pwr.seq.cwPstate, mv := b.pwr.seq.mv, vtDue := b.pwr.seq.vtDue } },
    ing := { held := b.ing.held }, tas := b.tas, aon := b.aon, fp := { fail := b.fp.fail, badIn := b.fp.badIn },
    dbg := { tap := { ir := b.dbg.tap.ir, fails := b.dbg.tap.fails } },
    cal := { magic := true, check := true }, spill := { bodies := b.spill.bodies }, free := b.free }

/-! ## Beginning a start -/

/-- A start begins at S1 and waits in S2 for the lock of the IRQPLL, inside the clamps. -/
def Blk.startAt (b : Blk) (k : StartKind) : Blk :=
  let b := b.modSeq (fun q => { q with clamp := true, hubReset := true, avs := none, stopped := [] })
  { b with aon := { b.aon with start := some (k, .s2) }, clk := { b.clk with pllOn := true, lock := false },
           ing := { b.ing with credit := [] } }

/-- A cold start of a Hub main domain that is reset again. -/
def Blk.startCold (b : Blk) : Blk := b.coldMain.startAt .cold

/-- A cold start that a reset chose, or that a warm one became, with its cause (16 R584, Table 16-11). -/
def Blk.startColdFor (b : Blk) (conv : Nat) : Blk := { b.startCold with aon := { b.startCold.aon with conv := conv } }

/-- A start that failed: the cause is recorded, and the start is retried once as a cold one; a second failure sets the
FAILED latch (16 R589, R590). -/
def Blk.startFail (b : Blk) (cause : Nat) : Blk :=
  if b.aon.retried then
    let b := (b.coldMain.modSeq (fun q => { q with cwPstate := .off })).modPwr (fun r => { r with state := .off })
    { b with aon := { b.aon with start := none, failed := true, fail2 := cause } }
  else ({ b with aon := { b.aon with retried := true, fail1 := cause } }).startCold

/-! ## Table 16-4: work that a warm reset cuts off (16 R586, R588) -/

/-- A domain after a warm start with power kept. -/
def Dom.afterWarm (d : Dom) : Dom :=
  let off (p : Pair) : Pair := { p with st := .disabled, exec := [], again := false, en := false }
  let st : DState := match d.st with
    | .freezing | .restoring => .frozen
    | .resetting => d.back
    | s => s
  { d with st := st, gen := 0, pair := off d.pair, elq := { d.elq with st := .disabled } }

/-- A Virtual Context Table entry whose switch was cut off. -/
def VEntry.afterWarm (e : VEntry) : VEntry := if e.sw then {} else e

/-- The sources' tables after a warm start with power kept. -/
def Sram.afterWarm (s : Sram) : Sram :=
  { s with doms := tabMap {} (fun _ d => d.afterWarm) s.doms, vct := tabMap {} (fun _ e => e.afterWarm) s.vct }

/-- A manager ring pair after a warm start with power kept. -/
def Pair.afterWarm (p : Pair) : Pair := { p with st := .disabled, exec := [], again := false, en := false }

/-- A Tile Agent that sees no frame marker, while its link is neither PAUSED nor QUIESCED, holds its claim reads and
completions (16 R581). -/
def Blk.agentHolds (b : Blk) (n : Nat) : Blk :=
  let l := b.link n
  if l.pop && l.st ≠ .paused && l.st ≠ .quiesced && !(b.ta n).inReset then b.modTa n (fun a => { a with hold := true }) else b

/-- The Hub is in reset: every Tile Agent does so. -/
def Blk.agentsHold (b : Blk) : Blk := (List.range 16).foldl Blk.agentHolds b

/-- Steps 3 to 5 of R432 for a domain whose reset, or whose restore, was cut off: its resident entries at once, its spilled ones
through the spill path ahead of SETTLE (16 Table 16-4). -/
def Blk.finishWipe (b : Blk) (dom : Nat) : Blk :=
  let b := (b.sourcesOf dom).foldl (fun b x =>
    let b := b.clearBits x.1
    if x.2.res then b.modSlot x.2.slot (fun s => { s with entry := resetEntry (x.2.kind = .level) 0 s.entry })
    else b.toSpill { stt := x.1, mapgen := x.2.mapgen, kind := .wipe 0 }) b
  let b := { b with tim := { b.tim with armed := b.tim.armed.filter (fun x => !b.timerOf dom x.1),
                                        waiting := b.tim.waiting.filter (fun x => !b.timerOf dom x.1) } }
  b.modDom dom (fun d => { d with expired := [], timers := [] })

/-- The domains whose reset or restore a warm reset cuts off; a restore leaves nothing recorded (11 R446; 16 Table 16-4). -/
def Blk.cutOff (b : Blk) (doms : Tab Dom) : Blk :=
  doms.foldl (fun b x => match x.2.st with
    | .resetting => b.finishWipe x.1
    | .restoring => (b.finishWipe x.1).modDom x.1 (fun d => { d with line := none, restored := true })
    | _ => b) b

/-- A warm start with power kept begins (16 Table 16-2 row 5, R576, R586). -/
def Blk.startWarm (b : Blk) (m : List Host.Cell) : Blk :=
  let b := (b.abandonSession m).agentsHold
  let s := b.saveArea
  let aging := b.pwr.cfg.offset
  let k := b.flopsReset.putCfg { s with mgr := tabMap {} (fun _ p => p.afterWarm) s.mgr } aging
  let k := { k with clk := { k.clk with floor := k.clk.floorLive }, sram := k.sram.afterWarm,
                    spill := { k.spill with seq := k.cal.spillseq } }
  let k := { k with rank := { k.rank with rot := [] } }.cutOff b.sram.doms
  (k.modSeq (fun q => { q with seq := .none, wake := none, alarm := none })).startAt .warm

/-! ## S9: the spill image (13 R499, R501) -/

/-- The header's words at the spill address and the directory's image number, when the image is sound; the flag tells
that its check alone failed. -/
def Blk.spillImage (b : Blk) (m : List Host.Cell) : Option SpillBody × Bool :=
  let hdr := b.hostLine m (b.spillBase / 64)
  let dir := b.hostLine m (b.spillBase / 64 + 1)
  let seq := (lineWord hdr 3).toNat
  let head := (List.range 15).map (lineWord hdr)
  if lineWord hdr 0 ≠ 0x015B17E0 || lineWord hdr 1 ≠ wd hubVersion || (lineWord hdr 2).toNat ≠ 2 then (none, false)
  else if spillCheck seq head dir ≠ lineWord hdr 15 then (none, true)
  else (b.spill.bodies[(lineWord dir 0).toNat]?, false)

/-- The sections of an image put back (13 R499). -/
def Blk.reload (b : Blk) (x : SpillBody) : Blk :=
  let live := if x.rank.epoch then x.rank.copy1 else x.rank.copy0
  let cls := (List.range 16).foldl (fun t c => tabMod {} t c (fun k =>
    { (tabGet {} x.cls c).kept with regs := k.regs })) b.cls
  let links := (List.range 16).foldl (fun t n => tabMod {} t n (fun l =>
    { l with handles := tabGet [] x.handles n, hasTab := true })) b.links
  { b with sram := x.sram, cls := cls, tim := x.tim, links := links,
           rank := { b.rank with parked := x.rank.parked, geyserBits := x.rank.geyserBits, posted := x.rank.posted,
                                 cpt := x.rank.cpt, bcast := x.rank.bcast, rot := x.rank.rot, copy0 := live, copy1 := live,
                                 geysers := (List.range 16).foldl (fun t c => tabMod {} t c (fun g =>
                                   { g with resume := (tabGet {} x.rank.geysers c).resume })) b.rank.geysers },
           rings := { b.rings with spillBits := x.spillBits, frozenBits := x.frozenBits } }

/-! ## S10 and S11 (16 R585; 03 R89) -/

/-- The assigned internal sources: 0x000A00 plus these (14 Table 14-9). -/
def internalSources : List Nat :=
  List.range 0x11 ++ (List.range 0x16).map (· + 0x40) ++ (List.range 4).map (· + 0x60) ++ [0x70, 0x71] ++
  (List.range 4).map (· + 0x78) ++ [0x80, 0x81] ++ (List.range 6).map (· + 0x88)

/-- Internal source `k` mapped in its fixed slot. -/
def Blk.mapInternal (b : Blk) (k : Nat) : Blk :=
  let i := 1536 + k
  if (b.stt i).valid then b
  else
    let b := b.modStt i (fun s => s.fresh .internal false 0 (BitVec.ofNat 24 (0xA00 + k)) true i)
    b.modSlot i (fun _ => { entry := { used := true }, owner := i })

/-- Generation of the domain of a source. -/
def Blk.genOf (b : Blk) (i : Nat) : BitVec 8 := (b.dom (b.stt i).domid).gen

/-- Every generation 0. What stands in a slot, a handle or a tracking entry carries its generation less that of its domain, so
that the current stays current and the stale stale (11 R409; 16 Table 16-3 S10; DEDUCED 24). -/
def Blk.zeroGens (b : Blk) : Blk :=
  { b with
    sram := { b.sram with
      slots := tabMap {} (fun _ s => if s.entry.used then { s with entry := { s.entry with gen := s.entry.gen - b.genOf s.owner } } else s)
        b.sram.slots,
      doms := tabMap {} (fun _ d => { d with gen := 0 }) b.sram.doms },
    links := tabMap {} (fun _ l => { l with handles := tabMap {} (fun _ h =>
      if h.st = .free || h.prox.isSome then h else { h with gen := h.gen - b.genOf h.stt }) l.handles }) b.links,
    rank := { b.rank with bcast := tabMap {} (fun _ t =>
      if t.tiles.isEmpty then t else { t with gen := t.gen - b.genOf t.stt }) b.rank.bcast } }

/-- S10: internal sources, domain 0, every generation 0, SNAPSEQ, the debug level (16 Table 16-3). -/
def Blk.startS10 (b : Blk) : Blk :=
  let b := internalSources.foldl Blk.mapInternal b.zeroGens
  let b := b.modDom 0 (fun d => if d.st = .absent then
    { d with st := .live, sh := { d.sh with rshare := 260352, elimit := 0xFFFFFF } } else { d with st := .live })
  { b with rings := { b.rings with snapSeq := 0 } }

/-- A resident source settled in S11. -/
def Blk.settleSlot (b : Blk) (m : List Host.Cell) (x : MSrc) : Blk :=
  let st := x.2
  let b := b.rankFree m (st.slot % 16)
  let r := b.offerIf (st.slot % 16) x.1 st (settleEntry st (b.lineActive x.1 st) b.stampNow (b.slot st.slot).entry)
  r.1.modSlot st.slot (fun s => { s with entry := r.2 })

/-- S11 (16 R585). -/
def Blk.settle (b : Blk) (m : List Host.Cell) : Blk :=
  let b := { b with rank := { b.rank with parked := [], posted := [], geyserBits := [], bcast := [], cpt := [] },
                    links := tabMap {} (fun _ l => { l with handles := [], hasTab := false }) b.links,
                    lc := { b.lc with lines := b.lc.lines.filter (·.dirty) },
                    ing := { b.ing with level := b.pins.lines }, ecc := { b.ecc with handleBad := [] } }
  (b.mapped.filter (fun x => x.2.res)).foldl (fun b x => b.settleSlot m x) b

/-! ## S12 and S13 -/

/-- Populated links begin their training; the Tile Agents drop what they had not sent (06 R251, R259). -/
def Blk.startLinks (b : Blk) : Blk :=
  (List.range 16).foldl (fun b n =>
    if !(b.link n).pop then b
    else
      let tab := (b.link n).hasTab
      let b := b.modTa n (fun a => { (if tab then { a with upq := [] }.loseHeld else a) with upq := [], pausing := false })
      b.startTraining n .training) b

/-- Every populated link has come up, or has failed. -/
def Blk.linksReady (b : Blk) : Bool := b.links.all (fun x => !x.2.pop || x.2.st = .up || x.2.st = .failed)

/-- Timers whose expiry has passed expire in order of expiry (13 R506; 16 R585). -/
def Blk.expireDue (b : Blk) (m : List Host.Cell) : Blk :=
  let due := sortBy (·.2) (b.tim.armed.filter (fun x => x.2 ≤ b.tim.tick))
  due.foldl (fun b x => b.timerExpiry m (x.1 / 1024) (x.1 % 1024)) b

/-- µs of the AONCLK periods counted in DEEP or OFF (13 R506). -/
def Blk.aonUs (b : Blk) : Nat := b.pwr.seq.aon * 1000000 / 32768

/-- Geyser channels with a firing due in the last `us` µs fire once (13 R506). -/
def Blk.geyserCatchUp (b : Blk) (us : Nat) : Blk :=
  let now := b.now.toNat / 1000
  (List.range 16).foldl (fun b c =>
    let p := (tabGet {} b.rank.geysers c).period.toNat
    if p ≠ 0 && (now + p - (tabGet {} b.rank.geysers c).phase.toNat % p) % p < us then b.geyserFire c else b) b

/-- What every arrival in RUN from below does: lines sampled, counts advanced, records of the wake event and of timeouts
made (02 R67; 13 R494, R506, R509). -/
def Blk.arrive (b : Blk) (m : List Host.Cell) (us : Nat) : Blk :=
  let q := b.pwr.seq
  let b := { b with tim := { b.tim with tick := b.tim.tick + us } }
  let b := ((b.toRun m).sampleLines m).expireDue m
  let b := if us = 0 then b else b.geyserCatchUp us
  let b := match q.seq with
    | .exit _ true volt =>
      let b := b.abortStat 4 (if volt then none else q.wake)
      if volt then b.pwrRefuse 8 else b
    | _ => match q.wake with
      | some w => b.wakeStat w false
      | none => b
  if q.vtDue then (b.modSeq (fun q => { q with vtDue := false })).vtimeout else b

/-- START_STAT of a start that has succeeded (16 Table 16-11). -/
def Aon.stat (a : Aon) (k : StartKind) : StartStat :=
  { kind := k, converted := a.conv = 1 || a.conv = 2, convCause := a.conv, retried := a.retried,
    failedBefore := a.failedBefore, fail1 := a.fail1, fail2 := a.fail2 }

/-- S13: the release of Hub reset (16 Table 16-3; 01 R42; 16 R585). -/
def Blk.startS13 (b : Blk) (m : List Host.Cell) (k : StartKind) : Blk :=
  let us := if k = .off then b.aonUs else 0
  let b := { b with ss := b.aon.stat k, aon := {}, clk := { b.clk with curOp := b.clk.target },
                    arb := { b.arb with mode := 0 } }
  let b := { b with aon := { b.aon with start := none } }
  let b := (List.range 16).foldl (fun b n =>
    if (b.link n).quiesce && (b.link n).st = .up then b.startQuiesce m n else b) b
  let b := (b.clampOff.modSeq (fun q => { q with hubReset := false })).arrive m us
  if k = .warm then { b with ops := { b.ops with busy := true, op := 5, prog := .settle 0 } } else b

/-- The start reaches S13 once every populated link stands and PKG_ISO_REQ is low (16 R582; 02 R80). -/
def Blk.startGo (b : Blk) (m : List Host.Cell) : Blk :=
  match b.aon.start with
  | some (k, .s12) => if b.linksReady && !b.pins.iso then b.startS13 m k else b
  | _ => b

/-- S9 to S12 of a start. -/
def Blk.startS9 (b : Blk) (m : List Host.Cell) (k : StartKind) : Blk :=
  let fin (b : Blk) : Blk :=
    let b := b.startS10
    let b := if k = .warm then b.settle m else b
    ({ b.startLinks with aon := { b.aon with start := some (k, .s12) } }).startGo m
  if k = .off then
    match b.spillImage m with
    | (some x, _) =>
      if (lineWord (b.hostLine m (b.spillBase / 64)) 3).toNat = b.cal.spillseq then
        fin { b.reload x with spill := { b.spill with seq := b.cal.spillseq } }
      else b.startColdFor 2
    | (none, bad) =>
      let c := b.startColdFor 2
      if bad then c.cvuMismatch 4 (b.spillBase / 64) else c
  else fin b

/-- S8: the first voltage write of a cold start, at OP2 (16 Table 16-3; 13 R512). -/
def Blk.startS8 (b : Blk) : Blk :=
  ({ b with aon := { b.aon with start := some (.cold, .s8) } }).avsWrite .startAging (b.voltage 2)

/-- An acknowledgement in S8: a further step while the monitors want margin, else the offset is measured. -/
def Blk.startS8Ack (b : Blk) (m : List Host.Cell) (mv : Nat) : Blk :=
  let b := b.avsDone (some mv)
  let b := if mv = b.voltage 2 then b else b.agingTaken.raise 0x63
  if b.agingWants then b.agingWrite .startAging 2
  else (b.modCfg (fun c => { c with measured := true })).startS9 m .cold

/-- The Caldera image is valid (13 R496). -/
def Caldera.ok (c : Caldera) : Bool := c.magic && c.valid && c.check

/-- S7 of a start leaving OFF: the Caldera image checked and its registers restored (16 Table 16-3). -/
def Blk.startS7 (b : Blk) (m : List Host.Cell) : Blk :=
  if !(b.cal.ok && b.cal.kind = .off) then
    let c := b.startColdFor 1
    if b.cal.check then c else c.cvuMismatch 5 0
  else (b.putCfg b.cal.save b.cal.aging).startS9 m .off

/-- The ROM agrees with its check value (16 R583): CRC-32C over bytes 0 to 262,139 against word 65,535. -/
def romOk : Bool := crc32c ((List.range 65535).flatMap (fun k => wordBytes (Sys2Proof.Config.romWord k))) == Sys2Proof.Config.romWord 65535

/-- S4 and S5: FW_VERSION, the lifecycle state and the population words (15 R551, R553; 17 R608). -/
def Blk.startRead (b : Blk) : Blk :=
  let f (k : Nat) : Nat := (tabGet 0 b.pins.fuse k).toNat
  let tiles := bitsOf 16 (f 0)
  let ctxs := (List.range 1024).filter (fun p => bit (f (1 + p / 32)) (p % 32) && setHas tiles (p / 64))
  let b := { b with hctl := { b.hctl with fwver := (Sys2Proof.Config.romWord 65534).toNat % 2 ^ 16, tilePop := tiles, ctxPop := ctxs },
                    dbg := { b.dbg with lc := b.pins.lc } }
  (List.range 16).foldl (fun b n => b.modLink n (fun l => { l with pop := setHas tiles n })) b

/-- The IRQPLL locks in S2: the steps up to the next wait. -/
def Blk.startLocked (b : Blk) (m : List Host.Cell) (k : StartKind) : Blk :=
  let b := { b with clk := { b.clk with lock := true } }
  if k = .cold && !b.pins.bistOk then b.startFail 1
  else if !romOk then b.startFail 2
  else if !b.pins.fuseAck then b.startFail 4
  else if b.dbg.seqBad then b.startFail 5
  else
    let b := b.startRead
    match k with
    | .cold => b.startS8
    | .warm => b.startS9 m .warm
    | .off => b.startS7 m

/-- A start has not gone on in time: no lock in 40 µs, or no S13 in 100 ms (16 R589). -/
def Blk.startTimeout (b : Blk) : Blk :=
  match b.aon.start with
  | some (_, .s2) => b.startFail 3
  | some _ => b.startFail 7
  | none => b

/-! ## Exits from DEEP and OFF (13 R504, R505; 15 R572) -/

/-- The level after a restore of a valid image (15 R572). -/
def Blk.restoredLevel (b : Blk) : Level :=
  if b.cal.save.lc = 0 && b.pins.lc = 0 then b.cal.save.level else .none

/-- The links as the image keeps them: states and sequences (13 Table 13-7). -/
def Blk.putLinks (b : Blk) (s : SaveArea) : Blk :=
  (List.range 16).foldl (fun b n =>
    let v := tabGet {} s.links n
    b.modLink n (fun l => { l with st := v.st, clkOn := v.st = .up, e := { l.e with txSeq := v.txSeq, rxExp := v.rxExp } })) b

/-- The IRQPLL has locked in an exit from DEEP: the Caldera image is checked and restored, the clamps are released once
PKG_ISO_REQ is low, and the Hub reaches RUN; an invalid image leads to a cold start (02 R80; 13 R504; 14 R537). -/
def Blk.deepLocked (b : Blk) (m : List Host.Cell) : Blk :=
  if b.pins.iso then { b with clk := { b.clk with lock := true } }
  else if !(b.cal.ok && b.cal.kind = .deep) then
    let c := b.startCold
    if b.cal.check then c else c.cvuMismatch 5 0
  else
    let s := b.cal.save
    let us := b.aonUs
    let level := b.restoredLevel
    let k := ((b.flopsReset.startRead).putCfg s b.cal.aging).putLinks s
    let k := { k with clk := { k.clk with lock := true, pllOn := true }, lock := { agents := s.agents },
                      arb := { k.arb with mode := 0 }, dbg := { k.dbg with level := level },
                      hctl := { k.hctl with fwver := b.hctl.fwver } }
    (k.clampOff.modSeq (fun q => { q with hubReset := false })).arrive m us

/-- The IRQPLL locks (01 R25): in bypass, in a start, or in an exit from DEEP. -/
def Blk.pllLock (b : Blk) (m : List Host.Cell) : Blk :=
  if !b.clk.pllOn || b.clk.lock then b
  else match b.aon.start with
    | some (k, .s2) => b.startLocked m k
    | some _ => b
    | none =>
      if b.clk.bypass then b.bypassEnd m
      else match b.pwr.seq.seq with
        | .exit .deep _ _ => if b.pwr.seq.avs.isNone then b.deepLocked m else b
        | _ => b

/-- The voltage of an exit from OFF stands: the warm start leaving OFF begins (13 R505). -/
def Blk.offVoltage (b : Blk) : Blk :=
  let k := { b.coldMain with cal := b.cal, pwr := { b.coldMain.pwr with seq := b.pwr.seq.kept }, time := b.time }
  k.startAt .off

/-! ## The AVSBus (02 R83; 13 R509) -/

/-- The slave has answered the write in progress and its reads. An acknowledgement of R83 ends the write; anything else
leaves it to its time; point 22 withholds the acknowledgement (02 R83; 14 R545). -/
def Blk.avsAck (b : Blk) (m : List Host.Cell) (crcErrors : Nat) (done : Bool) (readBack : Nat) : Blk :=
  match b.pwr.seq.avs with
  | none => b
  | some (o, mv) =>
    let b := b.avsExchange mv crcErrors
    if !avsAcks mv crcErrors done readBack then b
    else if b.injHit 22 0 then b.injDone 22
    else
      let d := b.avsDone (some mv)
      match o with
      | .opUp _ new => d.opUpAck new
      | .opDown new => d.opDownEnd new
      | .aging => (d.agingTaken.raise 0x63).opVoltage
      | .startAging => b.startS8Ack m mv
      | .deepEntry again => if again then d.exitDeepGo true true else d.deepDone
      | .exitDeep => { d with clk := { d.clk with pllOn := true } }
      | .exitOff => d.offVoltage

/-- The write in progress is not acknowledged within 50 µs, Table 13-10. -/
def Blk.avsTimeout (b : Blk) : Blk :=
  match b.pwr.seq.avs with
  | none => b
  | some (o, mv) =>
    let d := b.avsDone none
    match o with
    | .opUp old _ => d.opUpFails old
    | .opDown new => (d.opDownEnd new).vtimeout
    | .aging => d.vtimeout.opVoltage
    | .startAging => d.startFail 6
    | .deepEntry again => d.deepTimeout again
    | .exitDeep | .exitOff => (b.avsWrite o mv).modSeq (fun q => { q with vtDue := true })

/-! ## Resets (16 R575 to R580) -/

/-- The start, or the exit, that a Hub warm reset or a software Hub reset leads to, Table 16-2. -/
def Blk.warmReset (b : Blk) (m : List Host.Cell) : Blk :=
  if b.aon.failed then
    ({ b with aon := { b.aon with failed := false, retried := false, failedBefore := true } }).startCold
  else if b.aon.loss then b.startColdFor 3
  else if b.aon.restoreAll then b.startColdFor 4
  else
    let still := b.modSeq (fun q => { q with wake := none })
    if b.cal.valid && b.cal.kind = .deep then
      ({ still with aon := { still.aon with start := none } }).exitDeepGo false false
    else if b.cal.valid && b.cal.kind = .off then
      let k := { still.exitOffGo false false with aon := { b.aon with start := none } }
      if b.pins.pg then k.avsWrite .exitOff (opMv b.cal.save.clk.curOp + b.cal.aging.toNat) else k
    else b.startWarm m

/-- VDD_IRQ is missing since an unscheduled loss. -/
def Blk.lost (b : Blk) : Bool := b.aon.loss && !b.pins.pg

/-- HUB_WARM_RST_N is pulsed. -/
def Blk.hubWarm (b : Blk) (m : List Host.Cell) : Blk :=
  if b.lost || (b.pins.iso && b.aon.start.isNone && !b.aon.failed) then b else b.warmReset m

/-- PG_IRQ falls while VDD_OFF_REQ is low (16 R580). -/
def Blk.supplyLoss (b : Blk) : Blk :=
  if b.pwr.seq.offReq || !b.pins.pg then b
  else
    let b := b.agentsHold.clampOn.modSeq (fun q =>
      { q with seq := .none, wake := none, avs := none, stopped := [], cwPstate := .off, hubReset := true })
    { b with pins := { b.pins with pg := false }, aon := { b.aon with loss := true, start := none },
             clk := { b.clk with pllOn := false, lock := false }, ops := { b.ops with busy := false, prog := .none } }

/-- PG_IRQ rises: the exit from OFF goes on to its voltage, or a cold start follows a loss (13 R505; 16 R580). -/
def Blk.powerGood (b : Blk) (m : List Host.Cell) : Blk :=
  if b.pins.pg then b
  else
    let b' := { b with pins := { b.pins with pg := true } }
    match b.pwr.seq.seq with
    | .exit .off _ _ => b'.avsWrite .exitOff (opMv b.cal.save.clk.curOp + b.cal.aging.toNat)
    | _ => if b.aon.loss then b'.warmReset m else b

/-- PKG_ISO_REQ rises: clamps, and the Hub main domain in reset where CW_PSTATE shows it powered, or during an entry or
an exit (13 R508). -/
def Blk.isoRise (b : Blk) : Blk :=
  let b' := { b with pins := { b.pins with iso := true } }
  let busy : Bool := b.pwr.seq.seq ≠ .none
  let on : Bool := match b.pwr.seq.cwPstate with
    | .run | .idle | .sleep => true
    | _ => false
  if b.pins.iso || !(on || busy) || b.aon.failed then b'
  else
    let b' := b'.agentsHold.clampOn
    { b'.modSeq (fun q => { q with seq := .none, wake := none, avs := none, offReq := false, hubReset := true }) with
      aon := { b'.aon with start := none } }

/-- An exit from DEEP has its lock, and waits for PKG_ISO_REQ to fall. -/
def Blk.exitLocked (b : Blk) : Bool :=
  b.clk.lock && b.pwr.seq.avs.isNone &&
  (match b.pwr.seq.seq with
   | .exit .deep _ _ => true
   | _ => false)

/-- PKG_ISO_REQ falls: a Hub warm reset where it had put the Hub main domain in reset; a start that waited for it ends
(13 R508). -/
def Blk.isoFall (b : Blk) (m : List Host.Cell) : Blk :=
  if !b.pins.iso then b
  else
    let b := { b with pins := { b.pins with iso := false } }
    let q := b.pwr.seq
    if b.aon.start.isSome then b.startGo m
    else if b.exitLocked then b.deepLocked m
    else if q.hubReset && !b.aon.failed && !b.lost && !q.offReq && q.seq = .none then b.warmReset m
    else b

/-- PKG_COLD_RST_N: every domain of the block and every Tile Agent, then a cold start (16 R575). The inputs, what the
package would answer, and host memory stay. -/
def Blk.packageCold (b : Blk) (lc : BitVec 2) (bistOk fuseAck : Bool) : Blk :=
  { State.reset.blk with
    pins := { b.pins with lc := lc, bistOk := bistOk, fuseAck := fuseAck },
    time := { tb := b.time.tb, valid := b.time.valid }, ing := { held := b.ing.held },
    spill := { bodies := b.spill.bodies }, fp := { fail := b.fp.fail, badIn := b.fp.badIn }, free := b.free }

end Sys2Proof.Machine
end

