-- ==== Sys2Proof/Machine/OpsRun.lean ====
section
/-! DEFINITION. Clusters enabled and drained, and the long operations of block OPS (07 R311 to R313; 16 R592 to R596). -/
namespace Sys2Proof.Machine
open Sys2Proof

/-! ## Clusters -/

/-- The cluster's registers changed. -/
def Blk.modCr (b : Blk) (c : Nat) (f : ClRegs → ClRegs) : Blk := b.modCl c (fun x => { x with regs := f x.regs })

/-- A live CRITICAL or FIRM source is attached to a cluster (07 R313). -/
def Blk.admittedOn (b : Blk) (c : Nat) : Bool := b.adm.any (fun x => x.2.clause.cv && x.2.clause.clus == c)

/-- EN = 0 written: a drain starts (07 R311). -/
def Blk.clDisable (b : Blk) (c : Nat) : Blk :=
  b.modCr c (fun r => { r with en := false, st := if r.st = .enabled then .busy else r.st })

/-- EN = 1 written: at once while DISABLED, at the drain's end while BUSY (07 R313). -/
def Blk.clEnable (b : Blk) (c : Nat) : Blk :=
  b.modCr c (fun r => { r with en := true, st := if r.st = .disabled then .enabled else r.st })

/-! ## SELFTEST (16 Table 16-5) -/

/-- Block OPS changed. -/
def Blk.modOps (b : Blk) (f : Ops → Ops) : Blk := { b with ops := f b.ops }

/-- A cluster that its SELFTEST finds failing: it stays disabled, every engine is out of service, and the clause-fault source
is raised for it (07 R309; 16 Table 16-5). -/
def Blk.selftestFails (b : Blk) (k : Nat) : Blk :=
  (b.modCr k (fun r => { r with en := false, st := .disabled, offline := List.range 16 })).raise 0x08

/-- The clusters from `k` on are drained and tested in turn, up to the first whose drain takes time. -/
def Blk.selftestFrom (b : Blk) (fail : Option Nat) : Nat → Nat → Blk
  | 0, _ => b.modOps (fun o => { o with prog := match fail with
      | some u => .ended 3 u
      | none => .ended 1 0 })
  | n + 1, k =>
    let c := b.cl k
    let b := b.modOps (fun o => { o with prog := .selftest fail k, progress := 16 * k })
    match c.regs.st with
    | .disabled =>
      let b := if fail = some k then b.selftestFails k else b
      b.selftestFrom fail n (k + 1)
    | .enabled => b.modCr k (fun r => { r with st := .busy })
    | .busy => b

/-- The drain of the cluster under test ends: it is tested, and re-enabled unless it fails. -/
def Blk.selftestCluster (b : Blk) (fail : Option Nat) (k : Nat) : Blk :=
  let b := if fail = some k then b.selftestFails k
    else b.modCr k (fun r => { r with st := if r.en then .enabled else .disabled })
  b.selftestFrom fail (15 - k) (k + 1)

/-- The drain of a cluster ends (07 R311, R313). -/
def Blk.clusterDrained (b : Blk) (c : Nat) : Blk :=
  let x := b.cl c
  if x.regs.st ≠ .busy || !b.clusterQuiet c then b
  else match b.ops.prog with
    | .selftest fail k =>
      if k = c then b.selftestCluster fail k else b.modCr c (fun r => { r with st := if r.en then .enabled else .disabled })
    | _ => b.modCr c (fun r => { r with st := if r.en then .enabled else .disabled })

/-! ## SCRUB_ALL -/

/-- Every row of every bank and every word of the other SRAMs scrubbed once (14 R515, R533, R535). -/
def Blk.scrubAll (b : Blk) (m : List Host.Cell) : Blk :=
  let hits := ((List.range 16).filter (b.injHit 0)).length
  let fixed := hits + b.ecc.entryCe.length + b.ecc.otherCe
  let b := (List.range 16).foldl (fun b k => b.slotRead (16 * tabGet 0 b.arb.scrubRow k + k)) b
  let b := b.ecc.entryCe.foldl Blk.slotRead b
  let b := (List.range b.ecc.otherCe).foldl (fun b _ => b.corrected) b
  let b := b.ecc.upsets.foldl (fun b u => b.upset m u) b
  let cnt := (List.range 16).foldl (fun t k => tabMod {} t (8 * k + 1) (fun c =>
    { c with grant := satAdd c.grant 16384 })) b.arb.cnt
  { b with ecc := { b.ecc with otherCe := 0, upsets := [] }, arb := { b.arb with cnt := cnt, scrubPend := [] },
           ops := { b.ops with prog := .ended 1 (min fixed 255) } }

/-! ## SPILL_ALL -/

/-- SPILL_ALL goes on once its lines are acknowledged and no grant is held (13 R500). -/
def Blk.spillAllStep (b : Blk) : Blk :=
  match b.ops.prog with
  | .spill [] hdr failed =>
    if failed then b.modOps (fun o => { o with prog := .ended 3 1 })
    else if !b.arb.stuck.isEmpty then b
    else if hdr then b.modOps (fun o => { o with prog := .ended 1 0 })
    else (b.modOps (fun o => { o with prog := .spill [b.spillBase / 64] true false, progress := 128 })).spillHead 1
  | _ => b

/-- A line of the spill image is acknowledged. -/
def Blk.spillAck (b : Blk) (m : List Host.Cell) (line : Nat) : Blk :=
  match b.pwr.seq.seq with
  | .save tgt left hdr => (b.modSeq (fun q => { q with seq := .save tgt (setDel left line) hdr })).saveStep m
  | _ =>
    match b.ops.prog with
    | .spill left hdr failed => (b.modOps (fun o => { o with prog := .spill (setDel left line) hdr failed })).spillAllStep
    | _ => b

/-! ## RESTORE_ALL (16 R594, R595) -/

/-- The block is empty (16 R594). -/
def Blk.empty (b : Blk) : Bool :=
  b.mapped.all (fun x => x.2.kind = .internal) && b.sram.doms.all (fun d => d.1 = 0 || d.2.st = .absent) && !b.classesLive

/-- A domain as RESTORE_ALL brings it back: shares and ring bases. -/
def Dom.restoredAll (d : Dom) : Dom :=
  if d.st = .absent then {}
  else { st := .live, sh := d.sh, nctx := d.nctx, cnote := d.cnote, enote := d.enote,
         pair := { cmd := d.pair.cmd.zero, cpl := d.pair.cpl.zero }, elq := { ring := d.elq.ring.zero } }

/-- The configuration sections of an image. -/
def Blk.writeSections (b : Blk) (x : SpillBody) : Blk :=
  let live := if x.rank.epoch then x.rank.copy1 else x.rank.copy0
  let slots := (x.sram.stt.filter (fun y => y.2.valid && y.2.res)).foldl (fun t y =>
    tabSet {} t y.2.slot { entry := { used := true }, owner := y.1 }) []
  let cls := (List.range 16).foldl (fun t c => tabMod {} t c (fun k =>
    { (tabGet {} x.cls c).kept with regs := k.regs, engines := k.engines })) b.cls
  { b with sram := { x.sram with slots := slots, doms := tabMap {} (fun _ d => d.restoredAll) x.sram.doms,
                                 env := tabMap {} (fun _ e => { e with tat := b.now, excess := 0 }) x.sram.env },
           rank := { b.rank with copy0 := live, copy1 := live, rot := [], resync := false, dirtyR := [], dirtyG := [] },
           cls := cls, tim := { b.tim with armed := [], waiting := [] } }

/-- The spilled entries of the restored mappings are zeroed through the spill path, and the level-mode lines sampled. -/
def Blk.zeroEntries (b : Blk) (m : List Host.Cell) : Blk :=
  let spilled := b.mapped.filter (fun x => !x.2.res)
  let b := if b.sstEn then spilled.foldl (fun b x => b.cmdUpdate m x.1 (.put {} (b.dom x.2.domid).gen)) b else b
  ((b.mapped.filter (fun x => x.1 < 1536)).map (·.1)).foldl (fun b i => b.sampleLine m i) b

/-- Every CRITICAL and FIRM source set to STANDARD. -/
def Blk.allStandard (b : Blk) : Blk :=
  { b with sram := { b.sram with stt := tabMap {} (fun _ s =>
      if 2#2 ≤ s.rank.cls then { s with rank := { s.rank with cls := 1 } } else s) b.sram.stt } }

/-- The block returned to empty: only the internal sources, mapped afresh (16 R595 step 5). -/
def Blk.emptied (b : Blk) : Blk :=
  let cls := tabMap {} (fun _ c => { regs := c.regs, engines := c.engines : Cluster }) b.cls
  let b := { b with sram := {}, rank := { b.rank with copy0 := {}, copy1 := {}, rot := [] }, cls := cls,
                    tim := { b.tim with armed := [], waiting := [] } }
  b.startS10

/-- Steps 1 to 3: the header, then the image's check. -/
def Blk.restoreBegin (b : Blk) (m : List Host.Cell) : Blk :=
  let cause := (lineWord (b.hostLine m (b.spillBase / 64)) 4).toNat
  let dir := (lineWord (b.hostLine m (b.spillBase / 64 + 1)) 0).toNat
  match b.spillImage m with
  | (some _, _) =>
    if 1 < cause then b.modOps (fun o => { o with prog := .ended 3 1 })
    else { b.modOps (fun o => { o with prog := .restore dir }) with aon := { b.aon with restoreAll := true } }
  | (none, true) => (b.cvuMismatch 4 (b.spillBase / 64)).modOps (fun o => { o with prog := .ended 3 2 })
  | (none, false) => b.modOps (fun o => { o with prog := .ended 3 1 })

/-- Step 7: the flag clears, and the operation has ended. -/
def Blk.restoreClear (b : Blk) (r d : Nat) : Blk :=
  { b.modOps (fun o => { o with prog := .ended r d }) with aon := { b.aon with restoreAll := false } }

/-- Step 6, once every entry is zeroed: what was restored is admitted. -/
def Blk.restoreAdmit (b : Blk) : Blk :=
  if b.updates.any (fun u => u.kind.isWrite) then b
  else
    let r := b.staging.checkAdmission
    if r.code = 0 then ({ b with clk := { b.clk with floorLive := b.clk.floor } }).restoreClear 1 0
    else b.allStandard.restoreClear 4 r.code

/-- Steps 4 and 5: the sections written and checked again. -/
def Blk.restoreEnd (b : Blk) (m : List Host.Cell) : Blk :=
  match b.spillImage m with
  | (none, bad) =>
    let b := b.emptied
    (if bad then b.cvuMismatch 4 (b.spillBase / 64) else b).restoreClear 3 2
  | (some x, _) => (((b.writeSections x).zeroEntries m).modOps (fun o => { o with prog := .zeroing })).restoreAdmit

/-! ## OPS.CTL (16 R592) -/

/-- A write of OPS.CTL.OP that is discarded. -/
def Blk.opsRefuse (b : Blk) : Blk := b.modOps (fun o => { o with refused := true })

/-- The operation ends. -/
def Blk.opsEnd (b : Blk) (m : List Host.Cell) (r d : Nat) : Blk :=
  let st : Bool := b.ops.op = 4
  let b := b.modOps (fun o => { o with busy := false, done := true, result := r, detail := d, progress := 0, prog := .none })
  (if st then { b with arb := { b.arb with mode := 0 } } else b).pump m

/-- An operation starts: its own refusal ends it at once (16 Table 16-5). `fail` is the unit that SELFTEST finds failing. -/
def Blk.opsStart (b : Blk) (m : List Host.Cell) (code : Nat) (fail : Option Nat) : Blk :=
  let b := b.modOps (fun o => { o with busy := true, op := code, progress := 0 })
  match code with
  | 1 => b.modOps (fun o => { o with prog := .scrub 0 })
  | 2 =>
    if !b.spillEn then b.opsEnd m 2 1
    else b.spillBegin.modOps (fun o => { o with prog := .spill [b.spillBase / 64 + 1] false false })
  | 3 =>
    if !b.spillEn then b.opsEnd m 2 1
    else if !b.empty then b.opsEnd m 2 2
    else b.restoreBegin m
  | 4 =>
    if b.classesLive then b.opsEnd m 2 1
    else ({ b with arb := { b.arb with mode := 0xFFFF } }).selftestFrom fail 16 0
  | _ => b

/-- A write of OPS.CTL.OP (16 R592). -/
def Blk.writeOp (b : Blk) (m : List Host.Cell) (code : Nat) (fail : Option Nat) : Blk :=
  if b.ops.busy || b.pwr.seq.seq ≠ .none || code = 0 || 5 ≤ code then b.opsRefuse else b.opsStart m code fail

/-! ## SETTLE (16 R585, Table 16-5) -/

/-- The next spilled source that SETTLE has not settled. -/
def Blk.settleNext (b : Blk) (next : Nat) : Option Nat :=
  ((b.mapped.filter (fun x => !x.2.res && next ≤ x.1)).map (·.1)).head?

/-- SETTLE hands its next entry to the spill path, once the one before is settled. -/
def Blk.settleStep (b : Blk) (m : List Host.Cell) : Blk :=
  match b.ops.prog with
  | .settle n =>
    if b.updates.any (fun u => u.kind == .settle) then b
    else match b.settleNext n with
      | some i => (b.cmdUpdate m i .settle).modOps (fun o => { o with prog := .settle (i + 1), progress := (i + 1) * 256 / 524288 })
      | none => b.modOps (fun o => { o with prog := .ended 1 0 })
  | _ => b

/-- The running operation ends (16 R592). -/
def Blk.operationEnd (b : Blk) (m : List Host.Cell) : Blk :=
  let fin (b : Blk) : Blk := match b.ops.prog with
    | .ended r d => b.opsEnd m r d
    | _ => b
  match b.ops.prog with
  | .scrub _ => fin (b.scrubAll m)
  | .restore _ => fin (b.restoreEnd m)
  | .zeroing => fin b.restoreAdmit
  | .settle _ => fin (b.settleStep m)
  | _ => fin b

end Sys2Proof.Machine
end

