-- ==== Sys2Proof/Machine/Debug.lean ====
section
/-! DEFINITION. Debug levels, authenticated unlock, halts, the memory window and the injection gates (14 R545, R546; 15
R554 to R574). -/
namespace Sys2Proof.Machine
open Sys2Proof

/-- Block DBG changed. -/
def Blk.modDbg (b : Blk) (f : Dbg → Dbg) : Blk := { b with dbg := f b.dbg }
/-- The TAP changed. -/
def Blk.modTap (b : Blk) (f : Tap → Tap) : Blk := b.modDbg (fun d => { d with tap := f d.tap })

/-! ## Injection gates (14 R546, Table 14-8) -/

/-- Points behind gate B, Table 14-7. -/
def gateB : List Nat := [1, 3, 4, 6, 7, 15, 16, 19, 20, 22, 23, 25, 26, 27]

/-- Whether a point may be armed in a lifecycle state and at a level. -/
def gateOpen (lc : BitVec 2) (l : Level) (point : Nat) : Bool :=
  if lc = 0 then true
  else if gateB.contains point || lc = 2 then l == .invasive
  else l != .none

/-- A write of INJ.ARM: permitted bits arm, refused bits are recorded (14 R545, R546). -/
def Blk.injArm (b : Blk) (points : BitVec 28) : Blk :=
  let ps := bitsOf 28 points.toNat
  let ok := ps.filter (gateOpen b.dbg.lc b.dbg.level)
  { b with inj := { b.inj with arm := ok.foldl setAdd b.inj.arm, refused := b.inj.refused || ok.length != ps.length } }

/-! ## Levels (15 R554 to R556) -/

/-- Order of the levels. -/
def Level.rank : Level → Nat
  | .none => 0
  | .observe => 1
  | .invasive => 2

/-- The level that a two-bit code asks for. -/
def levelOf (l : BitVec 2) : Level := if l = 0 then .none else if l = 1 then .observe else .invasive

/-- How Table 15-2 opens a level to JTAG in a lifecycle state: by a write, or by a response check with the owner's or
the return key. -/
inductive JtagWay where
  | byWrite | dkey | rkey
  deriving DecidableEq, Repr

def jtagWay (lc : BitVec 2) (l : Level) : JtagWay :=
  match l with
  | .none => .byWrite
  | .observe => if lc = 2 then .dkey else .byWrite
  | .invasive => if lc = 0 then .byWrite else if lc = 3 then .rkey else .dkey

/-- The level takes a value: a fall from INVASIVE ends every halt and disarms what the gates then refuse (15 R556). -/
def Blk.setLevel (b : Blk) (m : List Host.Cell) (l : Level) : Blk :=
  let fall : Bool := b.dbg.level == .invasive && l != .invasive
  let b := b.modDbg (fun d => { d with level := l })
  if fall then
    let b := b.modDbg (fun d => { d with haltCl := [], haltSeq := false })
    ({ b with inj := { b.inj with arm := b.inj.arm.filter (gateOpen b.dbg.lc l) } }).pump m
  else b

/-- A write of DBG.CTL.LEVEL from JTAG or from FP4 (15 R555, Table 15-2). -/
def Blk.levelWrite (b : Blk) (m : List Host.Cell) (jtag : Bool) (l : BitVec 2) : Blk :=
  let lv := levelOf l
  let opened : Bool := l != 3 && (lv.rank ≤ b.dbg.level.rank || (if jtag then jtagWay b.dbg.lc lv == .byWrite else lv == .observe))
  if opened then (b.modDbg (fun d => { d with src := jtag })).setLevel m lv
  else b.modDbg (fun d => { d with lvlRefused := true })

/-! ## The TAP (15 R557 to R563) -/

/-- A fuse word (15 R553). -/
def Blk.fuse (b : Blk) (w : Nat) : Word := tabGet 0 b.pins.fuse w

/-- The valid bit of a key, and its 32 bytes (15 Table 15-1). -/
def Blk.keyOf (b : Blk) : JtagWay → Bool × List Byte
  | .rkey => (bit (b.fuse 0x40).toNat 1, (List.range 32).map (fun i => (b.fuse (0x38 + i / 4)).extractLsb' (8 * (i % 4)) 8))
  | _ => (bit (b.fuse 0x40).toNat 0, (List.range 32).map (fun i => (b.fuse (0x30 + i / 4)).extractLsb' (8 * (i % 4)) 8))

/-- A challenge that is not formed, with its status. -/
def Blk.chalNo (b : Blk) (status : BitVec 8) : Blk := b.modTap (fun t => { t with chal := none, chalStatus := status })

/-- Update-DR of DBG_CHAL (15 R560, R562, R563). -/
def Blk.challenge (b : Blk) (req : BitVec 2) : Blk :=
  if !b.tapReady then b.modTap (fun t => { t with chalStatus := 2 })
  else if b.dbg.tap.fails = 8 then b.chalNo 3
  else
    let way := jtagWay b.dbg.lc (levelOf req)
    if req = 3 || way = .byWrite then b.chalNo 4
    else if !(b.keyOf way).1 then b.chalNo 5
    else
      let x := b.drawFree
      x.1.modTap (fun t => { t with chal := some (Config.freeEntropy x.2, req, t.fails), chalStatus := 0 })

/-- The challenge bytes, Table 15-4. -/
def challengeBytes (n : BitVec 128) (req lc : BitVec 2) (fails : Nat) : List Byte :=
  (List.range 16).map (fun i => n.extractLsb' (8 * i) 8) ++
  [req.setWidth 8, lc.setWidth 8, BitVec.ofNat 8 fails, 0, BitVec.ofNat 8 hubVersion, BitVec.ofNat 8 (hubVersion / 256), 0, 0]

/-- Bytes as DBG_CHAL and DBG_RESP carry them: bit j of byte i at bit 8i + j. -/
def shiftBytes (l : List Byte) : Nat := l.foldr (fun x a => x.toNat + 256 * a) 0

/-- Update-DR of DBG_RESP (15 R561). -/
def Blk.response (b : Blk) (r : BitVec 256) : Blk :=
  if !b.tapReady then b.modTap (fun t => { t with outcome := 4 })
  else if b.dbg.tap.auth.isSome then b.modTap (fun t => { t with outcome := 3 })
  else match b.dbg.tap.chal with
    | none => b.modTap (fun t => { t with outcome := 5 })
    | some (n, req, fails) => b.modTap (fun t => { t with chal := none, chalStatus := 1, auth := some (r, n, req, fails) })

/-- The comparison ends (15 R561, R562). -/
def Blk.responseEnd (b : Blk) (m : List Host.Cell) : Blk :=
  match b.dbg.tap.auth with
  | none => b
  | some (r, n, req, fails) =>
    let key := (b.keyOf (jtagWay b.dbg.lc (levelOf req))).2
    let b' := b.modTap (fun t => { t with auth := none })
    if r = BitVec.ofNat 256 (shiftBytes (hmacSha256 key (challengeBytes n req b.dbg.lc fails))) then
      ((b'.modTap (fun t => { t with outcome := 1, fails := 0 })).modDbg (fun d => { d with src := true })).setLevel m (levelOf req)
    else b'.modTap (fun t => { t with outcome := 2, fails := min 8 (t.fails + 1) })

/-! ## Halts and stepping (15 R566) -/

/-- DBG.HALT written at INVASIVE. -/
def Blk.writeHalt (b : Blk) (m : List Host.Cell) (cl : BitVec 16) (seq : Bool) : Blk :=
  if b.dbg.level ≠ .invasive then b
  else (b.modDbg (fun d => { d with haltCl := bitsOf 16 cl.toNat, haltSeq := seq })).pump m

/-- DBG.STEP written at INVASIVE: one instruction of an engine of a halted cluster, with its step cost, BUDGET and
faults. -/
def Blk.stepEngine (b : Blk) (c k : Nat) : Blk :=
  if b.dbg.level ≠ .invasive || !setHas b.dbg.haltCl c then b
  else match b.runOf c k true with
    | none => b
    | some r =>
      match (b.cl c).fetch r (b.injHit 7 c) with
      | .inl _ => b.fetchFault c k true
      | .inr w => b.instr c k (opOf w) (opStep (opOf w)) true

/-! ## The memory window (15 R568, Table 15-6) -/

/-- Words of each space; none for a code that names no space. -/
def spaceSize (space : Nat) : Nat :=
  match space with
  | 0 => 262144
  | 1 => 8192
  | 2 => 4096
  | 3 => 19
  | 4 => 65536
  | 5 => 32768
  | _ => 0

/-- The operation ends: what a read returns. -/
def Blk.memDone (b : Blk) (v : Option Dword) : Blk :=
  b.modDbg (fun d => { d with mw := { d.mw with done := true, waits := false, lo := (v.map (·.extractLsb' 0 32)).getD d.mw.lo,
                                                hi := (v.map (·.extractLsb' 32 32)).getD d.mw.hi } })

/-- A word read. -/
def Blk.memGive (b : Blk) (v : Nat) : Blk := b.memDone (some (BitVec.ofNat 64 v))

/-- A word read for which the spec states no value: a free value of `w` bits. -/
def Blk.memFree (b : Blk) (w : Nat) : Blk :=
  let x := b.drawFree
  x.1.memGive ((Config.freeWord x.2).toNat % 2 ^ w)

/-- A write of the window taints the block (15 R569). -/
def Blk.memPut (b : Blk) : Blk := (b.modDbg (fun d => { d with taint := true })).memDone none

/-- An operation that is refused. -/
def Blk.memErr (b : Blk) : Blk := b.modDbg (fun d => { d with mw := { d.mw with done := true, err := true } })

/-- Space 0: one read-modify-write at input 0 of the slot's bank. -/
def Blk.memStore (b : Blk) : Blk :=
  let w := b.dbg.mw
  let s := w.addr
  let b := b.granted (s % 16) 0
  if w.write then
    ({ b.modSlot s (fun x => { x with entry := decodeEntry (w.hi ++ w.lo) }) with
       ecc := { b.ecc with entryBad := setDel b.ecc.entryBad s, entryCe := setDel b.ecc.entryCe s } }).memPut
  else
    let b := b.slotRead s
    if setHas b.ecc.entryBad s then
      let x := b.drawFree
      let y := x.1.drawFree
      y.1.memDone (some (Config.freeWord y.2 ++ Config.freeWord x.2))
    else b.memDone (some (encodeEntry (b.slot s).entry))

/-- Spaces 1 and 2: a word of a cluster's stores. -/
def Blk.memProg (b : Blk) : Blk :=
  let w := b.dbg.mw
  if w.write then
    (b.modCl w.cluster (fun c => { c with prog := tabSet 0 c.prog w.addr (w.lo.setWidth 24), progBad := setDel c.progBad w.addr })).memPut
  else if setHas (b.cl w.cluster).progBad w.addr then b.memFree 24
  else b.memGive (tabGet 0 (b.cl w.cluster).prog w.addr).toNat

def Blk.memData (b : Blk) : Blk :=
  let w := b.dbg.mw
  if w.write then (b.modCl w.cluster (fun c => c.dataPut w.addr (w.lo.setWidth 24))).memPut
  else match (b.cl w.cluster).dataAt w.addr with
    | none => b.memFree 24
    | some v => b.memGive v.toNat

/-- An item of a run's state. -/
def Run.item (r : Run) (n : Nat) : Nat :=
  if n < 16 then (r.reg n).toNat
  else if n = 16 then pack [(b2n r.f.z, 1, 3), (b2n r.f.n, 1, 2), (b2n r.f.c, 1, 1), (b2n r.f.v, 1, 0)]
  else if n = 17 then r.pc.toNat
  else r.steps

/-- A run with an item of its state written. -/
def Run.setItem (r : Run) (n v : Nat) : Run :=
  if n < 16 then r.setReg n (BitVec.ofNat 24 v)
  else if n = 16 then { r with f := { z := bit v 3, n := bit v 2, c := bit v 1, v := bit v 0 } }
  else if n = 17 then { r with pc := BitVec.ofNat 13 v }
  else { r with steps := v % 256 }

/-- Space 3: an item of a halted engine. An engine without a run holds no value that the spec states. -/
def Blk.memEngine (b : Blk) : Blk :=
  let w := b.dbg.mw
  if !setHas b.dbg.haltCl w.cluster then b.memErr
  else match (tabGet {} (b.cl w.cluster).engines w.engine).st with
    | .running r =>
      if w.write then
        (b.setEngine w.cluster w.engine (fun e => { e with st := .running (r.setItem w.addr (bits w.lo.toNat 23 0)) })).memPut
      else b.memGive (r.item w.addr)
    | _ => if w.write then b.memPut else b.memFree 24

/-- Space 5: the Sequencer's private RAM. A read meets point 25 as the Sequencer's own reads do. -/
def Blk.memSeq (b : Blk) : Blk :=
  let w := b.dbg.mw
  if w.write then (b.modDbg (fun d => { d with seqRam := tabSet 0 d.seqRam w.addr w.lo })).memPut
  else if b.injHit 25 0 then (((b.injDone 25).modDbg (fun d => { d with seqBad := true })).uncorr 24 0 w.addr).memFree 32
  else if b.dbg.seqBad then b.memFree 32
  else b.memGive (tabGet 0 b.dbg.seqRam w.addr).toNat

/-- One operation of the window. A State Store operation waits while its bank serves other requests. -/
def Blk.memOp (b : Blk) : Blk :=
  let w := b.dbg.mw
  if spaceSize w.space ≤ w.addr || (w.space = 4 && w.write) then b.memErr
  else match w.space with
    | 0 => if b.bankBusy (w.addr % 16) then b.modDbg (fun d => { d with mw := { d.mw with waits := true } }) else b.memStore
    | 1 => b.memProg
    | 2 => b.memData
    | 3 => b.memEngine
    | 4 => b.memGive (Config.romWord w.addr).toNat
    | _ => b.memSeq

/-- A State Store operation that waits tries again. -/
def Blk.memWaiting (b : Blk) : Blk := if b.dbg.mw.waits && !b.bankBusy (b.dbg.mw.addr % 16) then b.memStore else b

/-- A write of DBG.MEM_CTL with GO = 1, or with GO = 0 (15 R568, R574). -/
def Blk.writeMemCtl (b : Blk) (space : Nat) (write : Bool) (cluster engine : Nat) (go : Bool) : Blk :=
  if b.dbg.level ≠ .invasive then
    (if go then b.modDbg (fun d => { d with mw := { d.mw with err := true } }) else b)
  else
    let b := b.modDbg (fun d => { d with mw := { d.mw with space := space, write := write, cluster := cluster, engine := engine } })
    if go then (b.modDbg (fun d => { d with mw := { d.mw with done := false, err := false, waits := false } })).memOp else b

/-! ## The trace buffer (15 R565) -/

/-- CLEAR: the buffer emptied, FULL and DROPPED cleared. -/
def Blk.clearTrace (b : Blk) : Blk :=
  b.modDbg (fun d => { d with trace := { wrap := d.trace.wrap } })

end Sys2Proof.Machine
end

