-- ==== Sys2Proof/Machine/Federation.lean ====
section
/-! DEFINITION. The Federation Unit: messages between Hubs, joining, time offsets, views, forwarded candidates and the
loss of a peer (12 R452 to R474). -/
namespace Sys2Proof.Machine
open Sys2Proof

/-! ## Messages (12 R453, R454) -/

/-- The sequences of one class toward a peer changed. -/
def Blk.modZ (b : Blk) (p : Nat) (event : Bool) (f : ZClass → ZClass) : Blk :=
  b.modPeer p (fun x => if event then { x with ev := f x.ev } else { x with ct := f x.ct })

/-- The sequences of one class toward a peer. -/
def Blk.zClass (b : Blk) (p : Nat) (event : Bool) : ZClass := if event then (b.peer p).ev else (b.peer p).ct

/-- The Federation Unit takes part and is clocked (12 R452; 13 R480). -/
def Blk.zOn (b : Blk) : Bool := b.fed.en && b.served

/-- The Fabric Port of a class: FP6 for events, FP7 for control (12 R453). -/
def zPort (event : Bool) : Nat := if event then 6 else 7

/-- A message of a peer arrives: accepted and acknowledged when it carries the receive sequence, else discarded. An
event-class message wakes the Hub from IDLE (12 R454; 13 R491). Point 24 discards one. -/
def Blk.zTake (b : Blk) (m : List Host.Cell) (p : Nat) (event : Bool) (seq : Nat) (f : Blk → Blk) : Blk :=
  if !b.zOn || 4 ≤ p then b
  else b.portIn (zPort event) (fun b =>
    let b := if event && b.pwr.regs.state = .idle then b.wakeEv m 6 p else b
    if event && b.injHit 24 p then b.injDone 24
    else if seq = (b.zClass p event).rx then
      f (b.modZ p event (fun c => { c with rx := seqInc c.rx, acks := c.acks ++ [seq] }))
    else b)

/-- An acknowledgement retires the message it names and those before it. -/
def Blk.zAck (b : Blk) (p : Nat) (event : Bool) (seq : Nat) : Blk :=
  if !b.zOn then b
  else b.portIn (zPort event) (fun b =>
    if !((b.zClass p event).unacked.any (fun x => x.1 == seq)) then b
    else b.modZ p event (fun c => { c with unacked := (c.unacked.dropWhile (fun x => x.1 ≠ seq)).drop 1 }))

/-- Unacknowledged messages are sent again, in order. -/
def Blk.zResend (b : Blk) (p : Nat) (event : Bool) : Blk :=
  if !b.zOn then b else b.modZ p event (fun c => { c with wire := c.wire ++ c.unacked })

/-! ## Joining (12 R458 to R461) -/

/-- The HELLO that this Hub sends, or its answer. -/
def Blk.greeting (b : Blk) (ack : Bool) : ZMsg :=
  if ack then .helloAck 2 b.hctl.fwver b.fed.hubid b.fed.fedid b.fed.digest
  else .hello 2 b.hctl.fwver b.fed.hubid b.fed.fedid b.fed.digest

/-- HELLO to every member with which the Hub has not joined. -/
def Blk.helloTimer (b : Blk) : Blk :=
  if !b.zOn || !b.fed.loaded then b
  else ((List.range 4).filter (fun p => b.fed.members.getLsbD p && p ≠ b.fed.hubid && !(b.peer p).joined)).foldl
    (fun b p => b.zSend p (b.greeting false)) b

/-- A conflict of ownership or of HUBID is recorded and raised (12 R467, Table 12-3). -/
def Blk.conflict (b : Blk) : Blk := ({ b with fed := { b.fed with conflict := true } }).raise 0x7A

/-- A time measurement begins: TIME_REQ with T1 (12 R462). -/
def Blk.measure (b : Blk) (p : Nat) : Blk :=
  (b.modPeer p (fun x => { x with t1 := some b.now })).zSend p (.timeReq b.now)

/-- A join proceeds: the Hub of lower number measures (12 R460, R462). -/
def Blk.joinStart (b : Blk) (p : Nat) : Blk :=
  if (b.peer p).joined || (b.peer p).joining then b
  else
    let b := b.modPeer p (fun x => { x with joining := true })
    if b.fed.hubid < p then b.measure p else b

/-- The pair is joined: OWN for every virtual context of this Hub that runs, and a parked rescan (12 R460). -/
def Blk.joinDone (b : Blk) (p : Nat) : Blk :=
  if !(b.peer p).joining then b
  else
    let b := (b.modPeer p (fun x => { x with joined := true, joining := false })).raise 0x78
    let runs := b.fed.doms.flatMap (fun d => ((List.range (min d.2.cmcount 1024)).filter (fun v =>
      (b.remoteHome d.1 v).isNone && (b.vctx d.1 v).run && !(b.vctx d.1 v).sw)).map (fun v => (d.1, v)))
    (runs.foldl (fun b x => b.zSend p (.own x.1 x.2 true)) b).rescan

/-- Bits of FED.STAT for a peer, by the first row of Table 12-3 that applies; each change is raised. -/
def Blk.compare (b : Blk) (p proto fwver fedid : Nat) (digest : Word) : Blk :=
  let x := b.peer p
  let mis : Bool := proto ≠ 2
  let dig : Bool := fedid ≠ b.fed.fedid || digest ≠ b.fed.digest
  let y := if mis then { x with protoMis := true }
    else if dig then { x with protoMis := false, digestMis := true }
    else { x with protoMis := false, digestMis := false, fwDiff := fwver ≠ b.hctl.fwver }
  let changed : Bool := (x.protoMis, x.digestMis, x.fwDiff) ≠ (y.protoMis, y.digestMis, y.fwDiff)
  let b := b.modPeer p (fun _ => { y with fwver := fwver })
  let b := if changed then b.raise 0x78 else b
  if mis || dig then b else b.joinStart p

/-- A HELLO or HELLO_ACK received (12 R458, R459). -/
def Blk.greeted (b : Blk) (p proto fwver hubid fedid : Nat) (digest : Word) (answer : Bool) : Blk :=
  if proto = 2 && (hubid = b.fed.hubid || !b.fed.members.getLsbD hubid) then b.conflict
  else
    let b := if answer then b.zSend p (b.greeting true) else b
    b.compare p proto fwver fedid digest

/-! ## Time offset (12 R462, R463) -/

/-- A signed number held to 32 bits. -/
def sat32 (x : Int) : Word := BitVec.ofInt 32 (max (-2147483648) (min x 2147483647))

/-- A measurement in or out of range (12 R463). -/
def Peer.range (x : Peer) (out : Bool) : Peer :=
  if out then { x with offsetOut := true, good := 0 }
  else if !x.offsetOut then x
  else if x.good = 0 then { x with good := 1 }
  else { x with offsetOut := false, good := 0 }

/-- OFFSET takes a value (12 R462, R463). -/
def Blk.offsetIs (b : Blk) (p : Nat) (v : Int) : Blk :=
  b.modPeer p (fun x => { x with offset := sat32 v }.range (v < -1000 || 1000 < v))

/-- TIME_REQ to each joined peer of higher number. -/
def Blk.measureTimer (b : Blk) : Blk :=
  if !b.zOn then b
  else ((List.range 4).filter (fun p => (b.peer p).joined && b.fed.hubid < p && (b.peer p).t1.isNone)).foldl Blk.measure b

/-- TIME_REQ received: answered with T2 and T3; a join that waited for it is complete. -/
def Blk.timeReq (b : Blk) (p : Nat) (t1 : Dword) : Blk := (b.zSend p (.timeRsp t1 b.now b.now)).joinDone p

/-- TIME_RSP received at T4: OFFSET and DELAY, OFFSET's report to the peer, and a join that waited for it. -/
def Blk.timeRsp (b : Blk) (p : Nat) (t1 t2 t3 : Dword) : Blk :=
  if (b.peer p).t1 ≠ some t1 then b
  else
    let n (t : Dword) : Int := t.toNat
    let off := ((n t2 - n t1) - (n b.now - n t3)).tdiv 2
    let b := (b.modPeer p (fun x => { x with t1 := none, delay := (b.now - t1) - (t3 - t2) })).offsetIs p off
    (b.zSend p (.offset (sat32 (-off)))).joinDone p

/-- A measurement has not completed within 100 µs; a join that waited for it starts again from HELLO (12 R463). -/
def Blk.measureTimeout (b : Blk) (p : Nat) : Blk :=
  if !b.zOn || (b.peer p).t1.isNone then b
  else b.modPeer p (fun x => { x with t1 := none, joining := false }.range true)

/-- The Sequencer's restart: joins in progress start again from HELLO (14 R521). -/
def Blk.joinsRestart (b : Blk) : Blk :=
  { b with fed := { b.fed with peers := tabMap {} (fun _ x =>
      if x.joining then { x with joining := false, t1 := none } else x) b.fed.peers } }

/-! ## Views (12 R466, R467) -/

/-- OWN for a virtual context whose home is the peer: the view takes it; one that differs from the view is a conflict. -/
def Blk.ownRuns (b : Blk) (p d v : Nat) (run : Bool) : Blk :=
  if b.remoteHome d v ≠ some p then b
  else
    let k := 1024 * d + v
    let differs : Bool := tabGet none (b.peer p).view k = some !run
    let b := b.modPeer p (fun x => { x with view := tabSet none x.view k (some run) })
    if differs then ({ b with fed := { b.fed with conflictCnt := satInc b.fed.conflictCnt } }).conflict else b

/-- The offset that the peer measured, negated, arrives as an OWN-class report (12 R462). -/
def Blk.ownOffset (b : Blk) (p : Nat) (v : Word) : Blk := b.offsetIs p v.toInt

/-! ## Forwarded candidates at the receiving Hub (12 R470, R471) -/

/-- A physical context that a member of a live CRITICAL or FIRM route runs on. -/
def Blk.admittedCtx (b : Blk) (p : Nat) : Bool :=
  b.adm.any (fun x => match b.routeOf x with
    | none => false
    | some r => (b.liveRt.members r).any (fun v =>
        if x.2.domid = 0 then v == p && b.ownerOf p == 0
        else (b.remoteHome x.2.domid v).isNone && (b.vctx x.2.domid v).run && (b.vctx x.2.domid v).pctx == p))

/-- A link that holds candidates: it is UP, or will be again without losing its queue. -/
def Link.queues (l : Link) : Bool :=
  match l.st with
  | .up | .retrain | .training | .paused => true
  | _ => false

/-- A forwarded candidate enters the output queue of its physical context's link, ranked as STANDARD. -/
def Blk.enterFwd (b : Blk) (peer p : Nat) (f : FwdMsg) : Blk :=
  let n := p / 64
  let cls : BitVec 2 := if b.admittedCtx p then 1 else f.cls
  let urg := if (b.peer peer).offsetOut then b.stampNow - f.stamp else urgency cls b.stampNow f.stamp f.dl
  let h := (b.link n).freeHandle
  let b := b.modLink n (fun l => l.modHandle h (fun _ =>
    { st := .queued, stt := f.domid, mapgen := f.mapgen, gen := f.gen, ctx := p % 64, prox := some (peer, f.proxy) }))
  b.enqueue n { shared := false, ctx := p % 64, handle := h, intid := f.vintid, key := mkKey cls f.prio urg,
                qkey := mkKey 1 f.prio urg }

/-- FWD received: a virtual context that does not run at its home is answered RELEASED, with OWN (12 R467). -/
def Blk.fwdTaken (b : Blk) (peer : Nat) (f : FwdMsg) : Blk :=
  let e := b.vctx f.domid f.v
  let back (b : Blk) : Blk := b.zSend peer (.released f.proxy f.gen)
  if !(e.run && !e.sw) then ((back b).zSend peer (.own f.domid f.v false)).raise 0x7A
  else if (b.link (e.pctx / 64)).queues then b.enterFwd peer e.pctx f
  else back b

/-- The handle bound to a peer's proxy: its link and number. -/
def Blk.handleOf (b : Blk) (peer proxy : Nat) : Option (Nat × Nat) :=
  (List.range 16).findSome? (fun n =>
    ((b.link n).handles.find? (fun x => x.2.st ≠ .free && x.2.prox == some (peer, proxy))).map (fun x => (n, x.1)))

/-- WDRAW of a proxy, passed to its handle: a queued candidate is released at once (12 R470). -/
def Blk.wdrawTaken (b : Blk) (peer proxy : Nat) : Blk :=
  match b.handleOf peer proxy with
  | none => b
  | some (n, h) =>
    let g := ((b.link n).handle h).gen
    let x := b.withdrawHandle n h
    if x.2 then x.1.zSend peer (.released proxy g) else x.1

/-! ## Notices at the home Hub (12 R469) -/

/-- RELEASED, CLAIMED and COMPLETE of a proxy: the update of its entry, through input 3, and then the proxy moves as Table 6-3 moves a handle. -/
def Blk.proxyNotice (b : Blk) (m : List Host.Cell) (k : NoticeKind) (gen : BitVec 8) (peer proxy : Nat) : Blk :=
  let x := b.named (16 + peer) proxy
  if x.st = .free || b.lostHandle (16 + peer) proxy then b
  else b.peerNotice m (16 + peer) proxy { stt := x.stt, mapgen := x.mapgen, kind := .notice k (16 + peer) proxy 0 gen }

/-! ## Loss of a peer (12 R473) -/

/-- Releases and completions of every proxy toward a peer, each freed as its own takes effect. -/
def Blk.dropProxies (b : Blk) (m : List Host.Cell) (p : Nat) : Blk :=
  (b.peer p).proxies.foldl (fun b x => match x.2.st with
    | .queued | .standing => b.proxyNotice m .released x.2.gen p x.1
    | .active => b.proxyNotice m .complete x.2.gen p x.1
    | .free => b) b

/-- One handle bound to a proxy of the peer: its copy is withdrawn, and it is bound to no proxy any more. -/
def Blk.unbind (b : Blk) (p n h : Nat) : Blk :=
  let x := b.withdrawHandle n h
  if x.2 then x.1 else x.1.modLink n (fun l => l.modHandle h (fun y => { y with prox := some (p, 1024) }))

/-- Every handle bound to the peer's proxies removed, with WDRAW to its Tile Agent. -/
def Blk.dropHandles (b : Blk) (p : Nat) : Blk :=
  (List.range 16).foldl (fun b n =>
    ((b.link n).handles.filter (fun x => match x.2.prox with
      | some (q, k) => q == p && k < 1024
      | none => false)).foldl (fun b x => b.unbind p n x.1) b) b

/-- A peer departs: lost, by LEAVE, or by FED.CTL.EN = 0. After a loss, and while EN is 0, no message of the pair is
owed, and its sequences begin again. -/
def Blk.depart (b : Blk) (m : List Host.Cell) (p : Nat) (lost fresh : Bool) : Blk :=
  let was := (b.peer p).joined
  let b := (b.dropProxies m p).dropHandles p
  let anew (c : ZClass) : ZClass := if fresh then { wire := c.wire, acks := c.acks } else c
  let b := b.modPeer p (fun x => { x with joined := false, joining := false, t1 := none, view := [], lost := x.lost || lost,
                                          ev := anew x.ev, ct := anew x.ct })
  let b := if was then b.raise 0x78 else b
  b.raise 0x79

/-- A peer has acknowledged nothing for 100 µs (12 R454, R473). -/
def Blk.peerLost (b : Blk) (m : List Host.Cell) (p : Nat) : Blk :=
  if b.zOn && p < 4 && !((b.peer p).ev.unacked.isEmpty && (b.peer p).ct.unacked.isEmpty) then b.depart m p true true else b

/-- LEAVE received: an unjoined peer has nothing to take back. -/
def Blk.leaveTaken (b : Blk) (m : List Host.Cell) (p : Nat) : Blk := if (b.peer p).joined then b.depart m p false false else b

/-! ## The federated configuration (12 R455 to R457, R461) -/

/-- Host line number of the configuration. -/
def Fed.cfgLine (f : Fed) : Nat := f.cfgHi.toNat * 2 ^ 26 + bits f.cfgLo.toNat 31 6

/-- Lines `k` to `k + n - 1` read once each; none when a read fails. -/
def Blk.readRun (b : Blk) (m : List Host.Cell) (line : Nat) : Nat → Blk × Option (List (BitVec 512))
  | 0 => (b, some [])
  | n + 1 =>
    let x := b.readOnce m line
    match x.2 with
    | none => (x.1, none)
    | some l =>
      let y := x.1.readRun m (line + 1) n
      (y.1, y.2.map (l :: ·))

/-- The header line is well formed, and its LINES agrees with its NDOM. -/
def fedHeaderOk (l : BitVec 512) : Bool :=
  let w (k : Nat) : Nat := (lineWord l k).toNat
  w 0 == 0x01FED0A7 && w 1 < 2 ^ 20 && 1 ≤ w 2 && w 2 ≤ 64 && w 3 == 1 + 5 * w 2 &&
  (List.range 12).all (fun k => w (4 + k) == 0)

/-- A domain from its five lines. -/
def fedDomain (ls : List (BitVec 512)) : Nat × FedDom :=
  let h := ls.headD 0
  let n := bits (lineWord h 1).toNat 10 0
  let home (v : Nat) : Nat := bits (lineWord ((ls.drop 1).getD (v / 256) 0) (v / 16 % 16)).toNat (2 * (v % 16) + 1) (2 * (v % 16))
  (bits (lineWord h 0).toNat 11 0,
   { cmcount := n, home := (List.range (min n 1024)).foldl (fun t v => tabSet 0 t v (home v)) [] })

/-- The domains of a configuration's lines after the header. -/
def fedDomains : Nat → List (BitVec 512) → List (Nat × FedDom)
  | 0, _ => []
  | n + 1, ls => fedDomain (ls.take 5) :: fedDomains n (ls.drop 5)

/-- No DOMID repeats, and every HOME entry names a member. -/
def fedDomainsOk (members : Nat) (ds : List (Nat × FedDom)) : Bool :=
  ds.all (fun d => (ds.map (·.1)).count d.1 == 1 &&
    (List.range (min d.2.cmcount 1024)).all (fun v => members.testBit (tabGet 0 d.2.home v)))

/-- The digest of a configuration (12 R456). -/
def fedDigest (fedid lines : Nat) (ls : List (BitVec 512)) : Word :=
  seededCrc (fedid + 7 * 2 ^ 24) lines (ls.flatMap (fun l => lineBytes l 0 16))

/-- A reload that fails keeps the configuration loaded before (12 R457). -/
def Blk.reloadFails (b : Blk) : Blk := ({ b with fed := { b.fed with cfgErr := true } }).raise 0x7B

/-- LEAVE to every joined peer, which is then departed (12 R461). The cause it carries is a free value. -/
def Blk.leaveAll (b : Blk) (m : List Host.Cell) : Blk :=
  ((List.range 4).filter (fun p => (b.peer p).joined)).foldl (fun b p =>
    let x := b.drawFree
    (x.1.depart m p false false).zSend p (.leave (Config.freeWord x.2).toNat)) b

/-- FED.CTL.RELOAD (12 R455 to R457, R461). -/
def Blk.fedReload (b : Blk) (m : List Host.Cell) : Blk :=
  let x := b.readOnce m b.fed.cfgLine
  match x.2 with
  | none => x.1.reloadFails
  | some h =>
    if !fedHeaderOk h then x.1.reloadFails
    else
      let w (k : Nat) : Nat := (lineWord h k).toNat
      let y := x.1.readRun m (b.fed.cfgLine + 1) (w 3 - 1)
      match y.2 with
      | none => y.1.reloadFails
      | some ls =>
        let ds := fedDomains (w 2) ls
        let members := bits (w 1) 19 16
        if !fedDomainsOk members ds then y.1.reloadFails
        else
          let old := y.1.fed.digest
          let fedid := bits (w 1) 15 0
          let dg := fedDigest fedid (w 3) (h :: ls)
          let b := { y.1 with fed := { y.1.fed with loaded := true, fedid := fedid, members := BitVec.ofNat 4 members, digest := dg,
                                                    doms := ds.foldl (fun t d => tabPut t d.1 d.2) [] } }
          if dg ≠ old then b.leaveAll m else b

/-- FED.CTL.EN and HUBID written: a write of 0 departs from every peer; HUBID is discarded while EN is 1 (12 R473,
R474). -/
def Blk.writeFedCtl (b : Blk) (m : List Host.Cell) (en : Bool) (hubid : Nat) : Blk :=
  let b := if b.fed.en then b else { b with fed := { b.fed with hubid := hubid } }
  if b.fed.en && !en then
    let b := ((List.range 4).filter (fun p => (b.peer p).joined)).foldl (fun b p => b.depart m p false true) b
    let anew (c : ZClass) : ZClass := { wire := c.wire, acks := c.acks }
    { b with fed := { b.fed with en := false, peers := tabMap {} (fun _ x =>
        { x with joining := false, t1 := none, ev := anew x.ev, ct := anew x.ct }) b.fed.peers } }
  else { b with fed := { b.fed with en := en } }

end Sys2Proof.Machine
end

