-- ==== Sys2Proof/Machine/RegRead.lean ====
section
/-! DEFINITION. The Hub Control Space as a read shows it: every register of Tables 17-2 to 17-19, and the doorbell words
(17 R599 to R611). -/
namespace Sys2Proof.Machine
open Sys2Proof

/-- A register word from its fields: each with its value, width and lowest bit. -/
def word (fs : List (Nat × Nat × Nat)) : Word := BitVec.ofNat 32 (pack fs)

/-- Index and remaining offset in an array of `n` register groups of `stride` bytes that begins at `base`. -/
def regIdx (o base stride n : Nat) : Option (Nat × Nat) :=
  if base ≤ o && o < base + stride * n then some ((o - base) / stride, (o - base) % stride) else none

/-- The low and the high half of a 64-bit quantity. -/
def halfOf (d : Dword) (hi : Bool) : Word := if hi then d.extractLsb' 32 32 else d.extractLsb' 0 32

/-- Block HID (17 R609). -/
def Blk.readHid (b : Blk) (o : Nat) : Word :=
  match o with
  | 0x0 => 0x0201
  | 0x4 => 0x1C5E
  | 0x8 => wd b.hctl.fwver
  | 0xC => word [(b.hctl.tilePop.length, 5, 0), (b.hctl.ctxPop.length, 11, 16)]
  | 0x10 => wd (bitsTo b.hctl.tilePop)
  | _ => match regIdx o 0x80 4 32 with
    | some (j, 0) => wd (bitsTo ((b.hctl.ctxPop.filter (fun p => p / 32 == j)).map (· % 32)))
    | _ => 0

/-- Block HCTL (04 Tables 4-9 to 4-12; 05 Tables 5-9 to 5-12; 17 Table 17-4). -/
def Blk.readHctl (b : Blk) (o : Nat) : Word :=
  match o with
  | 0x10 => b.hctl.msiLo
  | 0x14 => b.hctl.msiHi
  | 0x18 => b.hctl.sstLo
  | 0x1C => b.hctl.sstHi
  | 0x20 => b.rings.spillOvf
  | 0x24 => b.rank.routeOvr
  | 0x30 => word [(b2n b.rank.epoch, 1, 0), (b2n (b.rank.resync && b.oldCnt = 0), 1, 1), (b.oldCnt, 8, 8), (b.rank.flips.toNat, 16, 16)]
  | 0x34 => word [(b.rank.parked.length, 20, 0), (b2n b.rank.rescan.isSome, 1, 31)]
  | _ => match regIdx o 0x100 8 16 with
    | some (n, 0) => (tabGet {} b.rank.geysers n).cfgW
    | some (n, 4) => (tabGet {} b.rank.geysers n).phaseW
    | _ => 0

/-- Codes of OPS.START_STAT.KIND. -/
def StartKind.code : StartKind → Nat
  | .cold => 0
  | .warm => 1
  | .off => 2

/-- The operation that OPS.CTL.OP reads: the one running, or 0. -/
def Ops.running (o : Ops) : Nat := if o.busy then o.op else 0

/-- Block OPS (16 Tables 16-9 to 16-11). -/
def Blk.readOps (b : Blk) (o : Nat) : Word :=
  let x := b.ops
  let s := b.ss
  match o with
  | 0x0 => wd x.running
  | 0x4 => word [(b2n x.busy, 1, 0), (x.op, 3, 1), (x.result, 4, 4), (x.detail, 8, 8), (x.progress, 8, 16), (b2n x.done, 1, 24),
      (b2n x.refused, 1, 25)]
  | 0x8 => word [(s.kind.code, 2, 0), (b2n s.converted, 1, 2), (s.convCause, 3, 3), (b2n s.retried, 1, 6),
      (b2n s.failedBefore, 1, 7), (s.fail1, 4, 8), (s.fail2, 4, 12)]
  | _ => 0

/-- Codes of a power state (02 Table 2-8). -/
def PState.code : PState → Nat
  | .run => 0
  | .idle => 1
  | .sleep => 2
  | .deep => 3
  | .off => 4

/-- PWR.STAT.PHASE. -/
def PSeq.phase : PSeq → Nat
  | .none => 0
  | .poll _ _ => 1
  | .gate _ => 2
  | .save _ _ _ => 3
  | .power _ => 4
  | .exit _ _ _ => 5

/-- Block PWR (13 Tables 13-12 to 13-17; 17 Table 17-19). -/
def Blk.readPwr (b : Blk) (o : Nat) : Word :=
  let r := b.pwr.regs
  let c := b.pwr.cfg
  match o with
  | 0x0 => word [(r.req.toNat, 3, 0), (b2n (b.pwr.seq.seq ≠ .none), 1, 8), (b2n r.autoIdle, 1, 9), (r.dlyTimeout.toNat, 10, 16)]
  | 0x4 => word [(r.state.code, 3, 0), (b.pwr.seq.seq.phase, 3, 4), (r.abortAp.toNat, 3, 8), (b2n r.aborted, 1, 11),
      (r.cause.toNat, 4, 12), (r.refClient.toNat, 6, 16), (b2n r.dlyTo, 1, 22), (b2n r.refused, 1, 23), (b2n r.vtimeout, 1, 24)]
  | 0x8 => word [(c.wakeEn.toNat, 8, 0), (c.wakePol.toNat, 8, 8), (bitsTo ((List.range 8).filter b.pinActive), 8, 16)]
  | 0xC => word [(c.wakeCause.toNat, 4, 0), (c.wakeIdx.toNat, 8, 4), (b2n c.wakeEntry, 1, 12)]
  | 0x10 => word [(c.offset.toNat, 6, 0), (b2n c.measured, 1, 6), (c.steps.toNat, 8, 8)]
  | 0x14 => wd c.idleDly.toNat
  | 0x18 => wd c.avsSel.toNat
  | 0x20 => c.spillLo
  | 0x24 => c.spillHi
  | 0x30 => c.refuseCnt
  | 0x34 => c.abortCnt
  | _ => 0

/-- Block CLK (01 Tables 1-5, 1-6). -/
def Blk.readClk (b : Blk) (o : Nat) : Word :=
  let c := b.clk
  match o with
  | 0x0 => word [(c.target.toNat, 2, 0), (c.floor.toNat, 2, 8), (c.floorLive.toNat, 2, 16)]
  | 0x4 => word [(b2n c.lock, 1, 0), (b2n c.bypass, 1, 1), (b2n c.switching, 1, 2), (c.curOp.toNat, 2, 4), (b2n c.lockLost, 1, 8),
      (b2n c.refused, 1, 9), (c.cause.toNat, 2, 10)]
  | _ => 0

/-- The banks whose counters block ARB shows: the selected one, or all. -/
def Arb.shown (a : Arb) : List Nat := if a.all then List.range 16 else [a.bank.toNat]

/-- A counter of input `i` as block ARB shows it: the sum over the shown banks, stopping at its largest value. -/
def Arb.sum (a : Arb) (i : Nat) (f : ArbCnt → Word) : Word :=
  wd (min (2 ^ 32 - 1) ((a.shown.map (fun k => (f (tabGet {} a.cnt (8 * k + i))).toNat)).sum))

/-- The largest MAXW of input `i` over the shown banks. -/
def Arb.most (a : Arb) (i : Nat) : Word := wd ((a.shown.map (fun k => (tabGet {} a.cnt (8 * k + i)).maxw.toNat)).foldl max 0)

/-- ARB.CTL.MODE: the banks that run pipelined, in a start, in SELFTEST or while an entry of theirs is rebuilt (14 R530). -/
def Blk.arbModes (b : Blk) : BitVec 16 :=
  b.arb.mode ||| BitVec.ofNat 16 (bitsTo (setOf (b.ecc.entryBad.map (· % 16))))

/-- Block ARB (14 Table 14-15). -/
def Blk.readArb (b : Blk) (o : Nat) : Word :=
  let a := b.arb
  match o with
  | 0x0 => word [(a.bank.toNat, 4, 0), (b2n a.all, 1, 4), (b.arbModes.toNat, 16, 16)]
  | 0x4 => a.revoke
  | _ => match regIdx o 0x100 32 3 with
    | some (0, r) => if r % 4 = 0 then a.sum (r / 4) ArbCnt.grant else 0
    | some (1, r) => if r % 4 = 0 then a.sum (r / 4) ArbCnt.wait else 0
    | some (_, r) => if r % 4 = 0 then a.most (r / 4) else 0
    | none => 0

/-- Block CVU (14 Tables 14-16, 14-17; 17 Table 17-19). -/
def Blk.readCvu (b : Blk) (o : Nat) : Word :=
  let c := b.cvu
  if o = 0 then word [(bitsTo c.host, 6, 0), (bitsTo c.link, 16, 6)]
  else match regIdx o 0x10 4 6 with
    | some (u, 0) => word [((tabGet 0 c.mis u).toNat, 16, 0), ((tabGet 0 c.dis u).toNat, 16, 16)]
    | _ => match regIdx o 0x40 4 6 with
      | some (u, 0) => tabGet 0 c.cap u
      | _ => 0

/-- ERR.ING_MALF_CAP and ERR.ING_UNMAP_CAP (04 Table 4-5; 14 Table 14-12). -/
def IngCap.word (c : IngCap) : Word := Machine.word [(c.mip, 7, 0), (c.cause, 4, 8), (b2n c.valid, 1, 15), (c.reqid, 16, 16)]

/-- Block ERR (14 Tables 14-10 to 14-14). -/
def Blk.readErr (b : Blk) (o : Nat) : Word :=
  let e := b.err
  match o with
  | 0x0 => word [(b2n e.st.ce, 1, 0), (b2n e.st.ueRec, 1, 1), (b2n e.st.ueSur, 1, 2), (b2n e.st.fatal, 1, 3), (b2n e.st.access, 1, 4),
      (b2n e.st.fpFail, 1, 5), (b2n e.st.scrubLate, 1, 6), (b2n b.clk.bypass, 1, 8), (b2n (!b.time.valid), 1, 9)]
  | 0x4 => word [(e.ueCap.code, 5, 0), (e.ueCap.cls, 2, 5), (e.ueCap.index, 24, 7), (b2n e.ueCap.valid, 1, 31)]
  | 0x8 => word [(e.accCap.kind, 2, 0), (e.accCap.offset, 18, 2), (b2n e.accCap.write, 1, 20), (b2n e.accCap.valid, 1, 31)]
  | 0xC => e.malfCap.word
  | 0x10 => e.unmapCap.word
  | 0x14 => word [(e.scrubPeriod.toNat, 8, 0), (b2n e.scrubEn, 1, 8)]
  | 0x20 => e.ceCnt
  | 0x24 => e.ueCnt
  | 0x28 => e.accCnt
  | 0x2C => e.fpFailCnt
  | 0x30 => e.scrubLateCnt
  | 0x34 => e.malfCnt
  | 0x38 => e.unmapCnt
  | _ => match regIdx o 0x40 4 12 with
    | some (g, 0) => tabGet 0 e.wlCoal g
    | _ => 0

/-- Block INJ (14 Table 14-18). -/
def Blk.readInj (b : Blk) (o : Nat) : Word :=
  match o with
  | 0x0 => wd (bitsTo b.inj.arm)
  | 0x4 => wd b.inj.cfg.toNat
  | 0x8 => word [(b2n b.inj.refused, 1, 0), (b2n b.inj.fired, 1, 1), (b.inj.last, 5, 8)]
  | _ => 0

/-- DBG.PROBEp_CFG, _IDX and _CNT (15 Tables 15-12, 15-13). -/
def Probe.read (p : Probe) (r : Nat) : Word :=
  match r with
  | 0 => word [(p.event, 4, 0), (b2n p.en, 1, 4), (b2n p.trace, 1, 5), (b2n p.domEn, 1, 6), (b2n p.clsEn, 1, 7), (p.cls.toNat, 2, 8),
      (p.domid, 12, 10)]
  | 4 => word [(p.idx, 19, 0), (b2n p.idxEn, 1, 19)]
  | 8 => p.cnt
  | _ => 0

/-- Block DBG (15 Tables 15-10 to 15-16; 17 Table 17-19). -/
def Blk.readDbg (b : Blk) (o : Nat) : Word :=
  let d := b.dbg
  match o with
  | 0x4 => word [(d.level.rank, 2, 0), (b2n d.src, 1, 2), (b2n d.lvlRefused, 1, 3), (b2n d.tap.auth.isSome, 1, 4), (d.tap.fails, 4, 5),
      (b2n (d.tap.fails = 8), 1, 9), (b2n d.taint, 1, 10), (b2n (d.haltSeq || !d.haltCl.isEmpty), 1, 11), (d.lc.toNat, 2, 12)]
  | 0x10 => word [(bitsTo d.haltCl, 16, 0), (b2n d.haltSeq, 1, 16)]
  | 0x20 => word [(d.mw.space, 3, 0), (b2n d.mw.write, 1, 3), (d.mw.cluster, 4, 4), (d.mw.engine, 4, 8), (b2n d.mw.done, 1, 13),
      (b2n d.mw.err, 1, 14)]
  | 0x24 => wd d.mw.addr
  | 0x28 => d.mw.lo
  | 0x2C => d.mw.hi
  | 0x30 => word [(b2n d.trace.wrap, 1, 0), (b2n d.trace.full, 1, 1), (d.trace.recs.length, 11, 2), (d.trace.dropped.toNat, 16, 13)]
  | 0x34 => (d.trace.recs.head?.map (·.1)).getD 0
  | 0x38 => (d.trace.recs.head?.map (·.2)).getD 0
  | _ => match regIdx o 0x100 16 4 with
    | some (p, r) => (tabGet {} d.probes p).read r
    | none => 0

/-- Peers for which a status of block FED holds. -/
def Fed.peersWith (f : Fed) (p : Peer → Bool) : Nat := bitsTo ((List.range 4).filter (fun h => p (tabGet {} f.peers h)))

/-- Block FED (12 Tables 12-5 to 12-7). The Hub's own FED.OFFSETn and FED.PEERn read 0. -/
def Blk.readFed (b : Blk) (o : Nat) : Word :=
  let f := b.fed
  match o with
  | 0x0 => word [(b2n f.en, 1, 0), (f.hubid, 2, 1)]
  | 0x4 => word [(f.peersWith (·.joined), 4, 0), (f.peersWith (·.protoMis), 4, 4), (f.peersWith (·.digestMis), 4, 8),
      (f.peersWith (·.fwDiff), 4, 12), (f.peersWith (·.offsetOut), 4, 16), (b2n f.loaded, 1, 20), (b2n f.cfgErr, 1, 21),
      (b2n f.conflict, 1, 22), (2, 8, 24)]
  | 0x8 => f.cfgLo
  | 0xC => f.cfgHi
  | 0x10 => f.digest
  | 0x14 => f.conflictCnt
  | _ => match regIdx o 0x20 4 4 with
    | some (n, 0) => if n = f.hubid then 0 else (b.peer n).offset
    | _ => match regIdx o 0x30 4 4 with
      | some (n, 0) => if n = f.hubid then 0 else
          word [((b.peer n).fwver, 16, 0), (((b.peer n).proxies.filter (fun x => x.2.st ≠ .free)).length, 11, 16),
            (b2n (b.peer n).lost, 1, 31)]
      | _ => 0

/-- Block LOCK (14 Tables 14-19 to 14-21). -/
def Blk.readLock (b : Blk) (o : Nat) : Word :=
  let l := b.lock
  match o with
  | 0x0 => word [(l.lease, 10, 16)]
  | 0x4 => word [(b2n l.held, 1, 0), (l.owner, 4, 4), (b2n l.broken, 1, 8), (l.cause.toNat, 2, 9), (b2n l.relPend, 1, 11),
      (b2n l.denied, 1, 12), (l.remain, 10, 16)]
  | 0x8 => l.refuseCnt
  | _ => match regIdx o 0x40 4 16 with
    | some (a, 0) =>
      let s := tabGet {} l.agents a
      word [(s.srcid.toNat, 8, 0), (b2n s.valid, 1, 8), (b2n s.breaker, 1, 9)]
    | _ => 0

/-- Codes of a ring's state (10 Table 10-2). -/
def RState.code : RState → Nat
  | .disabled => 0
  | .enabled => 1
  | .busy => 2

/-- A ring's base and size registers (10 Table 10-13). -/
def RingQ.lo (q : RingQ) : Word := word [(q.log2sz, 4, 0), (bits q.base 31 12, 20, 12)]
def RingQ.hi (q : RingQ) : Word := wd (q.base / 2 ^ 32)

/-- Block RING (10 Tables 10-13, 10-14). -/
def Blk.readRing (b : Blk) (o : Nat) : Word :=
  if o = 0 then b.fp.dbErr
  else match regIdx o 0x100 32 8 with
    | some (n, r) =>
      let p := b.pair (.mgr n)
      let own : Bool := match b.rings.session with
        | some s => s.ring = .mgr n
        | none => false
      match r with
      | 0x0 => p.cmd.lo
      | 0x4 => p.cmd.hi
      | 0x8 => p.cpl.lo
      | 0xC => p.cpl.hi
      | 0x10 => word [(b2n p.en, 1, 0), (p.agent, 4, 4), (p.st.code, 2, 8), (b2n own, 1, 10), (p.exec.length, 6, 16)]
      | _ => 0
    | none => 0

/-- ENG.CLn_STAT.STATE. -/
def Cluster.stateCode (c : Cluster) : Nat :=
  if c.failed then 3
  else match c.regs.st with
    | .enabled => 0
    | .busy => 1
    | .disabled => 2

/-- Block ENG (07 Tables 7-8 to 7-11). -/
def Blk.readEng (b : Blk) (o : Nat) : Word :=
  match regIdx o 0x100 32 16 with
  | some (n, r) =>
    let c := b.cl n
    match r with
    | 0x0 => word [(b2n c.regs.en, 1, 0), (c.regs.rsv, 4, 4)]
    | 0x4 => word [(c.stateCode, 2, 0), (c.queue.length, 7, 8), (bitsTo c.regs.offline, 16, 16)]
    | 0xC => word [(c.regs.fcap.engine, 4, 0), (c.regs.fcap.addr.toNat, 13, 4), (c.regs.fcap.cause, 4, 17), (b2n c.regs.fcap.valid, 1, 31)]
    | 0x10 => c.regs.faultCnt
    | 0x14 => c.regs.coalCnt
    | 0x18 => c.regs.bypassCnt
    | _ => 0
  | none => 0

/-- LCACHE.STAT.STATE. -/
def LCache.stateCode (c : LCache) : Nat :=
  match c.st with
  | .enabled => 0
  | .busy => 1
  | .disabled => 2

/-- Block LCACHE (10 Tables 10-15, 10-16). -/
def Blk.readLcache (b : Blk) (o : Nat) : Word :=
  let c := b.lc
  match o with
  | 0x0 => wd (b2n c.en)
  | 0x4 => word [(c.stateCode, 2, 0), (b2n c.stale, 1, 2), (b2n c.dirtyAtDisable, 1, 3), (c.lines.length, 6, 4),
      ((c.lines.filter (·.dirty)).length, 6, 10), (c.heldCount, 4, 16), (b.lbufs, 3, 20), (c.dropped.toNat, 8, 24)]
  | 0x8 => c.missCnt
  | 0xC => c.evictCnt
  | _ => 0

/-- TDM.LINKn_STAT.STATE (06 Table 6-7). -/
def LState.code : LState → Nat
  | .down => 0
  | .quiesced => 1
  | .training => 2
  | .up => 3
  | .paused => 4
  | .quiescing => 5
  | .retrain => 6
  | .failed => 7

/-- Block TDM (06 Tables 6-10 to 6-14; 17 Table 17-19). -/
def Blk.readTdm (b : Blk) (o : Nat) : Word :=
  if o = 0 then word [(b.time.hclk / 4, 6, 0), (b.time.frames, 24, 8)]
  else match regIdx o 0x100 32 16 with
    | some (n, r) =>
      let l := b.link n
      match r with
      | 0x0 => halfOf l.live false
      | 0x4 => halfOf l.live true
      | 0x8 => halfOf l.shad false
      | 0xC => halfOf l.shad true
      | 0x10 => word [(b2n l.quiesce, 1, 0), (b2n l.wakeEn, 1, 1)]
      | 0x14 => word [(l.st.code, 3, 0), (b2n l.pop, 1, 3), (l.retrains.toNat, 8, 8),
          ((l.handles.filter (fun h => h.2.st ≠ .free)).length, 11, 16)]
      | 0x18 => word [(l.err.crc.toNat, 8, 0), (l.err.replay.toNat, 8, 8), (l.err.proto.toNat, 8, 16), (l.err.unpop.toNat, 8, 24)]
      | 0x1C => l.err.bounce
      | _ => 0
    | none => 0

/-- The register at a byte offset of the Hub Control Space; an offset that no table names reads 0 (00 R8, 17 R599). -/
def Blk.readReg (b : Blk) (off : Nat) : Word :=
  let o := off % 0x10000
  match off / 0x10000 with
  | 0 => b.readHid o
  | 1 => b.readHctl o
  | 2 => b.readOps o
  | 3 => b.readPwr o
  | 4 => b.readClk o
  | 5 => b.readArb o
  | 6 => b.readCvu o
  | 7 => b.readErr o
  | 8 => b.readInj o
  | 9 => b.readDbg o
  | 10 => b.readFed o
  | 11 => b.readLock o
  | 12 => b.readRing o
  | 13 => b.readEng o
  | 14 => b.readLcache o
  | 15 => b.readTdm o
  | _ => 0

/-- The word at an offset of a domain's doorbell page (10 Table 10-2); a read of another size than 32 bits returns 0 (10
R369). -/
def Blk.readDoorbell (b : Blk) (dom off size : Nat) : Word :=
  let cmd (p : Pair) : Word := word [(p.cmd.r, 24, 0), (p.st.code, 2, 24)]
  let cpl (p : Pair) : Word := wd p.cpl.w
  if size ≠ 4 then 0
  else if off = 0 then (if dom = 0 then 0 else cmd (b.pair (.guest dom)))
  else if off = 4 then (if dom = 0 then 0 else cpl (b.pair (.guest dom)))
  else if off = 8 then word [((b.dom dom).elq.ring.w, 24, 0), (b2n (b.dom dom).elq.overflow, 1, 31)]
  else if dom = 0 && 0x100 ≤ off && off < 0x140 && off % 4 = 0 then
    (if off % 8 = 0 then cmd (b.pair (.mgr ((off - 0x100) / 8))) else cpl (b.pair (.mgr ((off - 0x100) / 8))))
  else 0

/-! ## The two halves of a 64-bit quantity (17 R603) -/

/-- Offsets of the LO halves. -/
def isLo (off : Nat) : Bool :=
  off = 0x90028 || off = 0x90034 ||
  (match regIdx off 0xF0100 32 16 with
   | some (_, r) => r = 0 || r = 8
   | none => false)

/-- The agent of an access, as the latch of R603 knows it. -/
def srcKey : Src → Nat
  | .fp4 id => id.toNat
  | .debug => 256

/-- What a read of an offset returns to an agent: the latched HI half, or the register. -/
def Blk.valueFor (b : Blk) (src : Src) (off : Nat) : Word :=
  let l := tabGet ((0, 0) : Nat × Word) b.dbg.hiLatch (srcKey src)
  if l.1 = off && off ≠ 0 then l.2 else b.readReg off

/-- An access of an agent ends the latch it holds. -/
def Blk.unlatch (b : Blk) (src : Src) : Blk := b.modDbg (fun d => { d with hiLatch := tabDel d.hiLatch (srcKey src) })

/-- A read of a register by an agent: the value goes to the agent, a LO half latches its HI half, and a read of
DBG.TRACE_DATA_HI removes the oldest trace record (15 R565). -/
def Blk.readBy (b : Blk) (src : Src) (off : Nat) : Blk :=
  let v := b.valueFor src off
  let b' := match src with
    | .fp4 _ => b.modDbg (fun d => { d with rdata := tabSet 0 d.rdata (srcKey src) v })
    | .debug => b.modTap (fun t => { t with data := v })
  let b' := b'.unlatch src
  let b' := if isLo off then
      b'.modDbg (fun d => { d with hiLatch := tabSet ((0, 0) : Nat × Word) d.hiLatch (srcKey src) (off + 4, b.readReg (off + 4)) }) else b'
  if off = 0x90038 then b'.modDbg (fun d => { d with trace := { d.trace with recs := d.trace.recs.drop 1 } }) else b'

end Sys2Proof.Machine
end

