-- ==== Sys2Proof/Machine/RegWrite.lean ====
section
/-! DEFINITION. Writes to the Hub Control Space: access codes, the Setup Lock's gate, and what a write of each register
does (00 R6 to R13; 14 R536, R542, R544; 15 R559, R569; 17 R601 to R606). -/
namespace Sys2Proof.Machine
open Sys2Proof

/-! ## Access codes and the Setup Lock (00 R11, R12; 15 R569; 17 R606) -/

/-- A counter that software clears with a write of 0; any other value is discarded (17 R601). -/
def clearOn (v : Word) (b c : Blk) : Blk := if v = 0 then c else b

/-- Whether a write comes from the agent that holds the Setup Lock (14 R536). -/
def Blk.ownerWrites (b : Blk) : Src → Bool
  | .fp4 id => b.lock.held && b.lock.agentOf id == some b.lock.owner
  | .debug => false

/-- The debug agent writes RWL fields without the lock: at INVASIVE, in RUN (15 R559, Table 15-7 code V). -/
def Blk.debugWrites (b : Blk) : Src → Bool
  | .fp4 _ => false
  | .debug => b.dbg.level == .invasive && b.pwr.regs.state == .run

/-- A write of a register with RWL fields, of which `diff` says whether it changes one: without a change it is performed
as it stands; with one it takes the Setup Lock, or the debug agent, which breaks a lock that is held and leaves its
taint; else the whole write is discarded and counted. -/
def Blk.rwl (b : Blk) (m : List Host.Cell) (src : Src) (diff : Bool) (f : Blk → Blk) : Blk :=
  if !diff || b.ownerWrites src then f b
  else if b.debugWrites src then
    let b := if b.lock.held then b.lockBreak m 3 else b
    f (b.modDbg (fun d => { d with taint := true }))
  else b.rwlRefuse

/-- A write of a register whose fields are all RWL, whose current value is `old` and whose new value is `new`. -/
def Blk.rwlWord (b : Blk) (m : List Host.Cell) (src : Src) (old new : Word) (f : Word → Blk → Blk) : Blk :=
  if old = new then b else b.rwl m src true (f new)

/-- An access error (14 R544): kind 1 size or alignment, 2 header parity, 3 LOCK. -/
def Blk.accError (b : Blk) (kind off : Nat) (write : Bool) : Blk :=
  let cap : AccCap := if b.err.accCap.valid then b.err.accCap
    else { kind := kind, offset := off / 4 % 2 ^ 18, write := write, valid := true }
  ({ b with err := { b.err with accCnt := satInc b.err.accCnt, accCap := cap, st := { b.err.st with access := true } } }).raise 0x06

/-! ## Block HCTL -/

/-- HCTL.SWRESET: a software Hub reset by the lock's holder or by the debug agent at INVASIVE (16 R577). -/
def Blk.writeSwreset (b : Blk) (m : List Host.Cell) (src : Src) (v : Word) : Blk :=
  let may : Bool := b.ownerWrites src || (src == .debug && b.dbg.level == .invasive)
  if bit v.toNat 0 && bits v.toNat 15 8 == 0xC5 && may then b.warmReset m else b.rwlRefuse

/-- HCTL.SST_BASE_LO and _HI: no change while a source is spilled, and EN is never cleared (04 R157). -/
def Blk.writeSst (b : Blk) (m : List Host.Cell) (src : Src) (old new : Word) (clears : Bool) (f : Word → Blk → Blk) : Blk :=
  if old ≠ new && (clears || b.mapped.any (fun x => !x.2.res)) then b.rwlRefuse else b.rwlWord m src old new f

/-- HCTL.GEYn_CFG or _PHASE: in force from the channel's next firing, or at once if PERIOD was 0 (05 R209). -/
def Blk.writeGeyser (b : Blk) (n : Nat) (f : Geyser → Geyser) : Blk :=
  let upd (g : Geyser) : Geyser := if g.period = 0 then (f g).load else f g
  { b with rank := { b.rank with geysers := tabMod {} b.rank.geysers n upd } }

def Blk.writeHctl (b : Blk) (m : List Host.Cell) (src : Src) (o : Nat) (v : Word) : Blk :=
  let page := v &&& 0xFFFFF000
  match o with
  | 0x0 => b.writeSwreset m src v
  | 0x10 => b.rwlWord m src b.hctl.msiLo page (fun v b => { b with hctl := { b.hctl with msiLo := v } })
  | 0x14 => b.rwlWord m src b.hctl.msiHi v (fun v b => { b with hctl := { b.hctl with msiHi := v } })
  | 0x18 => b.writeSst m src b.hctl.sstLo (v &&& 0xFFFFF001) (b.sstEn && !bit v.toNat 0)
      (fun v b => { b with hctl := { b.hctl with sstLo := v } })
  | 0x1C => b.writeSst m src b.hctl.sstHi v false (fun v b => { b with hctl := { b.hctl with sstHi := v } })
  | 0x20 => clearOn v b { b with rings := { b.rings with spillOvf := 0 } }
  | 0x24 => clearOn v b { b with rank := { b.rank with routeOvr := 0 } }
  | _ => match regIdx o 0x100 8 16 with
    | some (n, 0) => b.rwlWord m src (tabGet {} b.rank.geysers n).cfgW (v &&& 0x0FFFFFFF)
        (fun v b => b.writeGeyser n (fun g => { g with cfgW := v }))
    | some (n, 4) => b.rwlWord m src (tabGet {} b.rank.geysers n).phaseW (v &&& 0xFFFF)
        (fun v b => b.writeGeyser n (fun g => { g with phaseW := v }))
    | _ => b

/-! ## Blocks OPS, PWR and CLK -/

/-- OPS.CTL, and the W1C bits of OPS.STAT (16 R592, Tables 16-9, 16-10); `fail` is the unit that a SELFTEST would find
failing. -/
def Blk.writeOps (b : Blk) (m : List Host.Cell) (src : Src) (o : Nat) (v : Word) (fail : Option Nat) : Blk :=
  let op := bits v.toNat 2 0
  match o with
  | 0x0 =>
    if op = b.ops.running then (if b.ownerWrites src || b.debugWrites src then b.opsRefuse else b)
    else b.rwl m src true (fun b => b.writeOp m op fail)
  | 0x4 => b.modOps (fun x => { x with done := x.done && !bit v.toNat 24, refused := x.refused && !bit v.toNat 25 })
  | _ => b

/-- An enabled WAKE pin that stands at its active level wakes the Hub (13 R491, R492). -/
def Blk.pinsWake (b : Blk) (m : List Host.Cell) : Blk :=
  match firstBelow 8 b.pinActive with
  | some k => if b.wakeable then b.wakeEv m 8 k else b
  | none => b

def Blk.writePwr (b : Blk) (m : List Host.Cell) (src : Src) (o : Nat) (v : Word) : Blk :=
  let n := v.toNat
  match o with
  | 0x0 => (b.modPwr (fun r => { r with autoIdle := bit n 9, dlyTimeout := BitVec.ofNat 10 (bits n 25 16) })).writeReq m
      (BitVec.ofNat 3 (bits n 2 0))
  | 0x4 => b.modPwr (fun r => { r with aborted := r.aborted && !bit n 11, refused := r.refused && !bit n 23,
                                       vtimeout := r.vtimeout && !bit n 24 })
  | 0x8 => (b.modCfg (fun c => { c with wakeEn := BitVec.ofNat 8 (bits n 7 0), wakePol := BitVec.ofNat 8 (bits n 15 8) })).pinsWake m
  | 0x14 => b.modCfg (fun c => { c with idleDly := BitVec.ofNat 16 (bits n 15 0) })
  | 0x18 => b.rwlWord m src (wd b.pwr.cfg.avsSel.toNat) (v &&& 0xF) (fun v b => b.modCfg (fun c => { c with avsSel := v.setWidth 4 }))
  | 0x20 => b.rwlWord m src b.pwr.cfg.spillLo (v &&& 0xFFE00001) (fun v b => b.modCfg (fun c => { c with spillLo := v }))
  | 0x24 => b.rwlWord m src b.pwr.cfg.spillHi v (fun v b => b.modCfg (fun c => { c with spillHi := v }))
  | 0x30 => clearOn v b (b.modCfg (fun c => { c with refuseCnt := 0 }))
  | 0x34 => clearOn v b (b.modCfg (fun c => { c with abortCnt := 0 }))
  | _ => b

/-- CLK.OPCTL: FLOOR, then TARGET, which is refused by itself (01 R29 to R31); the W1C bits of CLK.STATUS. -/
def Blk.writeClk (b : Blk) (m : List Host.Cell) (src : Src) (o : Nat) (v : Word) : Blk :=
  let fl : BitVec 2 := v.extractLsb' 8 2
  match o with
  | 0x0 => b.rwl m src (fl != b.clk.floor) (fun b => ({ b with clk := { b.clk with floor := fl } }).writeTarget (v.setWidth 2))
  | 0x4 => { b with clk := { b.clk with lockLost := b.clk.lockLost && !bit v.toNat 8, refused := b.clk.refused && !bit v.toNat 9 } }
  | _ => b

/-! ## Blocks ARB, CVU, ERR and INJ -/

/-- A counter of input `i` cleared in the banks that block ARB shows (14 R550). -/
def Arb.clear (a : Arb) (i : Nat) (f : ArbCnt → ArbCnt) : Arb :=
  { a with cnt := a.shown.foldl (fun t k => tabMod {} t (8 * k + i) f) a.cnt }

def Blk.writeArb (b : Blk) (o : Nat) (v : Word) : Blk :=
  let cl (i : Nat) (f : ArbCnt → ArbCnt) : Blk := clearOn v b { b with arb := b.arb.clear i f }
  match o with
  | 0x0 => { b with arb := { b.arb with bank := v.setWidth 4, all := bit v.toNat 4 } }
  | 0x4 => clearOn v b { b with arb := { b.arb with revoke := 0 } }
  | _ => match regIdx o 0x100 32 3 with
    | some (0, r) => if r % 4 = 0 then cl (r / 4) (fun c => { c with grant := 0 }) else b
    | some (1, r) => if r % 4 = 0 then cl (r / 4) (fun c => { c with wait := 0 }) else b
    | some (_, r) => if r % 4 = 0 then cl (r / 4) (fun c => { c with maxw := 0 }) else b
    | none => b

def Blk.writeCvu (b : Blk) (o : Nat) (v : Word) : Blk :=
  if o = 0 then
    { b with cvu := { b.cvu with host := b.cvu.host.filter (fun u => !bit v.toNat u),
                                 link := b.cvu.link.filter (fun n => !bit v.toNat (6 + n)) } }
  else match regIdx o 0x10 4 6 with
    | some (u, 0) => clearOn v b { b with cvu := { b.cvu with mis := tabDel b.cvu.mis u, dis := tabDel b.cvu.dis u } }
    | _ => b

/-- Counters of block ERR by offset, cleared. -/
def Err.clear (e : Err) (o : Nat) : Err :=
  match o with
  | 0x20 => { e with ceCnt := 0 }
  | 0x24 => { e with ueCnt := 0 }
  | 0x28 => { e with accCnt := 0 }
  | 0x2C => { e with fpFailCnt := 0 }
  | 0x30 => { e with scrubLateCnt := 0 }
  | 0x34 => { e with malfCnt := 0 }
  | 0x38 => { e with unmapCnt := 0 }
  | _ => match regIdx o 0x40 4 12 with
    | some (g, 0) => { e with wlCoal := tabDel e.wlCoal g }
    | _ => e

def Blk.writeErr (b : Blk) (o : Nat) (v : Word) : Blk :=
  let n := v.toNat
  let e := b.err
  let keep (x : Bool) (k : Nat) : Bool := x && !bit n k
  match o with
  | 0x0 => { b with err := { e with st := { e.st with
      ce := keep e.st.ce 0, ueRec := keep e.st.ueRec 1, ueSur := keep e.st.ueSur 2, access := keep e.st.access 4,
      fpFail := keep e.st.fpFail 5, scrubLate := keep e.st.scrubLate 6 } } }
  | 0x4 => { b with err := { e with ueCap := { e.ueCap with valid := keep e.ueCap.valid 31 } } }
  | 0x8 => { b with err := { e with accCap := { e.accCap with valid := keep e.accCap.valid 31 } } }
  | 0xC => { b with err := { e with malfCap := { e.malfCap with valid := keep e.malfCap.valid 15 } } }
  | 0x10 => { b with err := { e with unmapCap := { e.unmapCap with valid := keep e.unmapCap.valid 15 } } }
  | 0x14 => { b with err := { e with scrubPeriod := v.setWidth 8, scrubEn := bit n 8 } }
  | _ => clearOn v b { b with err := e.clear o }

def Blk.writeInj (b : Blk) (o : Nat) (v : Word) : Blk :=
  match o with
  | 0x0 => b.injArm (v.setWidth 28)
  | 0x4 => { b with inj := { b.inj with cfg := v.setWidth 14 } }
  | 0x8 => { b with inj := { b.inj with refused := b.inj.refused && !bit v.toNat 0, fired := b.inj.fired && !bit v.toNat 1 } }
  | _ => b

/-! ## Block DBG (15 R555, R564 to R568, R574) -/

/-- A probe's registers written. -/
def Probe.write (p : Probe) (r : Nat) (v : Word) : Probe :=
  let n := v.toNat
  match r with
  | 0 => { p with event := bits n 3 0, en := bit n 4, trace := bit n 5, domEn := bit n 6, clsEn := bit n 7, cls := v.extractLsb' 8 2,
                  domid := bits n 21 10 }
  | 4 => { p with idx := bits n 18 0, idxEn := bit n 19 }
  | 8 => if v = 0 then { p with cnt := 0 } else p
  | _ => p

/-- DBG.TRACE_CTL: WRAP, then CLEAR (15 R565, 17 R605). -/
def Blk.writeTrace (b : Blk) (v : Word) : Blk :=
  let b := b.modDbg (fun d => { d with trace := { d.trace with wrap := bit v.toNat 0 } })
  if bit v.toNat 31 then b.clearTrace else b

def Blk.writeDbg (b : Blk) (m : List Host.Cell) (src : Src) (o : Nat) (v : Word) : Blk :=
  let n := v.toNat
  match o with
  | 0x0 => b.levelWrite m (src == .debug) (v.setWidth 2)
  | 0x4 => b.modDbg (fun d => { d with lvlRefused := d.lvlRefused && !bit n 3 })
  | 0x10 => b.writeHalt m (v.setWidth 16) (bit n 16)
  | 0x14 => b.stepEngine (bits n 3 0) (bits n 7 4)
  | 0x20 => b.writeMemCtl (bits n 2 0) (bit n 3) (bits n 7 4) (bits n 11 8) (bit n 12)
  | 0x24 => b.modDbg (fun d => { d with mw := { d.mw with addr := bits n 18 0 } })
  | 0x28 => b.modDbg (fun d => { d with mw := { d.mw with lo := v } })
  | 0x2C => b.modDbg (fun d => { d with mw := { d.mw with hi := v } })
  | 0x30 => if b.dbg.level = .none then b else b.writeTrace v
  | _ => match regIdx o 0x100 16 4 with
    | some (p, r) => if b.dbg.level = .none then b
        else b.modDbg (fun d => { d with probes := tabMod {} d.probes p (fun q => q.write r v) })
    | none => b

/-! ## Blocks FED and LOCK -/

/-- FED.CTL: EN and HUBID under the lock, then RELOAD (12 R455, R473, R474). -/
def Blk.writeFedReg (b : Blk) (m : List Host.Cell) (src : Src) (v : Word) : Blk :=
  let n := v.toNat
  b.rwl m src (bit n 0 != b.fed.en || bits n 2 1 != b.fed.hubid) (fun b =>
    let b := b.writeFedCtl m (bit n 0) (bits n 2 1)
    if bit n 3 then b.fedReload m else b)

def Blk.writeFed (b : Blk) (m : List Host.Cell) (src : Src) (o : Nat) (v : Word) : Blk :=
  match o with
  | 0x0 => b.writeFedReg m src v
  | 0x4 => { b with fed := { b.fed with cfgErr := b.fed.cfgErr && !bit v.toNat 21, conflict := b.fed.conflict && !bit v.toNat 22 } }
  | 0x8 => b.rwlWord m src b.fed.cfgLo (v &&& 0xFFFFFFC0) (fun v b => { b with fed := { b.fed with cfgLo := v } })
  | 0xC => b.rwlWord m src b.fed.cfgHi v (fun v b => { b with fed := { b.fed with cfgHi := v } })
  | 0x14 => clearOn v b { b with fed := { b.fed with conflictCnt := 0 } }
  | _ => match regIdx o 0x30 4 4 with
    | some (n, 0) => b.modPeer n (fun p => { p with lost := p.lost && !bit v.toNat 31 })
    | _ => b

/-- LOCK.CTL from agent `a`: LEASE, then the one action the write carries; more than one discards it (17 R605). -/
def Blk.lockCtl (b : Blk) (m : List Host.Cell) (a : Nat) (v : Word) : Blk :=
  let n := v.toNat
  let acts := (List.range 4).filter (bit n)
  let b' := { b with lock := { b.lock with lease := bits n 25 16 } }
  match acts with
  | [] => b'
  | [0] => b'.lockAcquire m a
  | [1] => b'.lockRenew a
  | [2] => b'.lockRelease a
  | [3] => b'.lockBreakBy m a
  | _ => b.lockDeny

/-- LOCK.CTL: from a source that no valid slot names it is an access error (14 R536). -/
def Blk.writeLockCtl (b : Blk) (m : List Host.Cell) (src : Src) (v : Word) : Blk :=
  match src with
  | .fp4 id => match b.lock.agentOf id with
    | some a => b.lockCtl m a v
    | none => b.accError 3 0xB0000 true
  | .debug => b.accError 3 0xB0000 true

/-- LOCK.AGENTa takes one write per start; a repeated identifier is refused and leaves the slot open (14 R536). -/
def Blk.writeAgent (b : Blk) (a : Nat) (v : Word) : Blk :=
  let id : BitVec 8 := v.setWidth 8
  let s := tabGet {} b.lock.agents a
  let repeated : Bool := bit v.toNat 8 && (List.range 16).any (fun k =>
    let t := tabGet {} b.lock.agents k
    k ≠ a && t.valid && t.srcid == id)
  if s.written || repeated then b.accError 3 (0xB0040 + 4 * a) true
  else
    let s : LockAgent := { srcid := id, valid := bit v.toNat 8, breaker := bit v.toNat 9, written := true }
    { b with lock := { b.lock with agents := tabSet {} b.lock.agents a s } }

def Blk.writeLock (b : Blk) (m : List Host.Cell) (src : Src) (o : Nat) (v : Word) : Blk :=
  match o with
  | 0x0 => b.writeLockCtl m src v
  | 0x4 => { b with lock := { b.lock with broken := b.lock.broken && !bit v.toNat 8, denied := b.lock.denied && !bit v.toNat 12 } }
  | 0x8 => clearOn v b { b with lock := { b.lock with refuseCnt := 0 } }
  | _ => match regIdx o 0x40 4 16 with
    | some (a, 0) => b.writeAgent a v
    | _ => b

/-! ## Blocks RING, ENG, LCACHE and TDM -/

/-- A ring's base and size written: only while the ring pair is DISABLED (10 R391). -/
def Blk.writeRingBase (b : Blk) (m : List Host.Cell) (src : Src) (n : Nat) (old new : Word) (f : Pair → Pair) : Blk :=
  if old ≠ new && (b.pair (.mgr n)).st ≠ .disabled then b.rwlRefuse
  else b.rwlWord m src old new (fun _ b => b.modPair (.mgr n) f)

/-- A ring with the fields of its LO register, or of its HI register. -/
def RingQ.putLo (q : RingQ) (v : Word) : RingQ :=
  { q with log2sz := bits v.toNat 3 0, base := q.base / 2 ^ 32 * 2 ^ 32 + bits v.toNat 31 12 * 2 ^ 12 }
def RingQ.putHi (q : RingQ) (v : Word) : RingQ := { q with base := v.toNat * 2 ^ 32 + q.base % 2 ^ 32 }

/-- RING.MCTLm: AGENT, and EN as R391 gives; EN = 1 with a size above the largest discards the write (10 R405). -/
def Blk.writeMctl (b : Blk) (m : List Host.Cell) (src : Src) (n : Nat) (v : Word) : Blk :=
  let p := b.pair (.mgr n)
  let en := bit v.toNat 0
  let ag := bits v.toNat 7 4
  b.rwl m src (en != p.en || ag != p.agent) (fun b =>
    if en && (10 < p.cmd.log2sz || 10 < p.cpl.log2sz) then b
    else (b.modPair (.mgr n) (fun p => { p with agent := ag })).mgrEn n en)

def Blk.writeRing (b : Blk) (m : List Host.Cell) (src : Src) (o : Nat) (v : Word) : Blk :=
  if o = 0 then clearOn v b { b with fp := { b.fp with dbErr := 0 } }
  else match regIdx o 0x100 32 8 with
    | some (n, r) =>
      let p := b.pair (.mgr n)
      let lo := v &&& 0xFFFFF00F
      match r with
      | 0x0 => b.writeRingBase m src n p.cmd.lo lo (fun p => { p with cmd := p.cmd.putLo v })
      | 0x4 => b.writeRingBase m src n p.cmd.hi v (fun p => { p with cmd := p.cmd.putHi v })
      | 0x8 => b.writeRingBase m src n p.cpl.lo lo (fun p => { p with cpl := p.cpl.putLo v })
      | 0xC => b.writeRingBase m src n p.cpl.hi v (fun p => { p with cpl := p.cpl.putHi v })
      | 0x10 => b.writeMctl m src n v
      | _ => b
    | none => b

/-- ENG.CLn_CTL: RSV, and EN as R311 and R313 give (07 Table 7-8). A write that lowers RSV
while admitted classes are live, or disables a cluster of a live admitted source, is refused whole (R313, R359, R12). -/
def Blk.writeClCtl (b : Blk) (m : List Host.Cell) (src : Src) (n : Nat) (v : Word) : Blk :=
  let en := bit v.toNat 0
  let rsv := bits v.toNat 7 4
  let r := (b.cl n).regs
  if (b.classesLive && rsv < r.rsv) || (r.en && !en && b.admittedOn n) then b.rwlRefuse else
  b.rwl m src (en != r.en || rsv != r.rsv) (fun b =>
    let b := b.modCr n (fun r => { r with rsv := rsv })
    if en = r.en then b else if en then b.clEnable n else b.clDisable n)

def Blk.writeEng (b : Blk) (m : List Host.Cell) (src : Src) (o : Nat) (v : Word) : Blk :=
  match regIdx o 0x100 32 16 with
  | some (n, r) =>
    match r with
    | 0x0 => b.writeClCtl m src n v
    | 0x8 => b.revive n (v.setWidth 16)
    | 0xC => b.modCr n (fun r => { r with fcap := { r.fcap with valid := r.fcap.valid && !bit v.toNat 31 } })
    | 0x10 => clearOn v b (b.modCr n (fun r => { r with faultCnt := 0 }))
    | 0x14 => clearOn v b (b.modCr n (fun r => { r with coalCnt := 0 }))
    | 0x18 => clearOn v b (b.modCr n (fun r => { r with bypassCnt := 0 }))
    | _ => b
  | none => b

def Blk.writeLcache (b : Blk) (m : List Host.Cell) (src : Src) (o : Nat) (v : Word) : Blk :=
  let en := bit v.toNat 0
  match o with
  | 0x0 => if en = b.lc.en then b else b.rwl m src true (fun b => b.writeCacheEn en)
  | 0x4 => { b with lc := { b.lc with stale := b.lc.stale && !bit v.toNat 2, dirtyAtDisable := b.lc.dirtyAtDisable && !bit v.toNat 3 } }
  | 0x8 => clearOn v b { b with lc := { b.lc with missCnt := 0 } }
  | 0xC => clearOn v b { b with lc := { b.lc with evictCnt := 0 } }
  | _ => b

/-- TDM.LINKn_CTL: WAKE_EN and QUIESCE, then RETRAIN; discarded for a link whose tile is unpopulated (06 R230, R254,
R255, R257; 17 R608). -/
def Blk.writeLinkCtl (b : Blk) (m : List Host.Cell) (src : Src) (n : Nat) (v : Word) : Blk :=
  let w := bit v.toNat 1
  if !(b.link n).pop then b
  else b.rwl m src (w != (b.link n).wakeEn) (fun b =>
    let b := (b.modLink n (fun l => { l with wakeEn := w })).writeQuiesce m n (bit v.toNat 0)
    if bit v.toNat 2 then b.writeRetrain n else b)

def Blk.writeTdm (b : Blk) (m : List Host.Cell) (src : Src) (o : Nat) (v : Word) : Blk :=
  match regIdx o 0x100 32 16 with
  | some (n, r) =>
    match r with
    | 0x10 => b.writeLinkCtl m src n v
    | 0x18 => clearOn v b (b.modLink n (fun l => { l with err := { bounce := l.err.bounce } }))
    | 0x1C => clearOn v b (b.modLink n (fun l => { l with err := { l.err with bounce := 0 } }))
    | _ => b
  | none => b

/-- A write of the register at a byte offset; an offset that no table names, and a register without writable fields,
ignore it (00 R8). -/
def Blk.writeRegF (b : Blk) (m : List Host.Cell) (src : Src) (off : Nat) (v : Word) (fail : Option Nat) : Blk :=
  let o := off % 0x10000
  match off / 0x10000 with
  | 1 => b.writeHctl m src o v
  | 2 => b.writeOps m src o v fail
  | 3 => b.writePwr m src o v
  | 4 => b.writeClk m src o v
  | 5 => b.writeArb o v
  | 6 => b.writeCvu o v
  | 7 => b.writeErr o v
  | 8 => b.writeInj o v
  | 9 => b.writeDbg m src o v
  | 10 => b.writeFed m src o v
  | 11 => b.writeLock m src o v
  | 12 => b.writeRing m src o v
  | 13 => b.writeEng m src o v
  | 14 => b.writeLcache m src o v
  | 15 => b.writeTdm m src o v
  | _ => b

/-! ## Accesses (13 R479, R491; 15 R558, R559, R573; 17 R604) -/

/-- What the debug agent reaches at a level (15 R559). -/
def debugReach (l : Level) (write : Bool) (off : Nat) : Bool :=
  match l with
  | .none => if write then off = 0x90000 else off / 0x10000 = 0 || off / 0x10000 = 9
  | .observe => !write || off = 0x90000 || (0x90030 ≤ off && off < 0x9003C) || (0x90100 ≤ off && off < 0x90140)
  | .invasive => true

/-- The power client whose work a debug write of DBG.HALT, DBG.STEP or DBG.MEM_CTL.GO is, when the level lets it act
(15 Table 15-8 code W); 48 for a halt that names no cluster. -/
def Blk.debugWork (b : Blk) (off : Nat) (v : Word) : Option Nat :=
  if b.dbg.level ≠ .invasive then none
  else if off = 0x90010 then some (((firstBelow 16 (bit v.toNat)).map (12 + ·)).getD 48)
  else if off = 0x90014 then some (12 + bits v.toNat 3 0)
  else if off = 0x90020 && bit v.toNat 12 then some 46
  else none

/-- A write that is a wake event: debug work for a client that is gated or has stopped, and in IDLE a power-state
request (13 R479, R484; 15 Table 15-8). -/
def Blk.writeWakes (b : Blk) (m : List Host.Cell) (off : Nat) (v : Word) : Blk :=
  let idle : Bool := b.pwr.regs.state = .idle
  match b.debugWork off v with
  | some k => if idle || setHas b.pwr.seq.stopped k then b.wakeEv m 9 (k % 48) else b
  | none => if idle && off = 0x30000 && bits v.toNat 2 0 ≠ 0 then b.wakeEv m 5 0 else b

end Sys2Proof.Machine
end

