-- ==== Sys2Proof/Machine/Ports.lean ====
section
/-! DEFINITION. The accesses that arrive at FP4 and FP5, and what the debug agent does at the same registers: served,
held until the Hub is back in RUN, or failed (02 R70, R73, R74; 13 R485, R491; 14 R544; 15 R558, R559). -/
namespace Sys2Proof.Machine
open Sys2Proof

/-! ## Reaching a port -/

/-- An access held at its port until the Hub is back in RUN; `wakes` when it is a wake event of the state that the entry
goes to. -/
def Blk.holdAcc (b : Blk) (m : List Host.Cell) (a : PortAcc) (wakes : Bool) : Blk :=
  let b := { b with fp := { b.fp with held := b.fp.held ++ [a] } }
  if wakes then b.wakeEv m 5 0 else b

/-- The entry in progress goes to one of these states. -/
def Blk.entersOne (b : Blk) (ts : List PState) : Bool :=
  match b.pwr.seq.seq.target with
  | some t => ts.contains t
  | none => false

/-- An access at FP4 of a fabric source: performed in RUN, in IDLE, up to E1 of an entry and in E2 of one to IDLE; in SLEEP
after it has woken the Hub; in E2 and E3 of any other entry held, and a wake event of one to SLEEP. During an exit or a
start, and in DEEP and OFF, no access is accepted. -/
def Blk.fp4 (b : Blk) (m : List Host.Cell) (a : PortAcc) (f : Blk → Blk) : Blk :=
  b.portIn 4 (fun b =>
    if b.served then f b
    else if b.up && b.pwr.seq.seq.holdsPorts then b.holdAcc m a (b.entersOne [.sleep])
    else if b.up && b.pwr.regs.state = .sleep && b.pwr.seq.seq = .none then f (b.wakeEv m 5 0)
    else b)

/-- A doorbell write at FP5: it takes effect in RUN; in IDLE and SLEEP, and after client 28 has stopped, it is a wake event
first; in E2 and E3 of an entry it is held, and a wake event of one to IDLE or SLEEP. In DEEP and OFF, FP5 accepts none. -/
def Blk.fp5 (b : Blk) (m : List Host.Cell) (a : PortAcc) (f : Blk → Blk) : Blk :=
  b.portIn 5 (fun b =>
    if b.awake then (if b.clientUp 28 then f b else f (b.wakeEv m 9 28))
    else if b.up && b.pwr.seq.seq.holdsPorts then b.holdAcc m a (b.entersOne [.idle, .sleep])
    else if b.up && b.pwr.seq.seq = .none then f (b.wakeEv m 5 0)
    else b)

/-- An access of the debug agent with its STATUS (15 R558, R559). -/
def Blk.debugAccess (b : Blk) (write : Bool) (off : Nat) (f : Blk → Blk) : Blk :=
  let st (b : Blk) (n : BitVec 2) : Blk := b.modTap (fun t => { t with status := n })
  if !b.tapReady then st b 1
  else if !debugReach b.dbg.level write off then st b 2
  else f (st b 0)

/-! ## The Hub Control Space -/

/-- What a write does once its port serves it. -/
def Blk.writeGo (b : Blk) (m : List Host.Cell) (src : Src) (off : Nat) (v : Word) (fail : Option Nat) : Blk :=
  ((b.writeWakes m off v).unlatch src).writeRegF m src off v fail

/-- An access that is not an aligned 32-bit one, or whose header fails its parity, once its port serves it: an access
error; a read returns 0 (00 R6; 14 R544). -/
def Blk.badGo (b : Blk) (src : Src) (write : Bool) (off : Nat) (parityError : Bool) : Blk :=
  let b := b.unlatch src
  let b := if write then b else b.modDbg (fun d => { d with rdata := tabSet 0 d.rdata (srcKey src) 0 })
  b.accError (if parityError then 2 else 1) off write

/-- An aligned 32-bit write by an agent. -/
def Blk.writeByF (b : Blk) (m : List Host.Cell) (src : Src) (off : Nat) (v : Word) (fail : Option Nat) : Blk :=
  match src with
  | .fp4 id => b.fp4 m (.reg id true off 4 v false fail) (fun b => b.writeGo m src off v fail)
  | .debug => b.debugAccess true off (fun b => b.writeGo m src off v fail)

/-- The same, with nothing that a SELFTEST finds failing. -/
def Blk.writeBy (b : Blk) (m : List Host.Cell) (src : Src) (off : Nat) (v : Word) : Blk := b.writeByF m src off v none

/-- A read by an agent. -/
def Blk.readAccess (b : Blk) (m : List Host.Cell) (src : Src) (off : Nat) : Blk :=
  match src with
  | .fp4 id => b.fp4 m (.reg id false off 4 0 false none) (fun b => b.readBy src off)
  | .debug => b.debugAccess false off (fun b => b.readBy src off)

/-- A write of any size and alignment, whose header may carry a parity error: an access error unless it is an aligned
32-bit one without it (00 R6; 14 R544). The debug agent makes none but aligned 32-bit accesses (15 R558). -/
def Blk.regWrite (b : Blk) (m : List Host.Cell) (src : Src) (off size : Nat) (v : Word) (parityError : Bool) : Blk :=
  if 0x100000 ≤ off then b
  else if size = 4 && off % 4 = 0 && !parityError then b.writeBy m src off v
  else match src with
    | .fp4 id => b.fp4 m (.reg id true off size v parityError none) (fun b => b.badGo src true off parityError)
    | .debug => b

/-- A read of any size and alignment, whose header may carry a parity error. -/
def Blk.regRead (b : Blk) (m : List Host.Cell) (src : Src) (off size : Nat) (parityError : Bool) : Blk :=
  if 0x100000 ≤ off then b
  else if size = 4 && off % 4 = 0 && !parityError then b.readAccess m src off
  else match src with
    | .fp4 id => b.fp4 m (.reg id false off size 0 parityError none) (fun b => b.badGo src false off parityError)
    | .debug => b

/-! ## Doorbell pages (10 R369, R370; 13 R491) -/

/-- A doorbell write whose header fails its parity is discarded as an access error (14 Table 14-2). ERR.ACC_CAP.OFFSET, an
offset in the Hub Control Space, has no stated value for it: a free value (DESIGN CHOICE 106). -/
def Blk.fp5Parity (b : Blk) : Blk :=
  let x := b.drawFree
  x.1.accError 2 (Config.freeWord x.2).toNat true

/-- What a write to a doorbell page does once FP5 serves it; one that is not an aligned 32-bit write is discarded and
counted (10 R369). -/
def Blk.doorbellGo (b : Blk) (dom off size : Nat) (v : Word) (parityError : Bool) : Blk :=
  if parityError then b.fp5Parity else if size = 4 && off % 4 = 0 then b.doorbell dom off v else b.dbError

/-- A write to a doorbell page. -/
def Blk.doorbellWrite (b : Blk) (m : List Host.Cell) (dom off size : Nat) (v : Word) (parityError : Bool) : Blk :=
  if 4096 ≤ dom then b
  else b.fp5 m (.db dom off size v parityError) (fun b => b.doorbellGo dom off size v parityError)

/-! ## What the ports hold -/

/-- A held access performed. -/
def Blk.doAcc (b : Blk) (m : List Host.Cell) : PortAcc → Blk
  | .reg id write off size v parityError fail =>
    if size = 4 && off % 4 = 0 && !parityError then
      (if write then b.writeGo m (.fp4 id) off v fail else b.readBy (.fp4 id) off)
    else b.badGo (.fp4 id) write off parityError
  | .db dom off size v parityError => b.doorbellGo dom off size v parityError

/-- The oldest held access is taken, up to `n` of them, while the Hub stands in RUN outside any sequence. -/
def Blk.serveHeld (b : Blk) (m : List Host.Cell) : Nat → Blk
  | 0 => b
  | n + 1 =>
    if !(b.inRun && b.pwr.seq.seq = .none) then b
    else match b.fp.held with
      | [] => b
      | a :: rest => (({ b with fp := { b.fp with held := rest } }).doAcc m a).serveHeld m n

end Sys2Proof.Machine
end

