-- ==== Sys2Proof/Machine/Hook.lean ====
section
/-! DEFINITION. What follows a command at once: work that waited for a condition which the command made true. -/
namespace Sys2Proof.Machine
open Sys2Proof

/-- SPILL_ALL is writing its image. -/
def OpProg.spilling : OpProg → Bool
  | .spill _ _ _ => true
  | _ => false

/-- Work stands that a condition made true by any command can move on: a start, a sequence, a power state below RUN, a
waiting window operation, SPILL_ALL, an aging step, a record or an update that waits for its place, a quiescing link, or a
descriptor that waits for a resource. Without any, nothing follows a command. -/
def Blk.hasFollowUp (b : Blk) : Bool :=
  b.aon.start.isSome || b.pwr.seq.seq ≠ .none || b.pwr.regs.state ≠ .run || b.dbg.mw.waits || b.ops.prog.spilling ||
  b.pwr.seq.agingDue || !b.fp.held.isEmpty || !b.fp.recs.isEmpty || b.noticesHeld || !b.rings.rpWait.isEmpty ||
  b.links.any (fun x => x.2.quiesceAnswered) || b.allExec.any (fun x => x.2.wait.retries || x.2.wait.ends)

/-- Work that reached a client after it stopped: the power client and the index of the wake event that it is, the
lowest client first (13 R484, Table 13-15 cause 9). -/
def Blk.stoppedWork (b : Blk) : Option Nat :=
  match (b.cls.filter (fun x => setHas b.pwr.seq.stopped (12 + x.1) && !b.clusterQuiet x.1)).head? with
  | some x => some (12 + x.1)
  | none =>
    let st (k : Nat) (w : Bool) : Bool := setHas b.pwr.seq.stopped k && w
    if st 28 (b.spillBusy || !b.allExec.isEmpty) then some 28
    else if st 29 b.rankBusy then some 29
    else if st 46 b.storeBusy then some 46
    else none

/-- Work for a stopped client is a wake event. -/
def Blk.workWake (b : Blk) (m : List Host.Cell) : Blk :=
  match b.stoppedWork with
  | some k => if b.wakeable then b.wakeEv m 9 k else b
  | none => b

/-- Waiting records are written, waiting notices and updates of the Ring Processor are performed, as far as they can be, and
links whose tiles have answered end their quiesce (04 R144; 06 R234, R254; 10 R397). -/
def Blk.waitingGo (b : Blk) (m : List Host.Cell) : Blk :=
  if !b.awake then b
  else (List.range 16).foldl (fun b n => b.quiesceEnd n) (((b.recsGo m b.fp.recs).noticesRun m 64).rpRetry m)

/-- What follows: the start that waited for its links, the image that waited for a grant, a window operation that waited
for its bank, the wake event of work for a stopped client, the accesses that FP4 and FP5 held, an aging step, the
records and updates that waited, and the descriptors that waited. -/
def Blk.follow (b : Blk) (m : List Host.Cell) : Blk :=
  let b := ((((b.startGo m).saveStep m).spillAllStep).memWaiting.workWake m).serveHeld m b.fp.held.length
  (((b.agingGo.waitingGo m).pump m).waitsGo m)

/-- The block after a command: notifications of the records it wrote (10 R392), then what follows. -/
def Blk.afterCmd (b : Blk) (m : List Host.Cell) : Blk :=
  let b := b.settleNotes m
  if b.hasFollowUp then (b.follow m).settleNotes m else b

/-- A command whose effect is on the block, with what follows it. -/
def State.run (s : State) (f : List Host.Cell → Blk → Blk) : Host.Outcome State Fault Refusal :=
  .next { s with blk := (f s.mem s.blk).afterCmd s.mem }

/-- An effect that a command has only where a condition holds: the block awake, the clients that it needs running
(13 R475, R482). -/
def Blk.when (b : Blk) (c : Bool) (f : Blk → Blk) : Blk := if c then f b else b

end Sys2Proof.Machine
end

