-- ==== Sys2Proof/Machine/ClauseRows.lean ====
section
/-! DEFINITION. The rows of clause runs, source timers and ranking (05 R177 to R209; 07 R271 to R319; 11 R427). -/
namespace Sys2Proof.Machine
open Sys2Proof

/-! ## Runs -/

/-- RUN_START. -/
def execRunStart (cluster : Nat) (s : State) : Host.Outcome State Fault Refusal := s.run (fun _ b => b.runStart cluster)

/-- CLOSING. -/
def execClosing (cluster engine : Nat) (s : State) : Host.Outcome State Fault Refusal :=
  s.run (fun m b => b.closing m cluster engine)

/-- The watchdog counts in RUN, and is held for an engine of a halted cluster (07 R306; 15 R566). -/
def Blk.watchdogRuns (b : Blk) (c : Nat) : Bool := b.awake && !setHas b.dbg.haltCl c

/-- WATCHDOG_EXPIRY. -/
def execWatchdogExpiry (cluster engine : Nat) (s : State) : Host.Outcome State Fault Refusal :=
  s.run (fun _ b => b.when (b.watchdogRuns cluster) (fun b => b.watchdog cluster engine))

/-- FETCH_FAULT. -/
def execFetchFault (cluster engine : Nat) (s : State) : Host.Outcome State Fault Refusal :=
  s.onBlk (fun b => b.fetchFault cluster engine false)

/-! ## Timers and Geyser release: events of time, which are wake events after the first poll (13 R484) -/

/-- An event that falls due. In RUN it happens; from the first poll of an entry to the end of E2, and in IDLE and SLEEP, it
is a wake event and happens in RUN; during E3 and E4 the wake event is kept. -/
def Blk.fallsDue (b : Blk) (m : List Host.Cell) (f : Blk → Blk) : Blk :=
  if b.awake && b.pwr.seq.seq = .none then f b
  else if b.up && (b.pwr.seq.seq = .none || b.pwr.seq.seq.inPoll) then f (b.wakeEv m 9 0)
  else b.wakeEv m 9 0

/-- A timer with an expiry to give: armed, or with one that waits. -/
def Timers.runs (t : Timers) (key : Nat) : Bool := t.isArmed key || t.waiting.any (fun x => x.1 == key)

/-- SOURCE_TIMER_EXPIRY. In DEEP and OFF the wake alarm stands for the timers (13 R491). -/
def execSourceTimerExpiry (cluster aidx : Nat) (s : State) : Host.Outcome State Fault Refusal :=
  s.run (fun m b => b.when ((b.up || b.pwr.seq.seq ≠ .none) && b.tim.runs (timerKey cluster aidx)) (fun b =>
    b.fallsDue m (fun b => b.timerExpiry m cluster aidx)))

/-- A channel that holds an instance (05 R202). -/
def Blk.geyserHolds (b : Blk) (c : Nat) : Bool := b.rank.geyserBits.any (fun x => x.2 == some c)

/-- Sixths of a nanosecond from one edge to the next of the clock that runs: HCLK in RUN, SCLK below it. -/
def Blk.tickLen (b : Blk) : Nat := if b.awake then b.clk.period else 4 * b.clk.period

/-- This is the first clock period of a microsecond in which channel `c` fires: by the time base with the channel's phase, or
by the count of REFCLK_100 without it while TB_VALID is low (05 R202). -/
def Blk.geyserTime (b : Blk) (c : Nat) : Bool :=
  let g := tabGet ({} : Geyser) b.rank.geysers c
  let p := g.period.toNat
  let t := b.time
  p ≠ 0 && (if t.valid then
      (t.tb.toNat / 1000 + p - g.phase.toNat) % p == 0 && 6 * (t.tb.toNat % 1000) + t.sixths < b.tickLen
    else b.tim.tick % p == 0 && t.us < b.tickLen)

/-- A firing of a channel: without a held instance it only advances its resume point. -/
def Blk.geyserDue (b : Blk) (m : List Host.Cell) (c : Nat) : Blk :=
  if b.geyserHolds c then b.fallsDue m (fun b => b.geyserFire c) else b.when b.up (fun b => b.geyserFire c)

/-- GEYSER_FIRE: 16 channels, in the states in which their unit stands, in the HCLK in which the channel fires. -/
def execGeyserFire (channel : Nat) (s : State) : Host.Outcome State Fault Refusal :=
  s.run (fun m b => b.when (channel < 16 && (b.up || b.pwr.seq.seq ≠ .none) && b.geyserTime channel) (fun b => b.geyserDue m channel))

/-! ## Ranking -/

/-- The Ranking Unit runs: in RUN, until client 29 stops. -/
def Blk.ranks (b : Blk) : Bool := b.awake && b.clientUp 29

/-- OFFER_RANKING. -/
def execOfferRanking (s : State) : Host.Outcome State Fault Refusal :=
  s.run (fun m b => b.when b.ranks (fun b => b.offerRanking m))

/-- RE_OFFER_REQUEST. -/
def execReOfferRequest (s : State) : Host.Outcome State Fault Refusal :=
  s.run (fun m b => b.when b.ranks (fun b => b.reofferTake m))

/-- PARKED_RESCAN. -/
def execParkedRescan (s : State) : Host.Outcome State Fault Refusal := s.run (fun _ b => b.when b.ranks Blk.parkedStep)

/-- POSTED_RESCAN. -/
def execPostedRescan (s : State) : Host.Outcome State Fault Refusal := s.run (fun _ b => b.when b.ranks Blk.postedStep)

/-- ROUTE_RESYNC. -/
def execRouteResync (s : State) : Host.Outcome State Fault Refusal := s.run (fun _ b => b.when b.awake Blk.resyncStep)

end Sys2Proof.Machine
end

