-- ==== Sys2Proof/Machine/ControlRows.lean ====
section
/-! DEFINITION. The rows of doorbells, rings, the Line Cache, host memory, clusters, the Setup Lock and register accesses
(00 R6 to R13; 07 R308 to R313; 10 R369 to R404; 14 R515 to R541; 17 R603). -/
namespace Sys2Proof.Machine
open Sys2Proof

/-! ## Doorbells (10 R369, R370; 13 R491) -/

/-- GCMD_PSEQ. -/
def execGcmdPseq (dom size : Nat) (val : Word) (parityError : Bool) (s : State) : Host.Outcome State Fault Refusal :=
  s.run (fun m b => b.doorbellWrite m dom 0 size val parityError)

/-- GCPL_CSEQ. -/
def execGcplCseq (dom size : Nat) (val : Word) (parityError : Bool) (s : State) : Host.Outcome State Fault Refusal :=
  s.run (fun m b => b.doorbellWrite m dom 4 size val parityError)

/-- ELQ_CSEQ. -/
def execElqCseq (dom size : Nat) (val : Word) (parityError : Bool) (s : State) : Host.Outcome State Fault Refusal :=
  s.run (fun m b => b.doorbellWrite m dom 8 size val parityError)

/-- MCMD_PSEQm, in domain 0's page. -/
def execMcmdPseq (mgr size : Nat) (val : Word) (parityError : Bool) (s : State) : Host.Outcome State Fault Refusal :=
  s.run (fun m b => b.when (mgr < 8) (fun b => b.doorbellWrite m 0 (0x100 + 8 * mgr) size val parityError))

/-- MCPL_CSEQm. -/
def execMcplCseq (mgr size : Nat) (val : Word) (parityError : Bool) (s : State) : Host.Outcome State Fault Refusal :=
  s.run (fun m b => b.when (mgr < 8) (fun b => b.doorbellWrite m 0 (0x104 + 8 * mgr) size val parityError))

/-! ## Accesses to registers (00 R6 to R13; 17 R603 to R606) -/

/-- A command that is a write of a register: the word at its offset, by its agent. -/
def State.writeReg (s : State) (src : Src) (off : Nat) (v : Nat) : Host.Outcome State Fault Refusal :=
  s.run (fun m b => b.writeBy m src off (BitVec.ofNat 32 v))

/-- REGISTER_WRITE. -/
def execRegisterWrite (src : Src) (off size : Nat) (val : Word) (parityError : Bool) (s : State) :
    Host.Outcome State Fault Refusal :=
  s.run (fun m b => b.regWrite m src off size val parityError)

/-- LO_HALF_READ: a read of a register, which latches the HI half of a pair with its LO half. -/
def execLoHalfRead (src : Src) (off size : Nat) (parityError : Bool) (s : State) : Host.Outcome State Fault Refusal :=
  s.run (fun m b => b.regRead m src off size parityError)

/-! ## Rings -/

/-- RING_ENABLE: RING.MCTLm with EN = 1. -/
def execRingEnable (src : Src) (mgr agent : Nat) (s : State) : Host.Outcome State Fault Refusal :=
  if mgr < 8 then s.writeReg src (0xC0110 + 32 * mgr) (pack [(1, 1, 0), (agent, 4, 4)]) else s.run (fun _ b => b)

/-- RING_DISABLE: RING.MCTLm with EN = 0. -/
def execRingDisable (src : Src) (mgr agent : Nat) (s : State) : Host.Outcome State Fault Refusal :=
  if mgr < 8 then s.writeReg src (0xC0110 + 32 * mgr) (pack [(agent, 4, 4)]) else s.run (fun _ b => b)

/-- RING_DRAIN_END. -/
def execRingDrainEnd (r : RingSel) (s : State) : Host.Outcome State Fault Refusal :=
  s.run (fun m b => b.when b.awake (fun b => b.ringDrainEnd m r))

/-! ## The Line Cache and host memory -/

/-- CACHE_ENABLE: LCACHE.CTL with EN = 1. -/
def execCacheEnable (src : Src) (s : State) : Host.Outcome State Fault Refusal := s.writeReg src 0xE0000 1

/-- CACHE_DISABLE: LCACHE.CTL with EN = 0. -/
def execCacheDisable (src : Src) (s : State) : Host.Outcome State Fault Refusal := s.writeReg src 0xE0000 0

/-- CACHE_DRAIN_END. -/
def execCacheDrainEnd (s : State) : Host.Outcome State Fault Refusal := s.run (fun _ b => b.when b.awake Blk.cacheDrained)

/-- LINE_FILL. -/
def execLineFill (line : Nat) (s : State) : Host.Outcome State Fault Refusal :=
  s.run (fun m b => b.when b.awake (fun b => b.lineFill m line))

/-- A command that changes host memory, with what follows it. -/
def State.settled (s : State) : State := { s with blk := s.blk.afterCmd s.mem }

/-- LINE_WRITEBACK_ACK. -/
def execLineWritebackAck (line : Nat) (s : State) : Host.Outcome State Fault Refusal := .next (s.writebackAck line).settled

/-- What the acknowledgement of a whole-line write brings: the next step of a snapshot or of a spill image, and the
descriptors that waited (10 R402; 11 R441; 13 R500). -/
def Blk.outAck (b : Blk) (m : List Host.Cell) (w : OutW) : Blk :=
  let b := b.dropOut w
  match w.kind with
  | .snapshot => (b.snapAck m w.line).pump m
  | .spillImage => (b.spillAck m w.line).pump m
  | _ => b.pump m

/-- The oldest outstanding whole-line write of a line is acknowledged: host memory holds it from now on. -/
def State.writeAck (s : State) (line : Nat) : State :=
  match s.blk.fp.out.find? (fun w => w.line == line) with
  | none => s
  | some w =>
    let m := memWriteLine s.mem line w.data
    { s with mem := m, blk := s.blk.outAck m w }

/-- LINE_WRITE_ACK. -/
def execLineWriteAck (line : Nat) (s : State) : Host.Outcome State Fault Refusal := .next (s.writeAck line).settled

/-- HOST_ACCESS_RETRY. -/
def execHostAccessRetry (line : Nat) (s : State) : Host.Outcome State Fault Refusal :=
  s.run (fun m b => b.accessFails m line (fun b => b.spillFails m))

/-! ## Clusters -/

/-- ENG.CLn_CTL written. -/
def State.clusterCtl (s : State) (src : Src) (cluster rsv en : Nat) : Host.Outcome State Fault Refusal :=
  if cluster < 16 then s.writeReg src (0xD0100 + 32 * cluster) (pack [(en, 1, 0), (rsv, 4, 4)]) else s.run (fun _ b => b)

/-- CLUSTER_DISABLE. -/
def execClusterDisable (src : Src) (cluster rsv : Nat) (s : State) : Host.Outcome State Fault Refusal :=
  s.clusterCtl src cluster rsv 0

/-- CLUSTER_ENABLE. -/
def execClusterEnable (src : Src) (cluster rsv : Nat) (s : State) : Host.Outcome State Fault Refusal :=
  s.clusterCtl src cluster rsv 1

/-- CLUSTER_DRAIN_END. -/
def execClusterDrainEnd (cluster : Nat) (s : State) : Host.Outcome State Fault Refusal :=
  s.run (fun _ b => b.when (b.awake && cluster < 16) (fun b => b.clusterDrained cluster))

/-- ENGINE_REVIVE: ENG.CLn_REVIVE. -/
def execEngineRevive (src : Src) (cluster : Nat) (mask : BitVec 16) (s : State) : Host.Outcome State Fault Refusal :=
  if cluster < 16 then s.writeReg src (0xD0108 + 32 * cluster) mask.toNat else s.run (fun _ b => b)

/-! ## Tile Link control: TDM.LINKn_CTL (06 R230, R254, R255) -/

/-- TDM.LINKn_CTL written with QUIESCE, WAKE_EN and RETRAIN. -/
def State.linkCtl (s : State) (src : Src) (link : Nat) (quiesce : Nat) (wakeEn : Bool) (retrain : Nat) :
    Host.Outcome State Fault Refusal :=
  if link < 16 then s.writeReg src (0xF0110 + 32 * link) (pack [(quiesce, 1, 0), (b2n wakeEn, 1, 1), (retrain, 1, 2)])
  else s.run (fun _ b => b)

/-- LINK_QUIESCE: QUIESCE = 1. -/
def execLinkQuiesce (src : Src) (link : Nat) (wakeEn : Bool) (s : State) : Host.Outcome State Fault Refusal :=
  s.linkCtl src link 1 wakeEn 0

/-- LINK_SERVICE: QUIESCE = 0. -/
def execLinkService (src : Src) (link : Nat) (wakeEn : Bool) (s : State) : Host.Outcome State Fault Refusal :=
  s.linkCtl src link 0 wakeEn 0

/-- LINK_RETRAIN: RETRAIN = 1, with QUIESCE = 0. -/
def execLinkRetrain (src : Src) (link : Nat) (wakeEn : Bool) (s : State) : Host.Outcome State Fault Refusal :=
  s.linkCtl src link 0 wakeEn 1

/-! ## The Setup Lock: LOCK.CTL with one action (14 R536 to R541) -/

/-- LOCK.CTL with action bit `act` and a lease. -/
def State.lockWrite (s : State) (src : Src) (act : Nat) (lease : BitVec 10) : Host.Outcome State Fault Refusal :=
  s.writeReg src 0xB0000 (2 ^ act + lease.toNat * 2 ^ 16)

/-- ACQUIRE. -/
def execAcquire (src : Src) (lease : BitVec 10) (s : State) : Host.Outcome State Fault Refusal := s.lockWrite src 0 lease

/-- RENEW. -/
def execRenew (src : Src) (lease : BitVec 10) (s : State) : Host.Outcome State Fault Refusal := s.lockWrite src 1 lease

/-- RELEASE. -/
def execRelease (src : Src) (lease : BitVec 10) (s : State) : Host.Outcome State Fault Refusal := s.lockWrite src 2 lease

/-- BREAK. -/
def execBreakLock (src : Src) (lease : BitVec 10) (s : State) : Host.Outcome State Fault Refusal := s.lockWrite src 3 lease

/-- LEASE_EXPIRY. -/
def execLeaseExpiry (s : State) : Host.Outcome State Fault Refusal := s.run (fun m b => b.when b.up (fun b => b.leaseExpiry m))

/-- AGENT_BIND: LOCK.AGENTa. -/
def execAgentBind (src : Src) (agent : Nat) (srcid : BitVec 8) (valid breaker : Bool) (s : State) :
    Host.Outcome State Fault Refusal :=
  if agent < 16 then
    s.writeReg src (0xB0040 + 4 * agent) (pack [(srcid.toNat, 8, 0), (b2n valid, 1, 8), (b2n breaker, 1, 9)])
  else s.run (fun _ b => b)

/-! ## Errors and recovery (14 R515 to R535) -/

/-- SCRUB_PERIOD. -/
def execScrubPeriod (s : State) : Host.Outcome State Fault Refusal := s.run (fun _ b => b.scrubPeriod)

/-- STORE_SCRUB. -/
def execStoreScrub (s : State) : Host.Outcome State Fault Refusal := s.run (fun m b => b.storeScrub m)

/-- ENTRY_REBUILD: of a State Store slot, or of a spilled source's entry. -/
def execEntryRebuild (spilled : Bool) (n : Nat) (s : State) : Host.Outcome State Fault Refusal :=
  s.run (fun m b => b.when b.awake (fun b => if spilled then b.rebuildSpilled m n else b.rebuildSlot m n))

/-- GRANT_REVOKE. -/
def execGrantRevoke (bank : Nat) (s : State) : Host.Outcome State Fault Refusal := s.run (fun m b => b.grantRevoke m bank)

/-- Code 24 of Table 14-1, unless the window's read has reported it: the word that the Sequencer was reading is a free
value. -/
def Blk.seqError (b : Blk) : Blk :=
  if b.dbg.seqBad then b.modDbg (fun d => { d with seqBad := false })
  else
    let x := b.drawFree
    x.1.uncorr 24 0 ((Config.freeWord x.2).toNat % 32768)

/-- The Sequencer meets an uncorrectable error in its private RAM, one that point 25 injects if it is armed, and restarts
from ROM: its command completes with CHECK, joins start again, and an entry in progress is abandoned (14 R521, R545). -/
def Blk.seqRestart (b : Blk) (m : List Host.Cell) : Blk :=
  let b := if b.injHit 25 0 then b.injDone 25 else b
  let b := b.seqError.joinsRestart.seqAbort m
  (if b.pwr.seq.seq.target.isSome then b.wakeEv m 9 0 else b).pump m

/-- SEQUENCER_RESTART. -/
def execSequencerRestart (s : State) : Host.Outcome State Fault Refusal := s.run (fun m b => b.when b.up (fun b => b.seqRestart m))

end Sys2Proof.Machine
end

