-- ==== Sys2Proof/Machine/DebugRows.lean ====
section
/-! DEFINITION. The rows of debug: level, halts, the memory window, trace, injection and the TAP (14 R545; 15 R555 to R574). -/
namespace Sys2Proof.Machine
open Sys2Proof

/-! ## Registers -/

/-- INJECTION_ARM: INJ.ARM. -/
def execInjectionArm (src : Src) (points : BitVec 28) (s : State) : Host.Outcome State Fault Refusal :=
  s.run (fun m b => b.writeBy m src 0x80000 (points.setWidth 32))

/-- DEBUG_LEVEL_WRITE: DBG.CTL. -/
def execDebugLevelWrite (src : Src) (level : BitVec 2) (s : State) : Host.Outcome State Fault Refusal :=
  s.run (fun m b => b.writeBy m src 0x90000 (level.setWidth 32))

/-- DEBUG_HALT: DBG.HALT. -/
def execDebugHalt (src : Src) (cl : BitVec 16) (seq : Bool) (s : State) : Host.Outcome State Fault Refusal :=
  s.run (fun m b => b.writeBy m src 0x90010 (BitVec.ofNat 32 (pack [(cl.toNat, 16, 0), (b2n seq, 1, 16)])))

/-- DEBUG_STEP: DBG.STEP. -/
def execDebugStep (src : Src) (cluster engine : Nat) (s : State) : Host.Outcome State Fault Refusal :=
  s.run (fun m b => b.writeBy m src 0x90014 (BitVec.ofNat 32 (pack [(cluster, 4, 0), (engine, 4, 4)])))

/-- MEMORY_WINDOW_OP: DBG.MEM_CTL with GO = 1. -/
def execMemoryWindowOp (src : Src) (space : Nat) (write : Bool) (cluster engine : Nat) (s : State) :
    Host.Outcome State Fault Refusal :=
  s.run (fun m b => b.writeBy m src 0x90020
    (BitVec.ofNat 32 (pack [(space, 3, 0), (b2n write, 1, 3), (cluster, 4, 4), (engine, 4, 8), (1, 1, 12)])))

/-- TRACE_CLEAR: DBG.TRACE_CTL with CLEAR = 1. -/
def execTraceClear (src : Src) (wrap : Bool) (s : State) : Host.Outcome State Fault Refusal :=
  s.run (fun m b => b.writeBy m src 0x90030 (BitVec.ofNat 32 (pack [(b2n wrap, 1, 0), (1, 1, 31)])))

/-- TRACE_READ: a read of DBG.TRACE_HI, which takes the oldest record out of the buffer. -/
def execTraceRead (src : Src) (s : State) : Host.Outcome State Fault Refusal := s.run (fun m b => b.regRead m src 0x90038 4 false)

/-! ## The TAP (15 R557 to R563) -/

/-- An Update-DR of the register that instruction `code` selects. In FAILED the TAP answers IDCODE and BYPASS only (16
R590). -/
def Blk.updateDr (b : Blk) (code : BitVec 8) (f : Blk → Blk) : Blk := if b.dbg.tap.ir = code && !b.aon.failed then f b else b

/-- DBG_CHAL: LEVEL_REQ in bits [1:0]. -/
def execDbgChal (sh : BitVec 200) (s : State) : Host.Outcome State Fault Refusal :=
  s.run (fun _ b => b.updateDr 0x20 (fun b => b.challenge (sh.setWidth 2)))

/-- DBG_RESP: the response in bits [255:0]. -/
def execDbgResp (sh : BitVec 264) (s : State) : Host.Outcome State Fault Refusal :=
  s.run (fun _ b => b.updateDr 0x21 (fun b => b.response (sh.setWidth 256)))

/-- An access of the debug agent: DATA in [31:0], OFFSET in [49:32], WRITE in [50]. -/
def Blk.regAccess (b : Blk) (m : List Host.Cell) (sh : BitVec 53) : Blk :=
  let off := 4 * (sh.extractLsb' 32 18).toNat
  if sh.getLsbD 50 then b.writeBy m .debug off (sh.setWidth 32) else b.readAccess m .debug off

/-- DBG_REG. -/
def execDbgReg (sh : BitVec 53) (s : State) : Host.Outcome State Fault Refusal :=
  s.run (fun m b => b.updateDr 0x22 (fun b => b.regAccess m sh))

/-- RESPONSE_CHECK_END. -/
def execResponseCheckEnd (s : State) : Host.Outcome State Fault Refusal := s.run (fun m b => b.responseEnd m)

/-- TAP_RESET. -/
def execTapReset (s : State) : Host.Outcome State Fault Refusal := s.run (fun _ b => b.modTap (fun t => { t with ir := 1 }))

/-- TAP_INSTRUCTION_UPDATE. -/
def execTapInstructionUpdate (ir : BitVec 8) (s : State) : Host.Outcome State Fault Refusal :=
  s.run (fun _ b => b.modTap (fun t => { t with ir := ir }))

end Sys2Proof.Machine
end

