-- ==== Sys2Proof/Machine/DescriptorRows.lean ====
section
/-! DEFINITION. The rows of the descriptors, and what completes those that wait (06 R217; 09 R344; 10 R364 to R404; 11
R406 to R451). -/
namespace Sys2Proof.Machine
open Sys2Proof

/-- The descriptor at the front of a ring, if its OP is `op`: fetched, checked and executed, with the completion record
that it brings; or one of that OP which waits and can now go on (10 R374, R381). -/
def State.descriptor (s : State) (r : RingId) (op : Nat) : Host.Outcome State Fault Refusal :=
  s.run (fun m b => b.descRow m r op (cmdOf op))

/-- MAP_SOURCE. -/
def execMapSource (ring : RingId) (s : State) : Host.Outcome State Fault Refusal :=
  s.descriptor ring 0x01

/-- UNMAP_SOURCE. -/
def execUnmapSource (ring : RingId) (s : State) : Host.Outcome State Fault Refusal :=
  s.descriptor ring 0x02

/-- SET_ROUTE. -/
def execSetRoute (ring : RingId) (s : State) : Host.Outcome State Fault Refusal :=
  s.descriptor ring 0x03

/-- SET_CLASS. -/
def execSetClass (ring : RingId) (s : State) : Host.Outcome State Fault Refusal :=
  s.descriptor ring 0x04

/-- SET_ENVELOPE. -/
def execSetEnvelope (ring : RingId) (s : State) : Host.Outcome State Fault Refusal :=
  s.descriptor ring 0x05

/-- LOAD_CLAUSE. -/
def execLoadClause (ring : RingId) (s : State) : Host.Outcome State Fault Refusal :=
  s.descriptor ring 0x06

/-- ATTACH_CLAUSE. -/
def execAttachClause (ring : RingId) (s : State) : Host.Outcome State Fault Refusal :=
  s.descriptor ring 0x07

/-- RESERVE_SLOTS. -/
def execReserveSlots (ring : RingId) (s : State) : Host.Outcome State Fault Refusal :=
  s.descriptor ring 0x08

/-- SET_RESIDENCY. -/
def execSetResidency (ring : RingId) (s : State) : Host.Outcome State Fault Refusal :=
  s.descriptor ring 0x09

/-- SET_TIMER. -/
def execSetTimer (ring : RingId) (s : State) : Host.Outcome State Fault Refusal :=
  s.descriptor ring 0x0A

/-- SET_SHARE. -/
def execSetShare (ring : RingId) (s : State) : Host.Outcome State Fault Refusal :=
  s.descriptor ring 0x0B

/-- STAGE_BEGIN. -/
def execStageBegin (ring : RingId) (s : State) : Host.Outcome State Fault Refusal :=
  s.descriptor ring 0x10

/-- COMMIT. -/
def execCommit (ring : RingId) (s : State) : Host.Outcome State Fault Refusal :=
  s.descriptor ring 0x11

/-- ABANDON. -/
def execAbandon (ring : RingId) (s : State) : Host.Outcome State Fault Refusal :=
  s.descriptor ring 0x12

/-- FENCE. -/
def execFence (ring : RingId) (s : State) : Host.Outcome State Fault Refusal :=
  s.descriptor ring 0x13

/-- FREEZE_DOMAIN. -/
def execFreezeDomain (ring : RingId) (s : State) : Host.Outcome State Fault Refusal :=
  s.descriptor ring 0x20

/-- SNAPSHOT_DOMAIN. -/
def execSnapshotDomain (ring : RingId) (s : State) : Host.Outcome State Fault Refusal :=
  s.descriptor ring 0x21

/-- RESTORE_DOMAIN. -/
def execRestoreDomain (ring : RingId) (s : State) : Host.Outcome State Fault Refusal :=
  s.descriptor ring 0x22

/-- THAW_DOMAIN. -/
def execThawDomain (ring : RingId) (s : State) : Host.Outcome State Fault Refusal :=
  s.descriptor ring 0x23

/-- RESET_DOMAIN. -/
def execResetDomain (ring : RingId) (s : State) : Host.Outcome State Fault Refusal :=
  s.descriptor ring 0x24

/-- SEND_CORE_MSG. -/
def execSendCoreMsg (ring : RingId) (s : State) : Host.Outcome State Fault Refusal :=
  s.descriptor ring 0x30

/-- QUERY_STATE. -/
def execQueryState (ring : RingId) (s : State) : Host.Outcome State Fault Refusal :=
  s.descriptor ring 0x31

/-- CACHE_FLUSH. -/
def execCacheFlush (ring : RingId) (s : State) : Host.Outcome State Fault Refusal :=
  s.descriptor ring 0x38

/-- CACHE_INVALIDATE. -/
def execCacheInvalidate (ring : RingId) (s : State) : Host.Outcome State Fault Refusal :=
  s.descriptor ring 0x39

/-- An executing descriptor may take effect: in RUN, and not while SPILL_ALL holds the configuration still (16 R593). -/
def Blk.mayApply (b : Blk) : Bool := b.awake && !b.ops.prog.spilling

/-- COMMIT_SWITCH: in HCLK 0 of a frame; a step of the Sequencer, which a halt stops (06 R217; 15 R566). -/
def execCommitSwitch (s : State) : Host.Outcome State Fault Refusal :=
  s.run (fun m b => b.when (b.mayApply && !b.dbg.haltSeq && b.time.hclk = 0) (fun b => b.commitSwitch m))

/-- SLOT_TABLE_LIVE: in HCLK 0 of a frame (06 R217). -/
def execSlotTableLive (link : Nat) (s : State) : Host.Outcome State Fault Refusal :=
  s.run (fun m b => b.when (b.mayApply && link < 16 && b.time.hclk = 0) (fun b => b.slotTableLive m link))

/-- VCTX_SWITCH_END. -/
def execVctxSwitchEnd (mgr : Nat) (s : State) : Host.Outcome State Fault Refusal :=
  s.run (fun m b => b.when (b.mayApply && mgr < 8) (fun b => b.vctxSwitchEnd m mgr))

/-- FREEZE_BOUNDARY. -/
def execFreezeBoundary (dom : Nat) (s : State) : Host.Outcome State Fault Refusal :=
  s.run (fun m b => b.when (b.mayApply && dom < 4096) (fun b => b.freezeBoundary m dom))

end Sys2Proof.Machine
end

