-- ==== Sys2Proof/Machine/FederationRows.lean ====
section
/-! DEFINITION. The rows of the federation (12 R452 to R474). -/
namespace Sys2Proof.Machine
open Sys2Proof

/-- FED.CTL as a write of EN and HUBID gives it, with RELOAD (12 R474). -/
def fedCtlWord (en : Bool) (hubid reload : Nat) : Nat := pack [(b2n en, 1, 0), (hubid, 2, 1), (reload, 1, 3)]

/-- FED_RELOAD: FED.CTL with RELOAD = 1. -/
def execFedReload (src : Src) (en : Bool) (hubid : Nat) (s : State) : Host.Outcome State Fault Refusal :=
  s.run (fun m b => b.writeBy m src 0xA0000 (BitVec.ofNat 32 (fedCtlWord en hubid 1)))

/-- FED_ENABLE_WRITE: FED.CTL without RELOAD. -/
def execFedEnableWrite (src : Src) (en : Bool) (hubid : Nat) (s : State) : Host.Outcome State Fault Refusal :=
  s.run (fun m b => b.writeBy m src 0xA0000 (BitVec.ofNat 32 (fedCtlWord en hubid 0)))

/-! ## Timers of the Federation Unit -/

/-- HELLO_TIMER. -/
def execHelloTimer (s : State) : Host.Outcome State Fault Refusal := s.run (fun _ b => b.helloTimer)

/-- TIME_MEASURE_TIMER. -/
def execTimeMeasureTimer (s : State) : Host.Outcome State Fault Refusal := s.run (fun _ b => b.measureTimer)

/-- TIME_MEASUREMENT_TIMEOUT. -/
def execTimeMeasurementTimeout (peer : Nat) (s : State) : Host.Outcome State Fault Refusal :=
  s.run (fun _ b => b.when (peer < 4) (fun b => b.measureTimeout peer))

/-- ZBL_RESEND. -/
def execZblResend (peer : Nat) (event : Bool) (s : State) : Host.Outcome State Fault Refusal :=
  s.run (fun _ b => b.when (peer < 4) (fun b => b.zResend peer event))

/-- PEER_LOST. -/
def execPeerLost (peer : Nat) (s : State) : Host.Outcome State Fault Refusal := s.run (fun m b => b.peerLost m peer)

/-! ## Control-class messages -/

/-- HELLO. -/
def execHello (peer seq proto fwver hubid fedid : Nat) (digest : Word) (s : State) : Host.Outcome State Fault Refusal :=
  s.run (fun m b => b.zTake m peer false seq (fun b => b.greeted peer proto fwver hubid fedid digest true))

/-- HELLO_ACK. -/
def execHelloAck (peer seq proto fwver hubid fedid : Nat) (digest : Word) (s : State) : Host.Outcome State Fault Refusal :=
  s.run (fun m b => b.zTake m peer false seq (fun b => b.greeted peer proto fwver hubid fedid digest false))

/-- TIME_REQ. -/
def execTimeReq (peer seq : Nat) (t1 : Dword) (s : State) : Host.Outcome State Fault Refusal :=
  s.run (fun m b => b.zTake m peer false seq (fun b => b.timeReq peer t1))

/-- TIME_RSP. -/
def execTimeRsp (peer seq : Nat) (t1 t2 t3 : Dword) (s : State) : Host.Outcome State Fault Refusal :=
  s.run (fun m b => b.zTake m peer false seq (fun b => b.timeRsp peer t1 t2 t3))

/-- What an OWN-class message tells. -/
def Blk.ownTaken (b : Blk) (peer : Nat) : OwnBody → Blk
  | .runs dom v run => b.ownRuns peer dom v run
  | .offset val => b.ownOffset peer val

/-- OWN. -/
def execOwn (peer seq : Nat) (body : OwnBody) (s : State) : Host.Outcome State Fault Refusal :=
  s.run (fun m b => b.zTake m peer false seq (fun b => b.ownTaken peer body))

/-- LEAVE. Its cause changes nothing at the receiver. -/
def execLeave (peer seq _cause : Nat) (s : State) : Host.Outcome State Fault Refusal :=
  s.run (fun m b => b.zTake m peer false seq (fun b => b.leaveTaken m peer))

/-- ACK. -/
def execZblAck (peer : Nat) (event : Bool) (seq : Nat) (s : State) : Host.Outcome State Fault Refusal :=
  s.run (fun _ b => b.when (peer < 4) (fun b => b.zAck peer event seq))

/-! ## Event-class messages -/

/-- FWD. -/
def execFwd (peer seq : Nat) (msg : FwdMsg) (s : State) : Host.Outcome State Fault Refusal :=
  s.run (fun m b => b.zTake m peer true seq (fun b => b.fwdTaken peer msg))

/-- WDRAW of a proxy. -/
def execZblWdraw (peer seq proxy : Nat) (s : State) : Host.Outcome State Fault Refusal :=
  s.run (fun m b => b.zTake m peer true seq (fun b => b.wdrawTaken peer proxy))

/-- RELEASED of a proxy. -/
def execZblReleased (peer seq proxy : Nat) (gen : BitVec 8) (s : State) : Host.Outcome State Fault Refusal :=
  s.run (fun m b => b.zTake m peer true seq (fun b => b.proxyNotice m .released gen peer proxy))

/-- CLAIMED of a proxy. -/
def execZblClaimed (peer seq proxy : Nat) (gen : BitVec 8) (s : State) : Host.Outcome State Fault Refusal :=
  s.run (fun m b => b.zTake m peer true seq (fun b => b.proxyNotice m .claimed gen peer proxy))

/-- COMPLETE of a proxy. -/
def execZblComplete (peer seq proxy : Nat) (gen : BitVec 8) (s : State) : Host.Outcome State Fault Refusal :=
  s.run (fun m b => b.zTake m peer true seq (fun b => b.proxyNotice m .complete gen peer proxy))

end Sys2Proof.Machine
end

