-- ==== Sys2Proof/Machine/Lines.lean ====
section
/-! DEFINITION. The wired lines between their pins and their latches: synchronisers, the filter of RUN and the change
detector of IDLE (02 R61 to R67; 04 R140; 13 R491). -/
namespace Sys2Proof.Machine
open Sys2Proof

/-- IDLE, with no sequence in progress: the port branches and the change detectors of the wired lines run. -/
def Blk.idling (b : Blk) : Bool := b.up && b.pwr.regs.state = .idle && b.pwr.seq.seq = .none

/-- What clocks the synchronisers of the lines now. -/
inductive LineClk where
  /-- HCLK: RUN, up to E1 of an entry -/
  | hclk
  /-- SCLK: IDLE, and E2 of an entry to it -/
  | sclk
  /-- the lines are not observed -/
  | stopped
  deriving DecidableEq, Repr

def Blk.lineClk (b : Blk) : LineClk :=
  if b.awake then .hclk else if b.idling || (b.up && b.pwr.seq.seq = .gate .idle) then .sclk else .stopped

/-- A line's synchroniser and samples after one sampling edge, which captures `level` at the first stage. -/
def syncEdge (s : BitVec 5) (level : Bool) : BitVec 5 := (s <<< 1) ||| (if level then 1#5 else 0#5)

/-- The level on which the samples after the synchroniser agree: three of them on HCLK, two on SCLK (02 R61, R66). -/
def agreed (sclk : Bool) (s : BitVec 5) : Option Bool :=
  if s.getLsbD 2 == s.getLsbD 3 && (sclk || s.getLsbD 3 == s.getLsbD 4) then some (s.getLsbD 2) else none

/-- A line whose stages all hold the level of its pin: nothing changes in it. -/
def Blk.lineSettled (b : Blk) (i : Nat) : Bool :=
  tabGet 0 b.ing.sync i == if setHas b.pins.lines i then BitVec.allOnes 5 else 0

/-- A change accepted in RUN. For a group that has stopped, one of a mapped line is a wake event: of the line in an entry to
IDLE, of the stopped client in an entry that will not observe lines (02 R66, R67; 13 R484, R491). -/
def Blk.lineInRun (b : Blk) (m : List Host.Cell) (i : Nat) (level : Bool) : Blk :=
  let b := b.lineChange i level
  if b.clientUp (i / 128) || !(b.stt i).valid then b
  else match b.pwr.seq.seq with
    | .poll .idle _ => b.wakeEv m 3 (i / 64)
    | _ => b.wakeEv m 9 (i / 128)

/-- One sampling edge of line `i`: its stages shift, and a level on which they agree is accepted. In IDLE only mapped lines
are sampled, and an accepted change is a wake event (02 R61 to R66). -/
def Blk.lineEdge (b : Blk) (m : List Host.Cell) (i : Nat) : Blk :=
  let c := b.lineClk
  if c = .stopped || (c = .sclk && !(b.stt i).valid) then b
  else
    let s := syncEdge (tabGet 0 b.ing.sync i) (setHas b.pins.lines i)
    let b := { b with ing := { b.ing with sync := tabSet 0 b.ing.sync i s } }
    match agreed (c = .sclk) s with
    | none => b
    | some v =>
      if v == setHas b.ing.level i then b
      else if c = .hclk then b.lineInRun m i v
      else (b.lineChange i v).wakeEv m 3 (i / 64)

/-- `n` sampling edges of one line. -/
def Blk.lineEdges (b : Blk) (m : List Host.Cell) (i : Nat) : Nat → Blk
  | 0 => b
  | n + 1 => (b.lineEdge m i).lineEdges m i n

/-- The pin of line `i` takes a level, which `n` sampling edges capture; after five of them its stages are settled. -/
def Blk.wiredLevel (b : Blk) (m : List Host.Cell) (i : Nat) (level : Bool) (n : Nat) : Blk :=
  ({ b with pins := { b.pins with lines := setPut b.pins.lines i level } }).lineEdges m i (min n 5)

/-- One sampling edge of every line that is not settled. -/
def Blk.linesEdge (b : Blk) (m : List Host.Cell) : Blk :=
  ((setOf (b.pins.lines ++ b.ing.sync.map (·.1))).filter (fun i => !b.lineSettled i)).foldl (fun b i => b.lineEdge m i) b

end Sys2Proof.Machine
end

