-- ==== Sys2Proof/Machine/IngressRows.lean ====
section
/-! DEFINITION. The rows of ingress and of the spill path (02 R44 to R67; 03 R96, R99; 04 R130 to R159). -/
namespace Sys2Proof.Machine
open Sys2Proof

/-- A record arrives at an MIP: it passes its group's lane, or it waits in its receive buffer while the group is stopped or
the Hub below RUN, and its beat 0 is a wake event (04 R130; 13 R484, R491). -/
def Blk.recordIn (b : Blk) (m : List Host.Cell) (mip : Nat) (msg : MsgRec) : Blk :=
  if b.awake && b.clientUp (mip / 8) then b.receive mip msg
  else
    let b := b.keepRecord mip msg
    if !b.wakeable then b else if b.deepBound then b.wakeEv m 9 (mip / 8) else b.wakeEv m 1 mip

/-- Eight beats arrive at an MIP on a credit; without one the package fabric sends none. -/
def Blk.messageRecord (b : Blk) (m : List Host.Cell) (mip : Nat) (msg : MsgRec) : Blk :=
  if 96 ≤ mip || tabGet 0 b.ing.credit mip = 0 then b
  else
    let x := b.framing mip msg
    x.2.foldl (fun b r => b.recordIn m mip r) x.1

/-- MESSAGE_RECORD. -/
def execMessageRecord (mip : Nat) (msg : MsgRec) (s : State) : Host.Outcome State Fault Refusal :=
  s.run (fun m b => b.messageRecord m mip msg)

/-- WIRED_LINE_CHANGE: 24 ports of 64 lines. -/
def execWiredLineChange (wlp line : Nat) (level : Bool) (s : State) (samples : Nat := 5) : Host.Outcome State Fault Refusal :=
  s.run (fun m b => b.when (wlp < 24 && line < 64) (fun b => b.wiredLevel m (64 * wlp + line) level samples))

/-- WIRED_LANE_TURN. -/
def execWiredLaneTurn (group : Nat) (s : State) : Host.Outcome State Fault Refusal :=
  s.run (fun _ b => b.when (b.awake && group < 12 && b.clientUp group) (fun b => b.wiredTurn group))

/-- A report of an internal source passes the internal lane; while the State Store's own work is stopped it waits, and it
is work for that client (04 R143; 13 R484). -/
def Blk.report (b : Blk) (k : Nat) : Blk :=
  if b.awake && b.clientUp 46 then b.internalReport k
  else if b.up && !((b.lane 24).reports.contains k) then b.raise k
  else b

/-- INTERNAL_REPORT. -/
def execInternalReport (k : Nat) (s : State) : Host.Outcome State Fault Refusal :=
  s.run (fun _ b => b.when (k < 256) (fun b => b.report k))

/-- ARRIVAL_STATE_UPDATE. -/
def execArrivalStateUpdate (bank : Nat) (s : State) : Host.Outcome State Fault Refusal :=
  s.run (fun m b => b.when (b.awake && bank < 16) (fun b => b.grant6 m bank))

/-- SPILL_PATH_UPDATE. -/
def execSpillPathUpdate (s : State) : Host.Outcome State Fault Refusal :=
  s.run (fun m b => b.when (b.awake && b.clientUp 28) (fun b => b.spillServe m))

/-- SPILL_BITMAP_TAKE. -/
def execSpillBitmapTake (s : State) : Host.Outcome State Fault Refusal :=
  s.run (fun _ b => b.when (b.awake && b.clientUp 28) (fun b => b.bitmapTake))

end Sys2Proof.Machine
end

