-- ==== Sys2Proof/Machine/LinkRows.lean ====
section
/-! DEFINITION. The rows of the Tile Links and the Tile Agents (03 R109 to R120; 05 R172, R175; 06 R213 to R258; 16 R575,
R581). -/
namespace Sys2Proof.Machine
open Sys2Proof

/-! ## When a link's logic runs -/

/-- The Tile Link ports run: in RUN up to E2 of an entry, and in S12 of a start (13 R475, R485; 16 Table 16-3). -/
def Blk.linksRun (b : Blk) : Bool :=
  match b.aon.start with
  | some (_, .s12) => true
  | some _ => false
  | none => b.awake

/-- An event on link `n`. One that abandons the pause handshake is a wake event of its port, but not on the way to OFF (06
R252; 13 R491). -/
def Blk.linkRow (b : Blk) (m : List Host.Cell) (n : Nat) (f : Blk → Blk) : Blk :=
  if 16 ≤ n || !b.linksRun then b
  else
    let c := f b
    if (b.link n).ph = .pausing && (c.link n).ph = .none && (c.link n).st = .up && !b.offBound then
      c.wakeEv m 10 n else c

/-- PAUSE waits to be sent. -/
def Link.pauseWaits (l : Link) : Bool := l.ctl.any (fun r => recType r == 8)

/-- A slot of the link; a sequenced flit sent after PAUSE abandons the pause (06 R252). -/
def Blk.slotRow (b : Blk) (n : Nat) : Blk :=
  let c := b.slotFill n
  if (b.link n).ph = .pausing && !(b.link n).pauseWaits && (c.link n).e.txSeq ≠ (b.link n).e.txSeq then c.abandonPause n else c

/-! ## Flits and replay -/

/-- SLOT_FILL. -/
def execSlotFill (link : Nat) (s : State) : Host.Outcome State Fault Refusal :=
  s.run (fun m b => b.linkRow m link (fun b => b.slotRow link))

/-- CANDIDATE_FLIT. -/
def execCandidateFlit (link : Nat) (err : BitVec 96) (s : State) : Host.Outcome State Fault Refusal :=
  s.run (fun m b => b.linkRow m link (fun b => b.candidateFlit link err))

/-- NAK. -/
def execNak (link : Nat) (atTile : Bool) (err : BitVec 96) (s : State) : Host.Outcome State Fault Refusal :=
  s.run (fun m b => b.linkRow m link (fun b => b.nak link atTile err))

/-- NAK_REPEAT. -/
def execNakRepeat (link : Nat) (atTile : Bool) (s : State) : Host.Outcome State Fault Refusal :=
  s.run (fun m b => b.linkRow m link (fun b => b.nakRepeat link atTile))

/-- REPLAY_WAIT_TIMEOUT. -/
def execReplayWaitTimeout (link : Nat) (atTile : Bool) (s : State) : Host.Outcome State Fault Refusal :=
  s.run (fun m b => b.linkRow m link (fun b =>
    let b := b.idlesAt link atTile
    b.when (b.waitsAt link atTile) (fun b => b.retrainIf link)))

/-! ## Records to the Tile Agent -/

/-- WDRAW. -/
def execWdraw (link : Nat) (err : BitVec 96) (s : State) : Host.Outcome State Fault Refusal :=
  s.run (fun m b => b.linkRow m link (fun b => b.downRec link 3 err (fun b r =>
    b.modTa link (fun a => a.onWdraw (recHandle r)))))

/-- WON. -/
def execWon (link : Nat) (err : BitVec 96) (s : State) : Host.Outcome State Fault Refusal :=
  s.run (fun m b => b.linkRow m link (fun b => b.downRec link 4 err (fun b r =>
    b.modTa link (fun a => a.onWon (recHandle r) (recCtx r)))))

/-- LOST. -/
def execLost (link : Nat) (err : BitVec 96) (s : State) : Host.Outcome State Fault Refusal :=
  s.run (fun m b => b.linkRow m link (fun b => b.downRec link 5 err (fun b r =>
    b.modTa link (fun a => a.onLost (recHandle r)))))

/-- PAUSE. -/
def execPause (link : Nat) (err : BitVec 96) (s : State) : Host.Outcome State Fault Refusal :=
  s.run (fun m b => b.linkRow m link (fun b => b.pauseRec link err))

/-- QUIESCE. -/
def execQuiesce (link : Nat) (err : BitVec 96) (s : State) : Host.Outcome State Fault Refusal :=
  s.run (fun m b => b.linkRow m link (fun b => b.downRec link 9 err (fun b _ => b.modTa link Agent.onQuiesce)))

/-- RESYNC_REQ. -/
def execResyncReq (link : Nat) (err : BitVec 96) (s : State) : Host.Outcome State Fault Refusal :=
  s.run (fun m b => b.linkRow m link (fun b => b.downRec link 10 err (fun b _ => b.modTa link Agent.onResync)))

/-- CLEAR. -/
def execClear (link : Nat) (err : BitVec 96) (s : State) : Host.Outcome State Fault Refusal :=
  s.run (fun m b => b.linkRow m link (fun b => b.clearRec link err))

/-- DROP. -/
def execDrop (link : Nat) (err : BitVec 96) (s : State) : Host.Outcome State Fault Refusal :=
  s.run (fun m b => b.linkRow m link (fun b => b.downRec link 12 err (fun b r =>
    b.modTa link (fun a => a.onDrop (recHandle r)))))

/-- TRAINED. -/
def execTrained (link : Nat) (err : BitVec 96) (s : State) : Host.Outcome State Fault Refusal :=
  s.run (fun m b => b.linkRow m link (fun b => b.downRec link 13 err (fun b _ => b.modTa link Agent.onTrained)))

/-! ## Records to the Hub -/

/-- PAUSE_ACK. -/
def execPauseAck (link : Nat) (err : BitVec 96) (s : State) : Host.Outcome State Fault Refusal :=
  s.run (fun m b => b.linkRow m link (fun b => b.pauseAck link err))

/-- QACK. -/
def execQack (link : Nat) (err : BitVec 96) (s : State) : Host.Outcome State Fault Refusal :=
  s.run (fun m b => b.linkRow m link (fun b => b.qack link err))

/-- RSYNC. -/
def execRsync (link : Nat) (err : BitVec 96) (s : State) : Host.Outcome State Fault Refusal :=
  s.run (fun m b => b.linkRow m link (fun b => b.rsync link err))

/-- RSYNC_END. -/
def execRsyncEnd (link : Nat) (err : BitVec 96) (s : State) : Host.Outcome State Fault Refusal :=
  s.run (fun m b => b.linkRow m link (fun b => b.rsyncEnd m link err))

/-- RELEASED. -/
def execReleased (link : Nat) (err : BitVec 96) (s : State) : Host.Outcome State Fault Refusal :=
  s.run (fun m b => b.linkRow m link (fun b => b.released m link err))

/-- CLAIMED. -/
def execClaimed (link : Nat) (err : BitVec 96) (s : State) : Host.Outcome State Fault Refusal :=
  s.run (fun m b => b.linkRow m link (fun b => b.claimed m link err))

/-- CLAIMREQ. -/
def execClaimReq (link : Nat) (err : BitVec 96) (s : State) : Host.Outcome State Fault Refusal :=
  s.run (fun m b => b.linkRow m link (fun b => b.claimReq m link err))

/-- COMPLETE_NOTICE. -/
def execCompleteNotice (link : Nat) (err : BitVec 96) (s : State) : Host.Outcome State Fault Refusal :=
  s.run (fun m b => b.linkRow m link (fun b => b.completeNotice m link err))

/-- CTXSTAT. -/
def execCtxstat (link : Nat) (err : BitVec 96) (s : State) : Host.Outcome State Fault Refusal :=
  s.run (fun m b => b.linkRow m link (fun b => b.ctxstat link err))

/-- CFAULT. -/
def execCfault (link : Nat) (err : BitVec 96) (s : State) : Host.Outcome State Fault Refusal :=
  s.run (fun m b => b.linkRow m link (fun b => b.cfault link err))

/-- UNPOP. -/
def execUnpop (link : Nat) (err : BitVec 96) (s : State) : Host.Outcome State Fault Refusal :=
  s.run (fun m b => b.linkRow m link (fun b => b.unpop link err))

/-! ## Training, loss and wake -/

/-- TRAINING_TIMEOUT. -/
def execTrainingTimeout (link : Nat) (s : State) : Host.Outcome State Fault Refusal :=
  s.run (fun m b => b.linkRow m link (fun b => b.trainTimeout link))

/-- TILE_FRAME_ALIGN. -/
def execTileFrameAlign (link : Nat) (s : State) : Host.Outcome State Fault Refusal :=
  s.run (fun m b => b.linkRow m link (fun b => b.frameAlign link))

/-- UPSTREAM_FRAMES_PASSED. -/
def execUpstreamFramesPassed (link : Nat) (s : State) : Host.Outcome State Fault Refusal :=
  s.run (fun m b => b.linkRow m link (fun b => b.framesPassed link))

/-- TILE_LOSS. -/
def execTileLoss (link : Nat) (s : State) : Host.Outcome State Fault Refusal :=
  s.run (fun m b => b.linkRow m link (fun b => b.tileLoss m link))

/-- A Tile Agent of a paused link has a record queued or a claim held (06 R253). -/
def Agent.pauseWork (a : Agent) : Bool := !a.upq.isEmpty || a.ctxs.any (fun x => x.2.held.isSome)

/-- The Tile Agent has ended its pattern. -/
def Blk.patternSent (b : Blk) (n : Nat) : Blk := b.modTa n (fun a => { a with wake := false })

/-- The upstream pattern at the Hub. On a link that is not driven it asks for service, and below RUN it wakes the Hub as on
a paused link; in DEEP the pattern stands until the Hub can train the link, and on a driven link until its clock stops. The
Hub ignores it on a port without population (02 R68; 06 R256, R257; 13 R491). -/
def Blk.wakeAtHub (b : Blk) (m : List Host.Cell) (n : Nat) : Blk :=
  let off : Bool := b.offBound || b.pwr.seq.hubReset
  if (b.ta n).inReset || off || !(b.link n).pop then b
  else if (b.link n).st = .paused then
    b.when ((b.ta n).wake || (b.ta n).pauseWork) (fun b => (b.patternSent n).wakeEv m 4 n)
  else b.when (b.ta n).wake (fun b =>
    let b := if b.wakeable then b.wakeEv m 4 n else b
    if b.awake && (b.link n).wakeable then (b.patternSent n).wakeTrain n else b)

/-- A CRITICAL instance is parked waiting for link `n` (06 R257). -/
def Blk.criticalWaits (b : Blk) (m : List Host.Cell) (n : Nat) : Bool :=
  b.rank.parked.any (fun i =>
    let st := b.stt i
    let e := b.entryOf m i
    let cls := formClass e.rclass st.rank.cls e.dem
    st.valid && cls == 3 && (match b.pathOf i st with
      | none => false
      | some pa => (b.emitTarget (mkOffer i st e false false) cls pa).2.members.any (fun v =>
          b.memberClass st.domid v == .waiting (some n))))

/-- The conditions under which the Hub sends the downstream pattern on link `n` (06 R257). -/
def Blk.patternDue (b : Blk) (m : List Host.Cell) (n : Nat) : Bool :=
  b.awake && (b.link n).st = .quiesced && (b.link n).wakeEn && b.criticalWaits m n

/-- The Tile Agent detects the downstream pattern and sends the pattern upstream once (06 R257). -/
def Blk.wakeAtTile (b : Blk) (m : List Host.Cell) (n : Nat) : Blk :=
  b.when (b.patternDue m n && (b.link n).waking && !(b.ta n).inReset) (fun b => b.modTa n (fun a => { a with wake := true }))

/-- WAKE_PATTERN: downstream at the Tile Agent, or upstream at the Hub. -/
def execWakePattern (link : Nat) (atTile : Bool) (s : State) : Host.Outcome State Fault Refusal :=
  s.run (fun m b => b.when (link < 16) (fun b => if atTile then b.wakeAtTile m link else b.wakeAtHub m link))

/-- WAKE_PATTERN_REPEAT: the downstream pattern goes on only while its conditions hold. -/
def execWakePatternRepeat (link : Nat) (s : State) : Host.Outcome State Fault Refusal :=
  s.run (fun m b => b.when (link < 16) (fun b => b.modLink link (fun l => { l with waking := b.patternDue m link })))

/-- No frame marker leaves the Hub on link `n`. -/
def Blk.noFrames (b : Blk) (n : Nat) : Bool :=
  !(b.link n).clkOn || b.pwr.seq.hubReset || (match b.aon.start with
    | none | some (_, .s12) => false
    | some _ => true)

/-- HUB_RESET_DETECT. -/
def execHubResetDetect (tile : Nat) (s : State) : Host.Outcome State Fault Refusal :=
  s.run (fun _ b => b.when (tile < 16 && b.noFrames tile) (fun b => b.agentHolds tile))

/-- TILE_AGENT_RESET. -/
def execTileAgentReset (tile : Nat) (low : Bool) (s : State) : Host.Outcome State Fault Refusal :=
  s.run (fun _ b => b.when (tile < 16) (fun b => b.taReset tile low))

/-! ## Accesses of the cores to their context pages -/

/-- An access to the 4 KiB page of a target context: its Tile Agent serves it, whatever the Hub does, unless it is in reset
(06 R244 to R246). -/
def Blk.ctxAccess (b : Blk) (ctx : Nat) (x : Access) : Blk :=
  if 1024 ≤ ctx || (b.ta (ctx / 64)).inReset then b else b.modTa (ctx / 64) (fun a => a.access (ctx % 64) x)

/-- CLAIM_READ. -/
def execClaimRead (ctx off size : Nat) (s : State) : Host.Outcome State Fault Refusal :=
  s.run (fun _ b => b.when (off < 0x1000) (fun b => b.ctxAccess ctx (.read off size)))

/-- COMPLETE_WRITE. -/
def execCompleteWrite (ctx off size : Nat) (val : Word) (s : State) : Host.Outcome State Fault Refusal :=
  s.run (fun _ b => b.when (off < 0x1000) (fun b => b.ctxAccess ctx (.complete off size val)))

/-- FLOOR_WRITE. -/
def execFloorWrite (ctx size : Nat) (val : Word) (s : State) : Host.Outcome State Fault Refusal :=
  s.run (fun _ b => b.ctxAccess ctx (.floor size val))

end Sys2Proof.Machine
end

