-- ==== Sys2Proof/Machine/PowerRows.lean ====
section
/-! DEFINITION. The rows of clocks, power states, resets, starts and long operations (01 R25 to R43; 02 R77 to R83; 13 R475
to R512; 16 R575 to R596). -/
namespace Sys2Proof.Machine
open Sys2Proof

/-! ## Operating points and the IRQPLL (01 R25 to R37) -/

/-- OPCTL_TARGET_WRITE: CLK.OPCTL. -/
def execOpctlTargetWrite (src : Src) (target floor : BitVec 2) (s : State) : Host.Outcome State Fault Refusal :=
  s.run (fun m b => b.writeBy m src 0x40000 (BitVec.ofNat 32 (pack [(target.toNat, 2, 0), (floor.toNat, 2, 8)])))

/-- OP_SWITCH: at the Tile Link frame boundary (01 R28). The Hub switches in RUN only: the spec does not say what a switch
that is ready does in IDLE (DESIGN CHOICE 109). -/
def execOpSwitch (s : State) : Host.Outcome State Fault Refusal :=
  s.run (fun m b => b.when (b.inRun && b.time.hclk = 0) (fun b => b.opSwitch m))

/-- AVS_ACK: the slave's answers to the write in progress and to the reads that follow it. -/
def execAvsAck (s : State) (crcErrors : Nat := 0) (done : Bool := true) (readBack : Nat := 580) : Host.Outcome State Fault Refusal :=
  s.run (fun m b => b.avsAck m crcErrors done readBack)

/-- AVS_TIMEOUT. -/
def execAvsTimeout (s : State) : Host.Outcome State Fault Refusal := s.run (fun _ b => b.avsTimeout)

/-- PLL_LOCK_LOSS. -/
def execPllLockLoss (s : State) : Host.Outcome State Fault Refusal := s.run (fun _ b => b.lockLoss)

/-- BYPASS_RELOCK_ATTEMPT. -/
def execBypassRelockAttempt (s : State) : Host.Outcome State Fault Refusal := s.run (fun _ b => b.relockAttempt)

/-- PLL_LOCK. -/
def execPllLock (s : State) : Host.Outcome State Fault Refusal := s.run (fun m b => b.pllLock m)

/-- AGING_MONITOR_READ. -/
def execAgingMonitorRead (need : Nat) (s : State) : Host.Outcome State Fault Refusal := s.run (fun _ b => b.agingRead need)

/-! ## The time base (02 R78) -/

/-- TIME_BASE_INVALID. -/
def execTimeBaseInvalid (s : State) : Host.Outcome State Fault Refusal :=
  s.run (fun _ b => { b with time := { b.time with valid := false } })

/-- TIME_BASE_VALID, at a value of TB_NS. -/
def execTimeBaseValid (tb : Dword) (s : State) : Host.Outcome State Fault Refusal :=
  s.run (fun _ b => { b with time := { b.time with tb := tb, valid := true } })

/-! ## Power requests and entries (13 R477 to R490) -/

/-- PWR.CTL written with a request. -/
def State.powerReq (s : State) (src : Src) (req : Nat) (autoIdle : Bool) (dly : BitVec 10) : Host.Outcome State Fault Refusal :=
  s.run (fun m b => b.writeBy m src 0x30000 (BitVec.ofNat 32 (pack [(req, 3, 0), (b2n autoIdle, 1, 9), (dly.toNat, 10, 16)])))

/-- POWER_REQ_IDLE. -/
def execPowerReqIdle (src : Src) (autoIdle : Bool) (dly : BitVec 10) (s : State) : Host.Outcome State Fault Refusal :=
  s.powerReq src 1 autoIdle dly

/-- POWER_REQ_SLEEP. -/
def execPowerReqSleep (src : Src) (autoIdle : Bool) (dly : BitVec 10) (s : State) : Host.Outcome State Fault Refusal :=
  s.powerReq src 2 autoIdle dly

/-- POWER_REQ_DEEP. -/
def execPowerReqDeep (src : Src) (autoIdle : Bool) (dly : BitVec 10) (s : State) : Host.Outcome State Fault Refusal :=
  s.powerReq src 3 autoIdle dly

/-- POWER_REQ_OFF. -/
def execPowerReqOff (src : Src) (autoIdle : Bool) (dly : BitVec 10) (s : State) : Host.Outcome State Fault Refusal :=
  s.powerReq src 4 autoIdle dly

/-- AUTO_IDLE_REQUEST. -/
def execAutoIdleRequest (s : State) : Host.Outcome State Fault Refusal := s.run (fun m b => b.autoIdle m)

/-- CLIENT_POLL. -/
def execClientPoll (s : State) : Host.Outcome State Fault Refusal := s.run (fun m b => b.clientPoll m)

/-- DELAY_TIMEOUT. -/
def execDelayTimeout (s : State) : Host.Outcome State Fault Refusal := s.run (fun m b => b.delayTimeout m)

/-- OFF_ACKNOWLEDGE. -/
def execOffAcknowledge (s : State) : Host.Outcome State Fault Refusal := s.run (fun _ b => b.offAck)

/-- PG_IRQ_TIMEOUT. -/
def execPgIrqTimeout (s : State) : Host.Outcome State Fault Refusal := s.run (fun m b => b.pgTimeout m)

/-- SUPPLY_LOSS. -/
def execSupplyLoss (s : State) : Host.Outcome State Fault Refusal := s.run (fun _ b => b.supplyLoss)

/-- POWER_GOOD_RETURN. -/
def execPowerGoodReturn (s : State) : Host.Outcome State Fault Refusal := s.run (fun m b => b.powerGood m)

/-! ## Wake events (13 R491 to R494) -/

/-- A WAKE pin takes a level: an enabled pin at its active level is a wake event. -/
def Blk.wakePinLevel (b : Blk) (m : List Host.Cell) (pin : Nat) (level : Bool) : Blk :=
  let w : BitVec 8 := BitVec.ofNat 8 (2 ^ pin)
  let b := { b with pins := { b.pins with wake := if level then b.pins.wake ||| w else b.pins.wake &&& ~~~w } }
  if b.pinActive pin && b.wakeable then b.wakeEv m 8 pin else b

/-- WAKE_PIN. -/
def execWakePin (pin : Nat) (level : Bool) (s : State) : Host.Outcome State Fault Refusal :=
  s.run (fun m b => b.when (pin < 8) (fun b => b.wakePinLevel m pin level))

/-- The count of AONCLK periods reaches the wake alarm. -/
def Blk.alarmDue (b : Blk) (m : List Host.Cell) : Blk :=
  match b.pwr.seq.alarm with
  | none => b
  | some n =>
    if (b.pwr.regs.state = .deep || b.pwr.regs.state = .off) && b.pwr.seq.seq = .none then
      (b.modSeq (fun q => { q with aon := max q.aon n })).wakeEv m 7 0
    else b

/-- WAKE_ALARM. -/
def execWakeAlarm (s : State) : Host.Outcome State Fault Refusal := s.run (fun m b => b.alarmDue m)

/-- MIPn_HELD takes a level: high is a wake event, but not in OFF nor on the way to it. -/
def Blk.heldLevel (b : Blk) (m : List Host.Cell) (mip : Nat) (level : Bool) : Blk :=
  let b := { b with ing := { b.ing with held := setPut b.ing.held mip level } }
  if level && b.wakeable && !b.offBound then b.wakeEv m 2 mip else b

/-- MIP_HELD. -/
def execMipHeld (mip : Nat) (level : Bool) (s : State) : Host.Outcome State Fault Refusal :=
  s.run (fun m b => b.when (mip < 96) (fun b => b.heldLevel m mip level))

/-- ISO_REQUEST. -/
def execIsoRequest (s : State) : Host.Outcome State Fault Refusal := s.run (fun _ b => b.isoRise)

/-- ISO_REQUEST_FALL. -/
def execIsoRequestFall (s : State) : Host.Outcome State Fault Refusal := s.run (fun m b => b.isoFall m)

/-! ## Resets and starts (16 R575 to R591) -/

/-- PACKAGE_COLD_RESET. -/
def execPackageColdReset (lc : BitVec 2) (bistOk fuseAck : Bool) (s : State) : Host.Outcome State Fault Refusal :=
  s.run (fun _ b => b.packageCold lc bistOk fuseAck)

/-- START_TIMEOUT. -/
def execStartTimeout (s : State) : Host.Outcome State Fault Refusal := s.run (fun _ b => b.startTimeout)

/-- HUB_WARM_RESET. -/
def execHubWarmReset (s : State) : Host.Outcome State Fault Refusal := s.run (fun m b => b.hubWarm m)

/-- SOFTWARE_RESET: HCTL.SWRESET with bit 0 and a key. -/
def execSoftwareReset (src : Src) (key : BitVec 8) (s : State) : Host.Outcome State Fault Refusal :=
  s.run (fun m b => b.writeBy m src 0x10000 (BitVec.ofNat 32 (pack [(1, 1, 0), (key.toNat, 8, 8)])))

/-! ## Long operations: OPS.CTL (16 R592 to R596) -/

/-- SCRUB_ALL. -/
def execScrubAll (src : Src) (s : State) : Host.Outcome State Fault Refusal := s.run (fun m b => b.writeBy m src 0x20000 1)

/-- SPILL_ALL. -/
def execSpillAll (src : Src) (s : State) : Host.Outcome State Fault Refusal := s.run (fun m b => b.writeBy m src 0x20000 2)

/-- RESTORE_ALL. -/
def execRestoreAll (src : Src) (s : State) : Host.Outcome State Fault Refusal := s.run (fun m b => b.writeBy m src 0x20000 3)

/-- SELFTEST, with the unit that its tests find failing. -/
def execSelftest (src : Src) (failing : Option Nat) (s : State) : Host.Outcome State Fault Refusal :=
  s.run (fun m b => b.writeByF m src 0x20000 4 failing)

/-- OPERATION_END. -/
def execOperationEnd (s : State) : Host.Outcome State Fault Refusal := s.run (fun m b => b.when b.awake (fun b => b.operationEnd m))

/-! ## What passes with time, where no row stands for it -/

/-- Scrub requests that wait are granted at the banks that have no other request (14 R533). -/
def Blk.scrubWaiting (b : Blk) : Blk :=
  b.arb.scrubPend.foldl (fun b k => if b.bankBusy k then b else b.scrubRow k) b

/-- A source's slot lies in a bank. -/
def Blk.inBank (b : Blk) (bank i : Nat) : Bool :=
  let st := b.stt i
  st.valid && st.res && st.slot % 16 == bank

/-- An engine's closing that waits, if any. -/
def Engine.closes (e : Engine) : Option Nat :=
  match e.st with
  | .closing k _ => some k.d.stt
  | _ => none

/-- An input of a bank's arbiter requests and is not served (14 Table 14-4, R526). -/
def Blk.requests (b : Blk) (bank input : Nat) : Bool :=
  match input with
  | 7 => b.links.any (fun x => !(tabGet [] x.2.notices bank).isEmpty)
  | 6 => b.ing.lanes.any (fun l => l.2.hold.any (fun x => x.1 == bank))
  | 5 => b.cls.any (fun x => x.2.forced.any (fun k => b.inBank bank k.d.stt) ||
        x.2.engines.any (fun e => e.2.closes.any (b.inBank bank))) ||
      b.tim.waiting.any (fun x => b.inBank bank (tabGet {} (b.cl (x.1 / 1024)).att (x.1 % 1024)).owner)
  | 4 => b.rings.rpWait.any (fun u => b.inBank bank u.stt) || b.ecc.entryBad.any (fun s => s % 16 == bank)
  | 1 => setHas b.arb.scrubPend bank
  | _ => false

/-- An HCLK of waiting is counted for every input that requests without a grant (14 R532). -/
def Blk.countWaits (b : Blk) : Blk :=
  { b with arb := { b.arb with cnt := ((List.range 128).filter (fun k => b.requests (k / 8) (k % 8))).foldl (fun t k =>
      tabMod {} t k (fun c => { c with wait := satInc c.wait, cur := satInc c.cur })) b.arb.cnt } }

/-- An AONCLK period passes in DEEP or OFF: it is counted, and the count that reaches the wake alarm is a wake event (13
R493; 02 R77). -/
def Blk.aonTick (b : Blk) (m : List Host.Cell) : Blk :=
  let b := b.modSeq (fun q => { q with aon := q.aon + 1 })
  let b := { b with time := { b.time with tb := b.time.tb + 30517 } }
  match b.pwr.seq.alarm with
  | some n => if n ≤ b.pwr.seq.aon then b.wakeEv m 7 0 else b
  | none => b

/-- DEEP or OFF, with no sequence in progress and no start: only the always-on domain is clocked. -/
def Blk.aonOnly (b : Blk) : Bool :=
  (b.pwr.regs.state = .deep || b.pwr.regs.state = .off) && b.pwr.seq.seq = .none && b.aon.start.isNone && !b.aon.failed

/-- One period of the clock that runs passes. RUN: an HCLK, in which the time base, the frame, the lines' filters and the
background work of the banks and of SETTLE go on. IDLE, SLEEP and the steps of an entry: an SCLK of 4 HCLK. DEEP and OFF: a
period of AONCLK. Nothing passes elsewhere (DESIGN CHOICE 2). -/
def Blk.tick (b : Blk) (m : List Host.Cell) : Blk :=
  if b.aonOnly then b.aonTick m
  else if !b.up then b
  else if !b.awake then (((b.elapse m (4 * b.clk.period)).linesEdge m).seqStep m)
  else ((((({ b.elapse m b.clk.period with time := (b.elapse m b.clk.period).time.advance }).bypassGo m).linesEdge m).scrubWaiting).settleStep m).countWaits

end Sys2Proof.Machine
end

