-- ==== Sys2Proof/Machine/Dispatch.lean ====
section
/-! DEFINITION. The meaning of each command: one arm per constructor of Instr. -/
namespace Sys2Proof.Machine
open Sys2Proof

def exec (i : Instr) (s : State) : Host.Outcome State Fault Refusal :=
  match i with
  | .messageRecord mip msg => Sys2Proof.Machine.execMessageRecord mip msg s
  | .wiredLineChange wlp line level samples => Sys2Proof.Machine.execWiredLineChange wlp line level s samples
  | .wiredLaneTurn group => Sys2Proof.Machine.execWiredLaneTurn group s
  | .internalReport k => Sys2Proof.Machine.execInternalReport k s
  | .arrivalStateUpdate bank => Sys2Proof.Machine.execArrivalStateUpdate bank s
  | .spillPathUpdate => Sys2Proof.Machine.execSpillPathUpdate s
  | .spillBitmapTake => Sys2Proof.Machine.execSpillBitmapTake s
  | .runStart cluster => Sys2Proof.Machine.execRunStart cluster s
  | .clMov cluster engine => Sys2Proof.Machine.execClMov cluster engine s
  | .clLdi cluster engine => Sys2Proof.Machine.execClLdi cluster engine s
  | .clLuh cluster engine => Sys2Proof.Machine.execClLuh cluster engine s
  | .clAdd cluster engine => Sys2Proof.Machine.execClAdd cluster engine s
  | .clSub cluster engine => Sys2Proof.Machine.execClSub cluster engine s
  | .clAddi cluster engine => Sys2Proof.Machine.execClAddi cluster engine s
  | .clCmp cluster engine => Sys2Proof.Machine.execClCmp cluster engine s
  | .clCmpi cluster engine => Sys2Proof.Machine.execClCmpi cluster engine s
  | .clAnd cluster engine => Sys2Proof.Machine.execClAnd cluster engine s
  | .clOr cluster engine => Sys2Proof.Machine.execClOr cluster engine s
  | .clXor cluster engine => Sys2Proof.Machine.execClXor cluster engine s
  | .clAndi cluster engine => Sys2Proof.Machine.execClAndi cluster engine s
  | .clOri cluster engine => Sys2Proof.Machine.execClOri cluster engine s
  | .clShl cluster engine => Sys2Proof.Machine.execClShl cluster engine s
  | .clShr cluster engine => Sys2Proof.Machine.execClShr cluster engine s
  | .clSar cluster engine => Sys2Proof.Machine.execClSar cluster engine s
  | .clMulu cluster engine => Sys2Proof.Machine.execClMulu cluster engine s
  | .clMuls cluster engine => Sys2Proof.Machine.execClMuls cluster engine s
  | .clDivu cluster engine => Sys2Proof.Machine.execClDivu cluster engine s
  | .clAbs cluster engine => Sys2Proof.Machine.execClAbs cluster engine s
  | .clMins cluster engine => Sys2Proof.Machine.execClMins cluster engine s
  | .clMaxs cluster engine => Sys2Proof.Machine.execClMaxs cluster engine s
  | .clMinu cluster engine => Sys2Proof.Machine.execClMinu cluster engine s
  | .clMaxu cluster engine => Sys2Proof.Machine.execClMaxu cluster engine s
  | .clExtu cluster engine => Sys2Proof.Machine.execClExtu cluster engine s
  | .clLdh cluster engine => Sys2Proof.Machine.execClLdh cluster engine s
  | .clLdhx cluster engine => Sys2Proof.Machine.execClLdhx cluster engine s
  | .clSth cluster engine => Sys2Proof.Machine.execClSth cluster engine s
  | .clSthx cluster engine => Sys2Proof.Machine.execClSthx cluster engine s
  | .clLdt cluster engine => Sys2Proof.Machine.execClLdt cluster engine s
  | .clLdtx cluster engine => Sys2Proof.Machine.execClLdtx cluster engine s
  | .clCmpt cluster engine => Sys2Proof.Machine.execClCmpt cluster engine s
  | .clXchh cluster engine => Sys2Proof.Machine.execClXchh cluster engine s
  | .clAddh cluster engine => Sys2Proof.Machine.execClAddh cluster engine s
  | .clBand cluster engine => Sys2Proof.Machine.execClBand cluster engine s
  | .clB cluster engine => Sys2Proof.Machine.execClB cluster engine s
  | .clBbs cluster engine => Sys2Proof.Machine.execClBbs cluster engine s
  | .clBbc cluster engine => Sys2Proof.Machine.execClBbc cluster engine s
  | .clEmit cluster engine => Sys2Proof.Machine.execClEmit cluster engine s
  | .clEmitr cluster engine => Sys2Proof.Machine.execClEmitr cluster engine s
  | .clCoalesce cluster engine => Sys2Proof.Machine.execClCoalesce cluster engine s
  | .clSuppress cluster engine => Sys2Proof.Machine.execClSuppress cluster engine s
  | .clLog cluster engine => Sys2Proof.Machine.execClLog cluster engine s
  | .clTimer cluster engine => Sys2Proof.Machine.execClTimer cluster engine s
  | .clEnd cluster engine => Sys2Proof.Machine.execClEnd cluster engine s
  | .closing cluster engine => Sys2Proof.Machine.execClosing cluster engine s
  | .watchdogExpiry cluster engine => Sys2Proof.Machine.execWatchdogExpiry cluster engine s
  | .sourceTimerExpiry cluster aidx => Sys2Proof.Machine.execSourceTimerExpiry cluster aidx s
  | .geyserFire channel => Sys2Proof.Machine.execGeyserFire channel s
  | .offerRanking => Sys2Proof.Machine.execOfferRanking s
  | .reOfferRequest => Sys2Proof.Machine.execReOfferRequest s
  | .parkedRescan => Sys2Proof.Machine.execParkedRescan s
  | .postedRescan => Sys2Proof.Machine.execPostedRescan s
  | .routeResync => Sys2Proof.Machine.execRouteResync s
  | .slotFill link => Sys2Proof.Machine.execSlotFill link s
  | .candidateFlit link err => Sys2Proof.Machine.execCandidateFlit link err s
  | .nak link atTile err => Sys2Proof.Machine.execNak link atTile err s
  | .nakRepeat link atTile => Sys2Proof.Machine.execNakRepeat link atTile s
  | .replayWaitTimeout link atTile => Sys2Proof.Machine.execReplayWaitTimeout link atTile s
  | .wdraw link err => Sys2Proof.Machine.execWdraw link err s
  | .won link err => Sys2Proof.Machine.execWon link err s
  | .lost link err => Sys2Proof.Machine.execLost link err s
  | .pause link err => Sys2Proof.Machine.execPause link err s
  | .pauseAck link err => Sys2Proof.Machine.execPauseAck link err s
  | .quiesce link err => Sys2Proof.Machine.execQuiesce link err s
  | .qack link err => Sys2Proof.Machine.execQack link err s
  | .resyncReq link err => Sys2Proof.Machine.execResyncReq link err s
  | .rsync link err => Sys2Proof.Machine.execRsync link err s
  | .rsyncEnd link err => Sys2Proof.Machine.execRsyncEnd link err s
  | .clear link err => Sys2Proof.Machine.execClear link err s
  | .drop link err => Sys2Proof.Machine.execDrop link err s
  | .trained link err => Sys2Proof.Machine.execTrained link err s
  | .trainingTimeout link => Sys2Proof.Machine.execTrainingTimeout link s
  | .released link err => Sys2Proof.Machine.execReleased link err s
  | .claimed link err => Sys2Proof.Machine.execClaimed link err s
  | .claimReq link err => Sys2Proof.Machine.execClaimReq link err s
  | .completeNotice link err => Sys2Proof.Machine.execCompleteNotice link err s
  | .vctxSwitchEnd m => Sys2Proof.Machine.execVctxSwitchEnd m s
  | .ctxstat link err => Sys2Proof.Machine.execCtxstat link err s
  | .cfault link err => Sys2Proof.Machine.execCfault link err s
  | .unpop link err => Sys2Proof.Machine.execUnpop link err s
  | .claimRead ctx off size => Sys2Proof.Machine.execClaimRead ctx off size s
  | .completeWrite ctx off size val => Sys2Proof.Machine.execCompleteWrite ctx off size val s
  | .floorWrite ctx size val => Sys2Proof.Machine.execFloorWrite ctx size val s
  | .wakePattern link atTile => Sys2Proof.Machine.execWakePattern link atTile s
  | .wakePatternRepeat link => Sys2Proof.Machine.execWakePatternRepeat link s
  | .tileLoss link => Sys2Proof.Machine.execTileLoss link s
  | .hubResetDetect tile => Sys2Proof.Machine.execHubResetDetect tile s
  | .mapSource ring => Sys2Proof.Machine.execMapSource ring s
  | .unmapSource ring => Sys2Proof.Machine.execUnmapSource ring s
  | .setRoute ring => Sys2Proof.Machine.execSetRoute ring s
  | .setClass ring => Sys2Proof.Machine.execSetClass ring s
  | .setEnvelope ring => Sys2Proof.Machine.execSetEnvelope ring s
  | .loadClause ring => Sys2Proof.Machine.execLoadClause ring s
  | .attachClause ring => Sys2Proof.Machine.execAttachClause ring s
  | .reserveSlots ring => Sys2Proof.Machine.execReserveSlots ring s
  | .slotTableLive link => Sys2Proof.Machine.execSlotTableLive link s
  | .setResidency ring => Sys2Proof.Machine.execSetResidency ring s
  | .setTimer ring => Sys2Proof.Machine.execSetTimer ring s
  | .setShare ring => Sys2Proof.Machine.execSetShare ring s
  | .stageBegin ring => Sys2Proof.Machine.execStageBegin ring s
  | .commit ring => Sys2Proof.Machine.execCommit ring s
  | .commitSwitch => Sys2Proof.Machine.execCommitSwitch s
  | .abandon ring => Sys2Proof.Machine.execAbandon ring s
  | .fence ring => Sys2Proof.Machine.execFence ring s
  | .freezeDomain ring => Sys2Proof.Machine.execFreezeDomain ring s
  | .freezeBoundary dom => Sys2Proof.Machine.execFreezeBoundary dom s
  | .snapshotDomain ring => Sys2Proof.Machine.execSnapshotDomain ring s
  | .restoreDomain ring => Sys2Proof.Machine.execRestoreDomain ring s
  | .thawDomain ring => Sys2Proof.Machine.execThawDomain ring s
  | .resetDomain ring => Sys2Proof.Machine.execResetDomain ring s
  | .sendCoreMsg ring => Sys2Proof.Machine.execSendCoreMsg ring s
  | .queryState ring => Sys2Proof.Machine.execQueryState ring s
  | .cacheFlush ring => Sys2Proof.Machine.execCacheFlush ring s
  | .cacheInvalidate ring => Sys2Proof.Machine.execCacheInvalidate ring s
  | .gcmdPseq dom size val parityError => Sys2Proof.Machine.execGcmdPseq dom size val parityError s
  | .gcplCseq dom size val parityError => Sys2Proof.Machine.execGcplCseq dom size val parityError s
  | .elqCseq dom size val parityError => Sys2Proof.Machine.execElqCseq dom size val parityError s
  | .mcmdPseq m size val parityError => Sys2Proof.Machine.execMcmdPseq m size val parityError s
  | .mcplCseq m size val parityError => Sys2Proof.Machine.execMcplCseq m size val parityError s
  | .ringEnable src m agent => Sys2Proof.Machine.execRingEnable src m agent s
  | .ringDisable src m agent => Sys2Proof.Machine.execRingDisable src m agent s
  | .ringDrainEnd r => Sys2Proof.Machine.execRingDrainEnd r s
  | .cacheEnable src => Sys2Proof.Machine.execCacheEnable src s
  | .cacheDisable src => Sys2Proof.Machine.execCacheDisable src s
  | .cacheDrainEnd => Sys2Proof.Machine.execCacheDrainEnd s
  | .lineFill line => Sys2Proof.Machine.execLineFill line s
  | .lineWritebackAck line => Sys2Proof.Machine.execLineWritebackAck line s
  | .hostAccessRetry line => Sys2Proof.Machine.execHostAccessRetry line s
  | .clusterDisable src cluster rsv => Sys2Proof.Machine.execClusterDisable src cluster rsv s
  | .clusterEnable src cluster rsv => Sys2Proof.Machine.execClusterEnable src cluster rsv s
  | .clusterDrainEnd cluster => Sys2Proof.Machine.execClusterDrainEnd cluster s
  | .engineRevive src cluster mask => Sys2Proof.Machine.execEngineRevive src cluster mask s
  | .opctlTargetWrite src target floor => Sys2Proof.Machine.execOpctlTargetWrite src target floor s
  | .opSwitch => Sys2Proof.Machine.execOpSwitch s
  | .avsAck crcErrors done readBack => Sys2Proof.Machine.execAvsAck s crcErrors done readBack
  | .avsTimeout => Sys2Proof.Machine.execAvsTimeout s
  | .pllLockLoss => Sys2Proof.Machine.execPllLockLoss s
  | .bypassRelockAttempt => Sys2Proof.Machine.execBypassRelockAttempt s
  | .pllLock => Sys2Proof.Machine.execPllLock s
  | .timeBaseInvalid => Sys2Proof.Machine.execTimeBaseInvalid s
  | .agingMonitorRead need => Sys2Proof.Machine.execAgingMonitorRead need s
  | .powerReqIdle src autoIdle dly => Sys2Proof.Machine.execPowerReqIdle src autoIdle dly s
  | .powerReqSleep src autoIdle dly => Sys2Proof.Machine.execPowerReqSleep src autoIdle dly s
  | .powerReqDeep src autoIdle dly => Sys2Proof.Machine.execPowerReqDeep src autoIdle dly s
  | .powerReqOff src autoIdle dly => Sys2Proof.Machine.execPowerReqOff src autoIdle dly s
  | .autoIdleRequest => Sys2Proof.Machine.execAutoIdleRequest s
  | .clientPoll => Sys2Proof.Machine.execClientPoll s
  | .delayTimeout => Sys2Proof.Machine.execDelayTimeout s
  | .offAcknowledge => Sys2Proof.Machine.execOffAcknowledge s
  | .pgIrqTimeout => Sys2Proof.Machine.execPgIrqTimeout s
  | .supplyLoss => Sys2Proof.Machine.execSupplyLoss s
  | .powerGoodReturn => Sys2Proof.Machine.execPowerGoodReturn s
  | .wakePin pin level => Sys2Proof.Machine.execWakePin pin level s
  | .wakeAlarm => Sys2Proof.Machine.execWakeAlarm s
  | .mipHeld mip level => Sys2Proof.Machine.execMipHeld mip level s
  | .isoRequest => Sys2Proof.Machine.execIsoRequest s
  | .packageColdReset lc bistOk fuseAck => Sys2Proof.Machine.execPackageColdReset lc bistOk fuseAck s
  | .startTimeout => Sys2Proof.Machine.execStartTimeout s
  | .hubWarmReset => Sys2Proof.Machine.execHubWarmReset s
  | .softwareReset src key => Sys2Proof.Machine.execSoftwareReset src key s
  | .tileAgentReset tile low => Sys2Proof.Machine.execTileAgentReset tile low s
  | .scrubAll src => Sys2Proof.Machine.execScrubAll src s
  | .spillAll src => Sys2Proof.Machine.execSpillAll src s
  | .restoreAll src => Sys2Proof.Machine.execRestoreAll src s
  | .selftest src failing => Sys2Proof.Machine.execSelftest src failing s
  | .operationEnd => Sys2Proof.Machine.execOperationEnd s
  | .scrubPeriod => Sys2Proof.Machine.execScrubPeriod s
  | .storeScrub => Sys2Proof.Machine.execStoreScrub s
  | .entryRebuild spilled n => Sys2Proof.Machine.execEntryRebuild spilled n s
  | .sequencerRestart => Sys2Proof.Machine.execSequencerRestart s
  | .grantRevoke bank => Sys2Proof.Machine.execGrantRevoke bank s
  | .acquire src lease => Sys2Proof.Machine.execAcquire src lease s
  | .renew src lease => Sys2Proof.Machine.execRenew src lease s
  | .release src lease => Sys2Proof.Machine.execRelease src lease s
  | .breakLock src lease => Sys2Proof.Machine.execBreakLock src lease s
  | .leaseExpiry => Sys2Proof.Machine.execLeaseExpiry s
  | .agentBind src agent srcid valid breaker => Sys2Proof.Machine.execAgentBind src agent srcid valid breaker s
  | .injectionArm src points => Sys2Proof.Machine.execInjectionArm src points s
  | .debugLevelWrite src level => Sys2Proof.Machine.execDebugLevelWrite src level s
  | .debugHalt src cl seq => Sys2Proof.Machine.execDebugHalt src cl seq s
  | .debugStep src cluster engine => Sys2Proof.Machine.execDebugStep src cluster engine s
  | .memoryWindowOp src space write cluster engine => Sys2Proof.Machine.execMemoryWindowOp src space write cluster engine s
  | .traceClear src wrap => Sys2Proof.Machine.execTraceClear src wrap s
  | .traceRead src => Sys2Proof.Machine.execTraceRead src s
  | .dbgChal sh => Sys2Proof.Machine.execDbgChal sh s
  | .dbgResp sh => Sys2Proof.Machine.execDbgResp sh s
  | .dbgReg sh => Sys2Proof.Machine.execDbgReg sh s
  | .tapReset => Sys2Proof.Machine.execTapReset s
  | .fedReload src en hubid => Sys2Proof.Machine.execFedReload src en hubid s
  | .fedEnableWrite src en hubid => Sys2Proof.Machine.execFedEnableWrite src en hubid s
  | .helloTimer => Sys2Proof.Machine.execHelloTimer s
  | .hello peer seq proto fwver hubid fedid digest => Sys2Proof.Machine.execHello peer seq proto fwver hubid fedid digest s
  | .helloAck peer seq proto fwver hubid fedid digest => Sys2Proof.Machine.execHelloAck peer seq proto fwver hubid fedid digest s
  | .timeMeasureTimer => Sys2Proof.Machine.execTimeMeasureTimer s
  | .timeReq peer seq t1 => Sys2Proof.Machine.execTimeReq peer seq t1 s
  | .timeRsp peer seq t1 t2 t3 => Sys2Proof.Machine.execTimeRsp peer seq t1 t2 t3 s
  | .own peer seq body => Sys2Proof.Machine.execOwn peer seq body s
  | .leave peer seq cause => Sys2Proof.Machine.execLeave peer seq cause s
  | .zblAck peer event seq => Sys2Proof.Machine.execZblAck peer event seq s
  | .zblResend peer event => Sys2Proof.Machine.execZblResend peer event s
  | .peerLost peer => Sys2Proof.Machine.execPeerLost peer s
  | .fwd peer seq m => Sys2Proof.Machine.execFwd peer seq m s
  | .zblWdraw peer seq proxy => Sys2Proof.Machine.execZblWdraw peer seq proxy s
  | .zblReleased peer seq proxy gen => Sys2Proof.Machine.execZblReleased peer seq proxy gen s
  | .zblClaimed peer seq proxy gen => Sys2Proof.Machine.execZblClaimed peer seq proxy gen s
  | .zblComplete peer seq proxy gen => Sys2Proof.Machine.execZblComplete peer seq proxy gen s
  | .linkQuiesce src link wakeEn => Sys2Proof.Machine.execLinkQuiesce src link wakeEn s
  | .linkService src link wakeEn => Sys2Proof.Machine.execLinkService src link wakeEn s
  | .linkRetrain src link wakeEn => Sys2Proof.Machine.execLinkRetrain src link wakeEn s
  | .registerWrite src off size val parityError => Sys2Proof.Machine.execRegisterWrite src off size val parityError s
  | .fetchFault cluster engine => Sys2Proof.Machine.execFetchFault cluster engine s
  | .timeBaseValid tb => Sys2Proof.Machine.execTimeBaseValid tb s
  | .isoRequestFall => Sys2Proof.Machine.execIsoRequestFall s
  | .tileFrameAlign link => Sys2Proof.Machine.execTileFrameAlign link s
  | .upstreamFramesPassed link => Sys2Proof.Machine.execUpstreamFramesPassed link s
  | .timeMeasurementTimeout peer => Sys2Proof.Machine.execTimeMeasurementTimeout peer s
  | .responseCheckEnd => Sys2Proof.Machine.execResponseCheckEnd s
  | .loHalfRead src off size parityError => Sys2Proof.Machine.execLoHalfRead src off size parityError s
  | .tapInstructionUpdate ir => Sys2Proof.Machine.execTapInstructionUpdate ir s
  | .lineWriteAck line => Sys2Proof.Machine.execLineWriteAck line s

end Sys2Proof.Machine
end

