-- ==== Sys2Proof/Machine/Step.lean ====
section
/-! DEFINITION. One step of the block: the command at the front of the queue, or one HCLK when none waits. -/
namespace Sys2Proof.Machine
open Sys2Proof

/-- A step. With no command waiting, one HCLK passes (DESIGN CHOICE 2). -/
def step (s : State) : Host.Outcome State Fault Refusal :=
  match s.pending with
  | c :: rest => exec c { s with pending := rest }
  | [] => s.run (fun m b => b.tick m)

/-- The state with the command that a word spells put at the front of its queue (DESIGN CHOICE 4). -/
def State.withFetchWord (s : State) (nbits w : Nat) : State :=
  match decodeTableWord nbits w with
  | some c => { s with pending := c :: s.pending }
  | none => s

end Sys2Proof.Machine
end

