-- ==== Sys2Proof/Machine/Pins.lean ====
section
/-! DEFINITION. The outputs of the block: what its ports and sideband signals show in a state, with the values they hold in
reset and while the clamps are applied (02 R44, R68, R70, R77, R81; 06 R210, R211; 13 R507). A signal that is high only
while a command runs (a channel's VLD and CRD, FUSE_REQ, the Caldera port) shows its Reset value between commands. -/
namespace Sys2Proof.Machine
open Sys2Proof

/-- The outputs of the Hub main domain hold their Reset or their Clamp values (02 R81; 16 R575). -/
def Blk.mainQuiet (b : Blk) : Bool := b.pwr.seq.clamp || b.pwr.seq.hubReset

/-! ## Message Ingress Ports (02 R44, R47) -/

/-- MIPn_CREDIT pulses between two states: a credit is returned to the package fabric. -/
def Blk.mipCredit (b b' : Blk) (n : Nat) : Bool :=
  !b'.pwr.seq.clamp && (tabGet 0 b.ing.credit n < tabGet 0 b'.ing.credit n)

/-! ## Tile Link Ports (02 R44, R68; 06 R210, R211, R221) -/

/-- Beat `i` of a flit. -/
def Flit.beat (f : Flit) (i : Nat) : Word24 :=
  match i with
  | 0 => f.b0
  | 1 => f.b1
  | 2 => f.b2
  | _ => f.crc

/-- The outputs of a Tile Link Port, or those of its Tile Agent. -/
structure TileOut where
  /-- the forwarded clock runs -/
  clk : Bool := false
  data : Word24 := 0
  frm : Bool := false
  deriving DecidableEq, Repr

/-- The flit of the slot in progress: the one launched last, but the one before it in the HCLK in which the coming slot has
already been filled (06 R213). -/
def Blk.slotFlit (b : Blk) (n : Nat) : Option Flit :=
  let w := (b.link n).e.wire
  if setHas b.time.filled n then w.dropLast.getLast? else w.getLast?

/-- TLn_CLK, TLn_DN and TLn_DN_FRM: driven only while the port is in service; at 0 on a port that the package does not
populate, in reset and while the clamps are applied. TLn_DN_FRM is high in HCLK 0 of each frame. -/
def Blk.tileOut (b : Blk) (n : Nat) : TileOut :=
  let l := b.link n
  if b.mainQuiet || !l.pop || !l.clkOn then {}
  else if !l.driven then { clk := true }
  else { clk := true, frm := b.time.hclk = 0,
         data := match b.slotFlit n with
           | some f => f.beat (b.time.hclk % 4)
           | none => 0 }

/-- HCLK from the launch of a beat to its capture at either end: the bound of R247, the value at OP0 (DESIGN CHOICE 123). -/
def flightHclk : Nat := 36

/-- HCLK of a Tile Agent's upstream frame: it starts in the forwarded HCLK in which the agent receives TLn_DN_FRM high, so
its slots are numbered and timed as the downstream slots are, one flight later (06 R211). -/
def Blk.upHclk (b : Blk) : Nat := (b.time.hclk + 256 - flightHclk) % 256

/-- The upstream slot that a Tile Agent sends now. -/
def Blk.upSlot (b : Blk) : Nat := b.upHclk / 4

/-- TLn_UP and TLn_UP_FRM as the Tile Agent of a driven link that has aligned sends them; at 0 in its reset, and from its own
isolation cells when its tile is unpowered. -/
def Blk.tileUp (b : Blk) (n : Nat) : TileOut :=
  let a := b.ta n
  if a.inReset || !a.aligned || !(b.link n).driven then {}
  else { clk := true, frm := b.upHclk = 0,
         data := match a.e.wire.getLast? with
           | some f => f.beat (b.upHclk % 4)
           | none => 0 }

/-- What of TLn_UP and TLn_UP_FRM reaches the Hub: nothing on a port that the package does not populate (02 R68). -/
def Blk.tileIn (b : Blk) (n : Nat) : TileOut := if (b.link n).pop then b.tileUp n else {}

/-! ## Fabric Ports (02 R44, R70, R71) -/

/-- The Fabric Port of a host line: address bits A[7:6], Table 2-7. -/
def hostPort (line : Nat) : Nat := line % 4

/-- A request that FPn has put on its channels and that the package fabric has not answered: a read or a write of one
whole line. -/
structure FpReq where
  write : Bool
  line : Nat
  deriving DecidableEq, Repr

/-- The whole-line accesses outstanding at any port: fills, line buffers and record writes. -/
def Blk.hostReqs (b : Blk) : List FpReq :=
  b.lc.fills.map (fun k => { write := false, line := k }) ++ b.lc.bufs.map (fun l => { write := true, line := l.line }) ++
    b.fp.out.map (fun w => { write := true, line := w.line })

/-- The requests of FPn_REQ_O and FPn_DAT_O: those of the lines the port carries for FP0 to FP3, none for FP4 and FP5, which
are targets, nor in reset or under the clamps. -/
def Blk.fpReqs (b : Blk) (n : Nat) : List FpReq :=
  if b.mainQuiet || 4 ≤ n then [] else b.hostReqs.filter (fun r => hostPort r.line == n)

/-- The messages of FP6 and FP7: those of the federation toward each peer that the peer has not acknowledged (12 R453). -/
def Blk.fpMessages (b : Blk) (n p : Nat) : List (Nat × ZMsg) :=
  let c := tabGet {} b.fed.peers p
  if b.mainQuiet then [] else if n = 6 then c.ev.unacked else if n = 7 then c.ct.unacked else []

/-! ## The test access port (15 R557 to R561) -/

/-- The IDCODE register (15 Table 15-3). -/
def idcode : Nat := 0x2C2569CF

/-- What the TAP presents of DBG_CHAL: the challenge bytes while one is pending, else 0, with the status (15 R560). -/
def Blk.chalCapture (b : Blk) : Nat :=
  let t := b.dbg.tap
  match t.chal with
  | some (n, req, fails) => shiftBytes (challengeBytes n req b.dbg.lc fails) + t.chalStatus.toNat * 2 ^ 192
  | none => t.chalStatus.toNat * 2 ^ 192

/-- The width of the data register that the instruction selects, and what Capture-DR loads into it (15 Table 15-3). Every other
code selects the bypass register; so do the debug registers in FAILED, where the TAP answers IDCODE and BYPASS only (16
R590). -/
def Blk.captureDr (b : Blk) : Nat × Nat :=
  let t := b.dbg.tap
  if t.ir = 0x01 then (32, idcode)
  else if b.aon.failed then (1, 0)
  else match t.ir.toNat with
    | 0x20 => (200, b.chalCapture)
    | 0x21 => (264, t.outcome.toNat * 2 ^ 256)
    | 0x22 => (53, t.data.toNat + t.status.toNat * 2 ^ 51)
    | _ => (1, 0)

/-! ## Sideband signals (02 R77, R81) -/

/-- Outputs of Table 2-8. -/
structure SideOut where
  /-- AVS_CLK: low between frames -/
  avsClk : Bool
  /-- AVS_MDATA: high between frames -/
  avsMdata : Bool
  /-- TDO: high impedance outside a shift -/
  tdo : Option Bool
  vddOffReq : Bool
  cwPstate : BitVec 3
  cwFailed : Bool
  cwErrFatal : Bool
  fuseReq : Bool
  fuseAddr : BitVec 8
  deriving DecidableEq, Repr

/-- CW_ERR_FATAL: 1 under the clamps, 0 in reset, else it follows ERR.STATUS.FATAL (02 R77, R81; 14 R517). -/
def Blk.errFatal (b : Blk) : Bool := b.pwr.seq.clamp || (!b.pwr.seq.hubReset && b.err.st.fatal)

/-- The sideband outputs; an always-on output carries no clamp. The bits that AVS_MDATA has carried in the frames of a
write stand in `PwrSeq.bus`, those of TDO in what a TAP row leaves in `Tap`. -/
def Blk.sideOut (b : Blk) : SideOut :=
  { avsClk := false, avsMdata := true, tdo := none,
    vddOffReq := b.pwr.seq.offReq, cwPstate := BitVec.ofNat 3 b.pwr.seq.cwPstate.code, cwFailed := b.aon.failed,
    cwErrFatal := b.errFatal, fuseReq := false, fuseAddr := 0 }

/-- The signals of Table 13-9, from the Hub main domain to the always-on domain. -/
structure AonSignals where
  pcAonReq : BitVec 3 := 0
  pcAvsReq : Bool := false
  pcAlarmWe : Bool := false
  calCs : Bool := false
  calWe : Bool := false
  calAddr : BitVec 12 := 0
  calWdata : Word := 0
  pcFailSet : Bool := false
  pcRunAck : Bool := false
  deriving DecidableEq, Repr

/-- Table 13-9: each signal at its clamp value while the clamps are applied, else what the power controller asks for
(13 R507). -/
def Blk.aonSignals (b : Blk) : AonSignals :=
  if b.pwr.seq.clamp then {}
  else { pcAonReq := BitVec.ofNat 3 b.pwr.regs.state.code, pcAvsReq := b.pwr.seq.avs.isSome, pcRunAck := b.inRun }

end Sys2Proof.Machine
end

