-- ==== Sys2Proof/Safety.lean ====
section
/-! DEFINITION. What a safe run is, and the vocabulary of the statements: what a command makes of the block, when nothing
follows a command, and the invariant that every step keeps. -/
namespace Sys2Proof.Machine
open Sys2Proof

/-- The outcome of a command that makes of the block `b`: the next state, with what follows the command at once, host
memory and the queue as they were. -/
def State.becomes (s : State) (b : Blk) : Host.Outcome State Fault Refusal := .next { s with blk := b.afterCmd s.mem }

/-- The outcome of a command that makes of the block exactly `b`. -/
def State.exactly (s : State) (b : Blk) : Host.Outcome State Fault Refusal := .next { s with blk := b }

/-- The outcome of a command that makes of the block `b` and puts the 64 bytes of a line into host memory, in which no
other byte changes (02 R72). -/
def State.puts (s : State) (o : Host.Outcome State Fault Refusal) (line : Nat) (d : BitVec 512) (b : Blk) : Prop :=
  ∃ m, o = .next { s with mem := m, blk := b.afterCmd m } ∧
    ∀ a, memRead m a = if a / 64 = line then d.extractLsb' (8 * (a % 64)) 8 else memRead s.mem a

/-- A step answers a next state: no fault and no refusal. -/
def State.moves (s : State) : Prop := ∃ t, step s = .next t

/-- Host memory is in its canonical form. -/
def State.Inv (s : State) : Prop := Memory.wf s.mem = true

/-- `n` steps, each of which answered a next state. -/
def Reach : Nat → State → State → Prop
  | 0, s, t => s = t
  | n + 1, s, t => ∃ u, step s = .next u ∧ Reach n u t

/-! ## Clause Engines -/

/-- Engine `k` of cluster `c` runs `r` and steps: per-event logic clocked, the cluster not halted, the run sequencing. -/
structure Blk.Running (b : Blk) (c k : Nat) (r : Run) : Prop where
  awake : b.awake = true
  halted : setHas b.dbg.haltCl c = false
  running : (tabGet {} (b.cl c).engines k).st = .running r
  sequencing : r.stuck = false
  noInject : b.injHit 6 c = false ∧ b.injHit 7 c = false

/-- The extent of the region of a run's attachment holds its PC (08 R320, R335). -/
def Blk.InRegion (b : Blk) (c : Nat) (r : Run) : Prop :=
  let g := tabGet {} (b.cl c).regions r.d.att.region
  g.valid = true ∧ g.pbase ≤ r.pc.toNat ∧ r.pc.toNat < g.pbase + g.plen

/-- The run's next instruction is `w`, whose fetch meets no fault (08 R319 to R322). -/
structure Blk.AtInstr (b : Blk) (c k : Nat) (r : Run) (w : Word24) : Prop extends b.Running c k r where
  region : b.InRegion c r
  sound : setHas (b.cl c).progBad r.pc.toNat = false
  word : tabGet 0 (b.cl c).prog r.pc.toNat = w
  legal : legalWord w = true
  budget : r.steps + stepCost w ≤ r.d.att.budget

/-- The run after `w` consumed its steps, its PC advanced by 1. -/
def Run.past (r : Run) (w : Word24) : Run := { r with steps := r.steps + stepCost w, pc := r.pc + 1 }

/-- The run after `w` wrote `v` to the register that RD names, with flags. -/
def Run.wrote (r : Run) (w v : Word24) (f : Flags) : Run := { r.past w with g := tabSet 0 r.g (fD w) v, f := f }

/-- The next state in which the engine runs `r` and nothing else changed. -/
def State.runs (s : State) (c k : Nat) (r : Run) : Host.Outcome State Fault Refusal :=
  s.exactly (s.blk.modCl c (fun x => { x with engines := tabMod {} x.engines k (fun e => { e with st := .running r }) }))

/-- The next state in which the engine runs `r` and the data store word at `a` was written. -/
def State.runsStoring (s : State) (c k a : Nat) (v : Word24) (r : Run) : Host.Outcome State Fault Refusal :=
  s.exactly (s.blk.modCl c (fun x =>
    { x with data := tabSet 0 x.data a v, dataBad := setDel x.dataBad a,
             engines := tabMod {} x.engines k (fun e => { e with st := .running r }) }))

/-- The next state in which the engine's run has ended with these actions and nothing else changed. -/
def State.ended (s : State) (c k : Nat) (r : Run) (acts : Acts) : Host.Outcome State Fault Refusal :=
  s.exactly (s.blk.modCl c (fun x =>
    { x with engines := tabMod {} x.engines k (fun e => { e with st := .closing { d := r.d, acts := acts } r.again }) }))

/-- What a fault of a run with this cause of Table 7-5 leaves: the closing begins with the actions recorded, the fault is
counted, captured unless one is held, and reported; the cluster's stores and every other cluster stay (07 R303, R304). -/
def Blk.FaultLeaves (b t : Blk) (c k : Nat) (r : Run) (cause : Nat) : Prop :=
  t.cl c = { b.cl c with
    engines := tabMod {} (b.cl c).engines k (fun e => { e with st := .closing { d := r.d, acts := r.acts } r.again }),
    regs := { (b.cl c).regs with
      faultCnt := satInc (b.cl c).regs.faultCnt,
      fcap := if (b.cl c).regs.fcap.valid then (b.cl c).regs.fcap
        else { engine := k, addr := r.pc, cause := cause, valid := true } } } ∧
  (∀ d, d ≠ c → t.cl d = b.cl d) ∧ (t.lane 24).reports = (b.lane 24).reports ++ [0x08] ∧
  { t with cls := b.cls, ing := b.ing, dbg := b.dbg } = b

/-- The instruction rows of an engine, each with its opcode (08 Tables 8-4 to 8-7). -/
def clauseTable (c k : Nat) : List (Nat × Instr) :=
  [(0x01, .clMov c k), (0x02, .clLdi c k), (0x03, .clLuh c k), (0x04, .clAdd c k), (0x05, .clSub c k),
   (0x06, .clAddi c k), (0x07, .clCmp c k), (0x08, .clCmpi c k), (0x09, .clAnd c k), (0x0A, .clOr c k),
   (0x0B, .clXor c k), (0x0C, .clAndi c k), (0x0D, .clOri c k), (0x0E, .clShl c k), (0x0F, .clShr c k),
   (0x10, .clSar c k), (0x11, .clMulu c k), (0x12, .clMuls c k), (0x13, .clDivu c k), (0x14, .clAbs c k),
   (0x15, .clMins c k), (0x16, .clMaxs c k), (0x17, .clMinu c k), (0x18, .clMaxu c k), (0x19, .clExtu c k),
   (0x20, .clLdh c k), (0x21, .clLdhx c k), (0x22, .clSth c k), (0x23, .clSthx c k), (0x24, .clLdt c k),
   (0x25, .clLdtx c k), (0x26, .clCmpt c k), (0x27, .clXchh c k), (0x28, .clAddh c k), (0x29, .clBand c k),
   (0x30, .clB c k), (0x31, .clBbs c k), (0x32, .clBbc c k), (0x38, .clEmit c k), (0x39, .clEmitr c k),
   (0x3A, .clCoalesce c k), (0x3B, .clSuppress c k), (0x3C, .clLog c k), (0x3D, .clTimer c k), (0x3E, .clEnd c k)]

/-- An engine that is idle and in service (07 R272, R308). -/
def Cluster.Free (x : Cluster) (k : Nat) : Prop :=
  k < 16 ∧ (tabGet {} x.engines k).st = .idle ∧ setHas x.regs.offline k = false

/-! ## Sources -/

/-- A mapped source that lives in a readable State Store slot: no armed injection, no error in its slot or its STT entry,
no offer standing in its bank's register, no notice held at a bank, its domain neither FREEZING nor FROZEN. -/
structure Blk.AtSlot (b : Blk) (i : Nat) (st : Stt) : Prop where
  stt : tabGet {} b.sram.stt i = st
  mapped : st.valid = true ∧ st.res = true
  noInject : b.inj.arm = []
  readable : setHas b.ecc.sttBad i = false ∧ setHas b.ecc.entryBad st.slot = false ∧ setHas b.ecc.entryCe st.slot = false
  noOffer : ∀ x ∈ b.rank.offers, x.1 ≠ st.slot % 16
  noNotice : b.noticesHeld = false
  acts : (b.dom st.domid).still = false

/-- The entry of a source in its slot. -/
def Blk.entry (b : Blk) (st : Stt) : Entry := (b.slot st.slot).entry

/-- The offer that an entry of a source makes (05 R176). -/
def offerOf (i : Nat) (st : Stt) (e : Entry) : Offer :=
  { stt := i, mapgen := st.mapgen, gen := e.gen, rclass := e.rclass, rprio := e.rprio, dem := e.dem, rtv := e.rtv,
    rtgt := e.rtgt.toNat, stamp := e.stamp }

/-- The one offer standing is `o` in register `reg`, of mapped source `i` with entry `st` of the same MAPGEN; the Ranking
Unit runs, nothing is injected and no federated configuration is loaded. -/
structure Blk.Offers (b : Blk) (reg : Nat) (o : Offer) (st : Stt) : Prop where
  awake : b.awake = true
  client : setHas b.pwr.seq.stopped 29 = false
  offers : b.rank.offers = [(reg, o)]
  stt : tabGet {} b.sram.stt o.stt = st
  mapped : st.valid = true ∧ st.mapgen = o.mapgen ∧ setHas b.ecc.sttBad o.stt = false
  noInject : b.inj.arm = []
  alone : b.fed.loaded = false

/-- The live Route Table entry with this index (05 R182, R194). -/
def Blk.liveRoute (b : Blk) (i : Nat) : Route :=
  tabGet {} (if b.rank.epoch then b.rank.copy1 else b.rank.copy0).routes i

/-- The class and the key that the Ranking Unit forms (05 R164 to R167). -/
def Blk.rankKey (b : Blk) (o : Offer) (st : Stt) : BitVec 2 × Word24 :=
  let lim := if st.rank.cls < o.rclass then st.rank.cls else o.rclass
  let cls := if o.dem && 1#2 < lim then 1#2 else lim
  let elapsed := b.now.extractLsb' 6 14 - o.stamp
  let dl := (((if st.env.envv && !setHas b.ecc.envBad st.env.env then (tabGet {} b.sram.env st.env.env).dl else 0) + 63) / 64 : Nat)
  let urg : BitVec 14 := if 2#2 ≤ cls then BitVec.ofNat 14 (0x3FFF - min (dl - elapsed.toNat) 0x3FFF) else elapsed
  (cls, cls ++ o.rprio ++ urg)

/-! ## Tile Links -/

/-- Link `n` is driven in RUN, no pause under way, its Tile Agent out of reset, nothing injected. -/
structure Blk.LinkRuns (b : Blk) (n : Nat) : Prop where
  link : n < 16
  awake : b.awake = true
  driven : (b.link n).driven = true
  steady : (b.link n).ph ≠ .pausing
  noInject : b.inj.arm = []
  tile : (b.ta n).inReset = false

/-- Record `r` is the content of the flit that reaches the Tile Agent next, intact and in sequence (06 R223, R227). -/
structure Blk.ToTile (b : Blk) (n : Nat) (r : Word24) (rest : List Flit) : Prop extends b.LinkRuns n where
  inbox : (b.ta n).e.inbox = []
  wire : (b.link n).e.wire = mkFlit (b.ta n).e.rxExp r 0 0 :: rest

/-- Record `r` is the content of the flit that reaches the Hub next, intact and in sequence. -/
structure Blk.ToHub (b : Blk) (n : Nat) (r : Word24) (rest : List Flit) : Prop extends b.LinkRuns n where
  inbox : (b.link n).e.inbox = []
  wire : (b.ta n).e.wire = mkFlit (b.link n).e.rxExp r 0 0 :: rest

/-- Nothing else concerns handle `h` of link `n`: no answer of it waits to be sent, no notice of it waits on the spill path, and
it was not found uncorrectable. -/
structure Blk.Single (b : Blk) (n h : Nat) : Prop where
  unanswered : ((b.link n).handle h).ans = none
  unspilled : ∀ u ∈ b.rings.spillq ++ b.rings.spillw, u.names n h = false
  sound : b.lostHandle n h = false

/-- Handle `h` of link `n` names in state `st` one exclusive copy or claimed INTID of the mapped source `t`, under its
current MAPGEN and generation. -/
structure Blk.Names (b : Blk) (n h : Nat) (st : HState) (t : Stt) : Prop extends b.Single n h where
  handle : ((b.link n).handle h).st = st ∧ ((b.link n).handle h).shr = false ∧ ((b.link n).handle h).prox = none
  source : b.AtSlot ((b.link n).handle h).stt t
  current : ((b.link n).handle h).mapgen = t.mapgen ∧ ((b.link n).handle h).gen = (b.dom t.domid).gen

/-- Copies without those that bear a handle. -/
def without (h : Nat) (l : List Copy) : List Copy := l.filter (fun k => k.handle ≠ h)

/-- The next flit on a wire is there, and not IDLE. -/
def LinkEnd.Busy (e : LinkEnd) : Prop := ∃ f rest, e.wire = f :: rest ∧ f.isIdle = false

/-- No access waits at a Tile Agent. -/
def Agent.Quiet (a : Agent) : Prop := ∀ x ∈ a.ctxs, x.2.waiting = []

/-! ## Descriptors -/

/-- The descriptor in the slot at FSEQ of a command ring (10 R365, R366). -/
def Blk.descAt (b : Blk) (m : List Host.Cell) (r : RingId) : Desc :=
  let q := (b.pair r).cmd
  { ring := r, seq := q.r, line := b.hostLine m ((q.base + 64 * (q.r % 2 ^ (6 + q.log2sz))) / 64) }

/-- A line can be had at once and a record written at once: the Line Cache is DISABLED with no line held, every line buffer is
free, no record waits, no read fails and nothing is injected (10 R395, R402). -/
structure Blk.Writes (b : Blk) : Prop where
  noInject : b.inj.arm = []
  noCache : b.lc.st = .disabled
  noHeld : ∀ l ∈ b.lc.lines, l.held = false
  noBufs : b.lc.bufs = []
  noWrites : ∀ w ∈ b.fp.out, w.buf = false
  noRecs : b.fp.recs = []
  noFail : b.fp.fail = []

/-- Ring `r` has a descriptor to fetch and room for its record, which can be written at once: the Ring Processor runs, nothing
of the ring executes, and SPILL_ALL does not run (10 R367). -/
structure Blk.Fetches (b : Blk) (r : RingId) : Prop extends b.Writes where
  awake : b.awake = true
  client : setHas b.pwr.seq.stopped 28 = false
  enabled : (b.pair r).st = .enabled
  live : ∀ g, r = .guest g → (b.dom g).st = .live
  waits : (b.pair r).cmd.r ≠ (b.pair r).cmd.w
  room : seqDist (b.pair r).cpl.r (b.pair r).cpl.w < 2 ^ (6 + (b.pair r).cpl.log2sz)
  idle : (b.pair r).exec = []
  noSpill : b.ops.prog.spilling = false

/-- CHECK of the descriptor is the check value over its sequence number, address and words 0 to 14 (10 R372). -/
def Blk.Sealed (b : Blk) (d : Desc) : Prop :=
  let q := (b.pair d.ring).cmd
  entryCheck d.seq 1 (q.base + 64 * (d.seq % 2 ^ (6 + q.log2sz))) ((List.range 15).map (lineWord d.line)) = lineWord d.line 15

/-- Manager ring `k` is about to execute the descriptor `d` of this OP, which is sealed and has no reserved bit set (10
R374). -/
structure Blk.Takes (b : Blk) (m : List Host.Cell) (k op : Nat) (d : Desc) : Prop extends b.Fetches (.mgr k) where
  at' : b.descAt m (.mgr k) = d
  sound : b.Sealed d
  code : d.op = op
  formed : ∃ fs, d.fields = some fs ∧ d.reservedZero fs = true

/-- What a completion record of ring `r` leaves: WSEQ advanced, and its line issued with the record of Table 10-6 in its
half. -/
def Blk.Records (b0 b : Blk) (r : RingId) (dseq op tag st detail : Nat) (res : List Word) : Prop :=
  let q := (b0.pair r).cpl
  let at_ := q.base + 32 * (q.w % 2 ^ (6 + q.log2sz))
  let ws : List Word := [BitVec.ofNat 32 (q.w % 2 ^ 24 + st % 256 * 2 ^ 24), BitVec.ofNat 32 (dseq % 2 ^ 24 + op % 256 * 2 ^ 24),
    BitVec.ofNat 32 (tag % 65536 + detail % 65536 * 65536), res.getD 0 0, res.getD 1 0, res.getD 2 0, res.getD 3 0]
  (b.pair r).cpl = { q with w := (q.w + 1) % 2 ^ 24 } ∧
  ∃ w ∈ b.fp.out, w.kind = .completion r ∧ w.line = at_ / 64 ∧
    (∀ k < 7, lineWord w.data (8 * (at_ / 32 % 2) + k) = ws.getD k 0) ∧
    lineWord w.data (8 * (at_ / 32 % 2) + 7) = entryCheck q.w 2 at_ ws

/-- The descriptor `d` was fetched and answered with this status, DETAIL and RESULT. -/
def Blk.Answers (b0 b : Blk) (d : Desc) (st detail : Nat) (res : List Word) : Prop :=
  b0.Records b d.ring d.seq d.op d.tag st detail res ∧
  (b.pair d.ring).cmd = { (b0.pair d.ring).cmd with r := (d.seq + 1) % 2 ^ 24 } ∧ (b.pair d.ring).exec = []

/-- The descriptor rows of a ring, each with its OP (10 Table 10-4). -/
def descTable (r : RingId) : List (Nat × Instr) :=
  [(0x01, .mapSource r), (0x02, .unmapSource r), (0x03, .setRoute r), (0x04, .setClass r), (0x05, .setEnvelope r),
   (0x06, .loadClause r), (0x07, .attachClause r), (0x08, .reserveSlots r), (0x09, .setResidency r), (0x0A, .setTimer r),
   (0x0B, .setShare r), (0x10, .stageBegin r), (0x11, .commit r), (0x12, .abandon r), (0x13, .fence r),
   (0x20, .freezeDomain r), (0x21, .snapshotDomain r), (0x22, .restoreDomain r), (0x23, .thawDomain r), (0x24, .resetDomain r),
   (0x30, .sendCoreMsg r), (0x31, .queryState r), (0x38, .cacheFlush r), (0x39, .cacheInvalidate r)]

/-! ## Writes of registers -/

/-- FP4 serves an access: the Hub is in RUN, the next transfer passes its data check, and no latch of a HI half stands. -/
structure Blk.Port4 (b : Blk) : Prop where
  awake : b.awake = true
  intact : setHas b.fp.badIn 4 = false
  noLatch : b.dbg.hiLatch = []

/-- FP4 serves an access of fabric source `id`, lock agent `a`, which holds the Setup Lock. -/
structure Blk.Holder (b : Blk) (id : BitVec 8) (a : Nat) : Prop extends b.Port4 where
  agent : a < 16 ∧ (tabGet {} b.lock.agents a).valid = true ∧ (tabGet {} b.lock.agents a).srcid = id
  alone : ∀ j < 16, (tabGet {} b.lock.agents j).valid = true → (tabGet {} b.lock.agents j).srcid = id → j = a
  held : b.lock.held = true ∧ b.lock.owner = a

/-- FP4 serves an access of fabric source `id`, which does not hold the Setup Lock. -/
structure Blk.NotHolder (b : Blk) (id : BitVec 8) : Prop extends b.Port4 where
  other : b.lock.held = true → (tabGet {} b.lock.agents b.lock.owner).srcid ≠ id

/-- A write that needed the Setup Lock was discarded whole: it is counted and reported, and nothing else changed (00 R12). -/
def Blk.Refused (b0 b : Blk) : Prop :=
  b.lock = { b0.lock with refuseCnt := satInc b0.lock.refuseCnt } ∧
  (b.lane 24).reports = (b0.lane 24).reports ++ [0x71] ∧ { b with lock := b0.lock, ing := b0.ing } = b0

/-! ## The federation -/

/-- A message of a class reaches this Hub from peer `p` in sequence: the Hub takes part and is in RUN, nothing is injected
(12 R452, R454). -/
structure Blk.Hears (b : Blk) (p : Nat) (event : Bool) (seq : Nat) : Prop where
  peer : p < 4
  awake : b.awake = true
  takesPart : b.fed.en = true
  noInject : b.inj.arm = []
  intact : setHas b.fp.badIn (zPort event) = false
  inSequence : seq = (if event then (b.peer p).ev else (b.peer p).ct).rx

/-- A class after the message at its receive sequence was taken and acknowledged. -/
def ZClass.took (c : ZClass) : ZClass := { c with rx := (c.rx + 1) % 2 ^ 24, acks := c.acks ++ [c.rx] }

/-- A class after one message of its own was sent under the send sequence. -/
def ZClass.sent (c : ZClass) (m : ZMsg) : ZClass :=
  { c with tx := (c.tx + 1) % 2 ^ 24, unacked := c.unacked ++ [(c.tx, m)], wire := c.wire ++ [(c.tx, m)] }

/-- The entry of a mapped source settled at `e`, offered in its bank's register if it is then due an offer (05 R176). -/
def Blk.SettlesAt (b0 b : Blk) (i : Nat) (t : Stt) (e : Entry) : Prop :=
  if e.pend = true ∧ e.act = false ∧ e.dlv = false then
    b.entry t = { e with dlv := true } ∧
    b.rank.offers = tabPut b0.rank.offers (t.slot % 16) (offerOf i t { e with dlv := true })
  else b.entry t = e ∧ b.rank.offers = b0.rank.offers

/-- Nothing else concerns the proxy `k` toward peer `p`: no notice of it waits on the spill path, and it was not found
uncorrectable. -/
def Blk.Alone (b : Blk) (p k : Nat) : Prop :=
  (∀ u ∈ b.rings.spillq ++ b.rings.spillw, u.names (16 + p) k = false) ∧ b.lostHandle (16 + p) k = false

/-- What departing from peer `p` leaves: not joined, no proxy, no view, its copies at the tiles withdrawn (12 R473). -/
def Blk.Departed (b0 b : Blk) (p : Nat) : Prop :=
  (b.peer p).joined = false ∧ (b.peer p).joining = false ∧ (b.peer p).proxies = [] ∧ (b.peer p).view = [] ∧
  0x79 ∈ (b.lane 24).reports ∧ ((b0.peer p).joined = true → 0x78 ∈ (b.lane 24).reports) ∧
  ∀ n h k, n < 16 → k < 1024 → ((b0.link n).handle h).prox = some (p, k) →
    (((b0.link n).handle h).st = .queued → b0.noticeWaits n h = false → b0.lostHandle n h = false → ((b.link n).handle h).st = .free ∧ ∀ c ∈ (b.link n).outq, c.handle ≠ h) ∧
    (((b0.link n).handle h).st = .standing → ((b.link n).handle h).wd = true)

end Sys2Proof.Machine
end

