-- ==== Sys2Proof/Certificates/Slice0/Obligations.lean ====
section
/-! DEFINITION. The statements for the provers. -/
open Sys2Proof
open Sys2Proof.Machine

/-- For every command and state, a step with the command in front of the queue is the command's meaning with the
queue's rest. (00_scope.md) -/
def Obligations.StepRunsFront : Prop :=
∀ (c : Instr) (rest : List Instr) (s : State), step { s with pending := c :: rest } = exec c { s with pending := rest }

/-- From every state whose host memory lists rising addresses and no byte that an unlisted address reads as, a step
that answers a next state leaves host memory in that form. (02_boundary.md, R71, R72) -/
def Obligations.StepKeepsMemoryForm : Prop :=
∀ s t : State, s.Inv → step s = .next t → t.Inv

/-- Reset has host memory empty and in canonical form, an empty queue, no source mapped, no run, no handle, a cold
start in S2 with the IRQPLL enabled and unlocked at OP2, the Setup Lock free and the debug level NONE; the registers
read the Reset column of their tables. A step with an empty queue answers a next state with the queue empty and host
memory as it was: the model lets one HCLK pass (log entry 2). Host memory that reads 0 where nothing was written is
the model's choice. (16_reset_start.md, 17_hub_registers.md, R42, R554, R575, R582, R600, R609) -/
def Obligations.ResetAndIdleSteps : Prop :=
State.reset.Inv ∧ State.reset.mem = [] ∧ State.reset.pending = [] ∧
(let b := State.reset.blk
 b.aon.start = some (.cold, .s2) ∧ b.up = false ∧ b.clk.pllOn = true ∧ b.clk.lock = false ∧ b.clk.curOp = 2 ∧ b.sram = {} ∧
 b.cls = [] ∧ b.links = [] ∧ b.tas = [] ∧ b.rings.session = none ∧ b.lock = {} ∧ b.dbg.level = .none ∧ b.inj.arm = [] ∧
 b.pwr.seq.clamp = true ∧
 (∀ x ∈ ([(0x00000, 0x0201), (0x00004, 0x1C5E), (0x10010, 0), (0x10018, 0), (0x10030, 0), (0x10100, 0), (0x20000, 0), (0x20004, 0),
    (0x20008, 0), (0x30000, 0x00640000), (0x30004, 0), (0x30008, 0), (0x3000C, 0), (0x30010, 0), (0x30014, 0x64), (0x30018, 0),
    (0x30020, 0), (0x40000, 0x00020202), (0x40004, 0x20), (0x50000, 0xFFFF0000), (0x60000, 0), (0x70004, 0), (0x70008, 0),
    (0x70014, 0x110), (0x70020, 0), (0x80000, 0), (0x80004, 0), (0x80008, 0), (0x90004, 0), (0x90010, 0), (0x90020, 0),
    (0x90030, 0), (0x90100, 0), (0xA0000, 0), (0xA0004, 0x02000000), (0xB0000, 0), (0xB0004, 0), (0xB0040, 0), (0xC0100, 0),
    (0xC0110, 0), (0xD0100, 1), (0xD0104, 0), (0xD010C, 0), (0xE0000, 0), (0xE0004, 2), (0xF0100, 0), (0xF0110, 0),
    (0xF0114, 0)] : List (Nat × Word)), b.readReg x.1 = x.2)) ∧
∀ s : State, s.pending = [] → ∃ t, step s = .next t ∧ t.pending = [] ∧ t.mem = s.mem

/-- A well-formed record that begins between records at an MIP with a credit, its lane empty, whose requester entry,
vector and STT entry translate it, leaves the lane with its credit returned. A resident source's event, with the
arrival time, its payload and the excess decision, enters the free holding register of the source's bank; a spilled
source's joins the spill-path queue while it has room. With an envelope the arrival conforms when TAT - t is at most
(B - 1) * P, and TAT becomes max(TAT, t) + P; otherwise TAT stays, the excess is counted, and for a CRITICAL or FIRM
source internal source 0x80 is raised. No error is counted. (04_ingress_residency.md, 02_boundary.md, R130, R132,
R134, R135, R145, R147, R149, R158) -/
def Obligations.AcceptedRecordBecomesEvent : Prop :=
∀ (s : State) (mip : Nat) (msg : MsgRec) (st : Stt),
  let b0 := s.blk
  let d := decodeMsg msg
  let rq := tabGet {} b0.sram.req d.reqid
  let n := if rq.pmode then d.pasid else 0
  let v := if d.data then d.channel else d.vector
  let count := if d.data then rq.ccount else rq.mcount
  let i := (if d.data then rq.cbase else rq.mbase) + n * count + v
  let lane := b0.lane (mip / 8)
  mip < 96 → tabGet 0 b0.ing.credit mip ≠ 0 → b0.awake = true → setHas b0.pwr.seq.stopped (mip / 8) = false →
  b0.inj.arm = [] → tabGet .between b0.ing.frame mip = .between → b0.ing.voids = [] → lane.stall = none → lane.rx = [] →
  malformed msg false false = none → setHas b0.ecc.reqBad d.reqid = false →
  rq.valid = true → (rq.pmode = true → d.pv = true ∧ d.pasid < rq.pcount) → v < count → i ≤ 524287 →
  tabGet {} b0.sram.stt i = st → setHas b0.ecc.sttBad i = false → setHas b0.ecc.envBad st.env.env = false → st.valid = true → st.kind = (if d.data then .data else .msi) →
  (d.data = false → d.addr.toNat / 4096 = b0.hctl.msiHi.toNat * 2 ^ 20 + b0.hctl.msiLo.toNat / 4096) →
  let e := tabGet {} b0.sram.env st.env.env
  let t := b0.now
  let conforms := st.env.envv = false ∨ (e.tat - t).toInt ≤ (((e.b - 1) * e.p : Nat) : Int)
  let pl : Payload := if d.data then { ns := d.ns, seq := d.seq, chan := BitVec.ofNat 24 d.channel, samples := d.samples }
    else { chan := BitVec.ofNat 24 d.vector }
  let ev (exc : Bool) : Event :=
    { stt := i, mapgen := st.mapgen, gen := (b0.dom st.domid).gen, time := t, exc := exc, pl := pl }
  let env (b : Blk) (exc : Bool) : Prop := tabGet {} b.sram.env st.env.env =
    if st.env.envv then (if exc then { e with excess := satInc e.excess }
      else { e with tat := (if 0 ≤ (e.tat - t).toInt then e.tat else t) + BitVec.ofNat 64 e.p }) else e
  let after (b : Blk) (exc : Bool) : Prop := exec (.messageRecord mip msg) s = s.becomes b ∧ env b exc ∧ b.err = b0.err ∧
    tabGet 0 b.ing.credit mip = tabGet 0 b0.ing.credit mip ∧ (b.lane (mip / 8)).rx = [] ∧ (b.lane (mip / 8)).stall = none ∧
    (b.lane 24).reports = (b0.lane 24).reports ++ (if exc && 2#2 ≤ st.rank.cls then [0x80] else [])
  ∀ exc : Bool, (exc = false ↔ conforms) →
  (st.res = true → (∀ x ∈ lane.hold, x.1 ≠ st.slot % 16) → ∃ b, after b exc ∧
    (b.lane (mip / 8)).hold = tabPut lane.hold (st.slot % 16) (ev exc) ∧ b.rings.spillq = b0.rings.spillq) ∧
  (st.res = false → b0.rings.spillq.length < 64 → ∃ b, after b exc ∧ (b.lane (mip / 8)).hold = lane.hold ∧
    b.rings.spillq = b0.rings.spillq ++ [{ stt := i, mapgen := st.mapgen, kind := .event (ev exc) }])

/-- A malformed record increments ERR.ING_MALF_CNT, is captured with its port, cause and requester unless a record is
held, and raises internal source 0x04. One that is broken off by MIPn_VLD low in a beat is such a record of cause 1,
after which the stage waits for MIPn_SOM. A well-formed record of an unknown requester, one whose PASID lies outside
the requester's blocks, one whose vector lies beyond the count, one whose STT entry is not valid, one of another kind
than its STT entry's and an MSI outside the window do the same in ERR.ING_UNMAP_CNT and ERR.ING_UNMAP_CAP with causes
1 to 6 and raise 0x05. The credit is returned, and no entry, holding register, envelope or spill-path place changes.
(02_boundary.md, 04_ingress_residency.md, R54, R139, Table 2-3, Table 4-4) -/
def Obligations.BadRecordIsDiscarded : Prop :=
∀ (s : State) (mip : Nat) (msg : MsgRec),
  let b0 := s.blk
  let d := decodeMsg msg
  let rq := tabGet {} b0.sram.req d.reqid
  let n := if rq.pmode then d.pasid else 0
  let v := if d.data then d.channel else d.vector
  let count := if d.data then rq.ccount else rq.mcount
  let i := (if d.data then rq.cbase else rq.mbase) + n * count + v
  let lane := b0.lane (mip / 8)
  mip < 96 → tabGet 0 b0.ing.credit mip ≠ 0 → b0.awake = true → setHas b0.pwr.seq.stopped (mip / 8) = false →
  b0.inj.arm = [] → tabGet .between b0.ing.frame mip = .between → lane.stall = none → lane.rx = [] →
  setHas b0.ecc.reqBad d.reqid = false →
  let cap (c : IngCap) (cause : Nat) : IngCap :=
    if c.valid then c else { mip := mip, cause := cause, reqid := d.reqid, valid := true }
  let keeps (b : Blk) : Prop := exec (.messageRecord mip msg) s = s.becomes b ∧ b.sram = b0.sram ∧ b.rings = b0.rings ∧
    (b.lane (mip / 8)).hold = lane.hold ∧ (b.lane (mip / 8)).rx = [] ∧
    tabGet 0 b.ing.credit mip = tabGet 0 b0.ing.credit mip
  let unmapped (cause : Nat) : Prop := ∃ b, keeps b ∧ (b.lane 24).reports = (b0.lane 24).reports ++ [0x05] ∧
    b.err = { b0.err with unmapCnt := satInc b0.err.unmapCnt, unmapCap := cap b0.err.unmapCap cause }
  let idx := rq.valid = true ∧ (rq.pmode = true → d.pv = true ∧ d.pasid < rq.pcount)
  let bad (c : Nat) (f : RxFrame) : Prop := ∃ b, keeps b ∧ (b.lane 24).reports = (b0.lane 24).reports ++ [0x04] ∧
    b.err = { b0.err with malfCnt := satInc b0.err.malfCnt, malfCap := cap b0.err.malfCap c } ∧
    tabGet .between b.ing.frame mip = f
  (∀ c, msgFramed msg = true → malformed msg false false = some c → bad c .between) ∧
  (∀ j, 1 ≤ j → j < 8 → msg.beats.length = 8 → msg.som = 1 → msg.vld = 255 - 1#8 <<< j → bad 1 .hunting) ∧
  (malformed msg false false = none →
    (rq.valid = false → unmapped 1) ∧
    (rq.valid = true → rq.pmode = true → d.pv = false ∨ rq.pcount ≤ d.pasid → unmapped 2) ∧
    (idx → count ≤ v → unmapped 3) ∧
    (idx → v < count → i ≤ 524287 → (tabGet {} b0.sram.stt i).valid = false → unmapped 4) ∧
    (idx → v < count → i ≤ 524287 → (b0.stt i).valid = true → (b0.stt i).kind ≠ (if d.data then .data else .msi) → unmapped 5) ∧
    (idx → v < count → i ≤ 524287 → (b0.stt i).valid = true → d.data = false → (b0.stt i).kind = .msi →
      d.addr.toNat / 4096 ≠ b0.hctl.msiHi.toNat * 2 ^ 20 + b0.hctl.msiLo.toNat / 4096 → unmapped 6))

/-- In RUN, a new level on a line whose synchroniser and filter are settled is accepted at the fifth sampling edge and
not before, and fills the line's latch: LEVEL is the new level, a change to the active level sets EDGE, the time is
captured only when the latch was empty, and a second activation of an edge-mode line taken into a full latch with EDGE
set is counted. The turn of a wired lane takes the first full latch in round-robin order and empties it; an edge-mode
line with EDGE and no envelope makes an arrival event in the free holding register of its bank, a level-mode line an
event of its level, an edge-mode line without EDGE none, and a line without a valid STT entry none. A report of a
mapped internal source makes an arrival event in the internal lane. (04_ingress_residency.md, 02_boundary.md, R61,
R62, R64, R140, R141, R142, R143) -/
def Obligations.WiredAndInternalEvents : Prop :=
∀ (s : State), s.blk.awake = true → s.blk.inj.arm = [] →
  let b0 := s.blk
  (∀ wlp line level, wlp < 24 → line < 64 →
    let i := 64 * wlp + line
    let st := b0.stt i
    let l := tabGet {} b0.ing.latch i
    level ≠ setHas b0.ing.level i → tabGet 0 b0.ing.sync i = (if setHas b0.ing.level i then BitVec.allOnes 5 else 0) →
    setHas b0.pwr.seq.stopped (i / 128) = false →
    (∀ n < 5, ∃ b, exec (.wiredLineChange wlp line level n) s = s.becomes b ∧ b.ing.level = b0.ing.level ∧ b.ing.latch = b0.ing.latch) ∧
    ∀ n, 5 ≤ n → st.valid = true → ∃ b, exec (.wiredLineChange wlp line level n) s = s.becomes b ∧ setHas b.ing.level i = level ∧
      tabGet {} b.ing.latch i = { full := true, level := level, edge := l.edge || level == st.pol,
                                  time := if l.full then l.time else b0.now } ∧
      tabGet 0 b.err.wlCoal (i / 128) =
        if l.full && l.edge && level == st.pol && st.kind == .edge then satInc (tabGet 0 b0.err.wlCoal (i / 128))
        else tabGet 0 b0.err.wlCoal (i / 128)) ∧
  (∀ g k rest, g < 12 → setHas b0.pwr.seq.stopped g = false → (b0.lane (12 + g)).stall = none → b0.latchOrder g = k :: rest →
    let i := 128 * g + k
    let st := b0.stt i
    let l := tabGet {} b0.ing.latch i
    let lane := b0.lane (12 + g)
    let ev (kind : EventKind) : Event :=
      { stt := i, mapgen := st.mapgen, gen := (b0.dom st.domid).gen, kind := kind, time := l.time }
    let takes (hold : Tab Event) : Prop := ∃ b, exec (.wiredLaneTurn g) s = s.becomes b ∧ b.ing.latch = tabDel b0.ing.latch i ∧
      (b.lane (12 + g)).last = k ∧ (b.lane (12 + g)).hold = hold
    (st.valid = false → takes lane.hold) ∧
    (st.valid = true → st.res = true → (∀ x ∈ lane.hold, x.1 ≠ st.slot % 16) →
    (st.kind = .level → takes (tabPut lane.hold (st.slot % 16) (ev (.level (l.level == st.pol))))) ∧
    (st.kind = .edge → st.env.envv = false → l.edge = true → takes (tabPut lane.hold (st.slot % 16) (ev .arrival))) ∧
    (st.kind = .edge → l.edge = false → takes lane.hold))) ∧
  (∀ k, k < 256 → setHas b0.pwr.seq.stopped 46 = false → (b0.lane 24).stall = none →
    let st := b0.stt (1536 + k)
    st.valid = true → st.res = true → (∀ x ∈ (b0.lane 24).hold, x.1 ≠ st.slot % 16) →
    ∃ b, exec (.internalReport k) s = s.becomes b ∧ (b.lane 24).reports = (b0.lane 24).reports.erase k ∧
      (b.lane 24).hold = tabPut (b0.lane 24).hold (st.slot % 16)
        { stt := 1536 + k, mapgen := st.mapgen, gen := (b0.dom st.domid).gen, time := b0.now })

/-- When one lane holds an event for the bank, of a resident source with current generation, and no link holds a
notice: without a program the arrival releases the contribution at once, with RCLASS the source's class, or STANDARD
when demoted, RPRIO its priority, PEND set, STAMP written when nothing was pending, RPT set while copies stand; an
inactive instance without copies is offered and DLV set. With a program in an enabled cluster that accepts, HELD rises
and a dispatch record enters the queue; with HELD = 15 nothing is written and the event waits. A rise of a level line
whose INTID is active sets LVL and PEND, a fall without copies out clears both. The served event leaves its holding
register. (03_intid_lifecycle.md, 04_ingress_residency.md, R96, R97, R99, R101, R102, R124, R146, R149, R270) -/
def Obligations.ArrivalUpdatesEntry : Prop :=
∀ (s : State) (bank q : Nat) (ev : Event) (st : Stt),
  let b0 := s.blk
  let e := b0.entry st
  s.blk.awake = true → bank < 16 → q < 25 → (b0.lane q).hold = [(bank, ev)] → (b0.lane q).stall = none → (b0.lane q).rx = [] →
  (∀ p < 25, p ≠ q → ∀ x ∈ (b0.lane p).hold, x.1 ≠ bank) →
  b0.AtSlot ev.stt st → st.slot % 16 = bank → ev.mapgen = st.mapgen → ev.gen = (b0.dom st.domid).gen → e.gen = ev.gen →
  let dem := ev.exc && 2#2 ≤ st.rank.cls
  let now := b0.now.extractLsb' 6 14
  let takes (e' : Entry) (offers : Tab Offer) (b : Blk) : Prop := exec (.arrivalStateUpdate bank) s = s.becomes b ∧
    b.entry st = e' ∧ b.rank.offers = offers ∧ (b.lane q).hold = []
  let released : Entry := { e with
    pend := true, stamp := if e.pend then e.stamp else now, rpt := e.rpt || (e.dlv && !e.act),
    rclass := if dem then 1 else st.rank.cls, rprio := st.rank.prio, dem := dem, rtv := false }
  let offered : Entry := { released with dlv := true }
  (ev.kind = .arrival → st.kind ≠ .level → st.clause.cv = false → e.dlv = false → e.act = false →
    ∃ b, takes offered (tabPut b0.rank.offers bank (offerOf ev.stt st offered)) b) ∧
  (ev.kind = .arrival → st.kind ≠ .level → st.clause.cv = false → e.dlv = false → e.act = true → ∃ b, takes released b0.rank.offers b) ∧
  (ev.kind = .arrival → st.clause.cv = true → (b0.cl st.clause.clus).regs.st = .enabled →
    (b0.cl st.clause.clus).regs.offline.length < 16 → e.held ≠ 15 → (e.pend = false ∨ e.act = true ∨ e.dlv = true) →
    setHas b0.ecc.attBad (1024 * st.clause.clus + st.clause.aidx) = false →
    setHas b0.ecc.regBad (64 * st.clause.clus + (tabGet {} (b0.cl st.clause.clus).att st.clause.aidx).region) = false →
    (b0.cl st.clause.clus).queue.length < (if 2#2 ≤ st.rank.cls && !ev.exc then 64 else 48) →
    ∃ b d, takes { e with held := e.held + 1 } b0.rank.offers b ∧
      (b.cl st.clause.clus).queue = (b0.cl st.clause.clus).queue ++ [d] ∧ d.stt = ev.stt ∧ d.mapgen = st.mapgen ∧
      d.gen = ev.gen ∧ d.cause = .arrival ∧ d.exc = ev.exc ∧ d.pl = ev.pl ∧ d.time = ev.time.setWidth 48 ∧ d.rank = st.rank ∧
      d.dcls = (if dem then 1 else st.rank.cls) ∧ d.att = tabGet {} (b0.cl st.clause.clus).att st.clause.aidx) ∧
  (ev.kind = .arrival → st.clause.cv = true → (b0.cl st.clause.clus).regs.st = .enabled → e.held = 15 →
    exec (.arrivalStateUpdate bank) s = s.becomes b0) ∧
  (ev.kind = .level true → e.act = true →
    ∃ b, takes { e with
      lvl := true, pend := true, stamp := if e.pend then e.stamp else now, rclass := st.rank.cls, rprio := st.rank.prio,
      dem := false, rtv := false } b0.rank.offers b) ∧
  (ev.kind = .level false → e.dlv = false → ∃ b, takes { e with lvl := false, pend := false } b0.rank.offers b)

/-- An arrival at the head of the spill-path queue for a mapped spilled source without a program, its line valid in
the enabled Line Cache, releases the contribution in the entry of that line, which becomes dirty, and leaves the
queue; when the line is neither valid nor being fetched, its fill is requested and the update keeps its place. With no
update waiting, a free place takes the lowest set bit of the spill arrival bitmap as one arrival without payload,
stamped now, and clears the bit. (04_ingress_residency.md, R155, R156, R158, R159, R613) -/
def Obligations.SpillPathServesHead : Prop :=
∀ (s : State), s.blk.awake = true → setHas s.blk.pwr.seq.stopped 28 = false → s.blk.inj.arm = [] →
  let b0 := s.blk
  (∀ (ev : Event) (rest : List Upd) (st : Stt) (l : CLine),
    b0.rings.spillq = { stt := ev.stt, mapgen := ev.mapgen, kind := .event ev } :: rest → b0.rings.spillw = [] →
    tabGet {} b0.sram.stt ev.stt = st → setHas b0.ecc.sttBad ev.stt = false → setHas b0.ecc.spillBad ev.stt = false →
    st.valid = true → st.mapgen = ev.mapgen →
    st.res = false → st.clause.cv = false → st.kind ≠ .level → ev.kind = .arrival → ev.gen = (b0.dom st.domid).gen → ev.exc = false →
    (b0.dom st.domid).still = false → b0.preparedSlot ev.stt = none → (∀ x ∈ b0.rank.offers, x.1 ≠ 16) →
    let line := (b0.hctl.sstHi.toNat * 2 ^ 32 + b0.hctl.sstLo.toNat / 4096 * 4096 + 8 * ev.stt) / 64
    b0.lc.st = .enabled → b0.lc.bufs = [] →
    let e := decodeEntry (lineDword l.data (ev.stt % 8))
    (b0.lc.lines = [l] → l.line = line → e.dlv = false → e.act = true → e.gen = ev.gen →
      ∃ b l', exec .spillPathUpdate s = s.becomes b ∧ b.rings.spillq = rest ∧ b.lc.lines = [l'] ∧ l'.line = line ∧
        l'.dirty = true ∧ lineDword l'.data (ev.stt % 8) = encodeEntry { e with
          pend := true, stamp := if e.pend then e.stamp else b0.now.extractLsb' 6 14, rclass := st.rank.cls,
          rprio := st.rank.prio, dem := false, rtv := false, gen := ev.gen } ∧
        ∀ j < 8, j ≠ ev.stt % 8 → lineDword l'.data j = lineDword l.data j) ∧
    (b0.lc.lines = [] → (∀ w ∈ b0.fp.out, w.line ≠ line) → setHas b0.lc.fills line = false →
      ∃ b, exec .spillPathUpdate s = s.becomes b ∧ b.rings.spillq = b0.rings.spillq ∧ b.lc.fills = setAdd b0.lc.fills line)) ∧
  (∀ i rest, b0.rings.spillw = [] → b0.rings.spillBits = i :: rest → b0.rings.spillq.length < 64 →
    ∃ b, exec .spillBitmapTake s = s.becomes b ∧ b.rings.spillBits = rest ∧ b.rings.spillq = b0.rings.spillq ++
      [{ stt := i, mapgen := (b0.stt i).mapgen, kind := .lostArrival b0.now (b0.dom (b0.stt i).domid).gen }])

/-- The one offer standing is taken. With a stale GEN nothing else happens; without a route, or with an invalid one,
the instance is parked. With a fixed route of a guest domain, in this order: an instance ranked BULK whose channel has
a period, not offered by that channel, is held in it; a target running on a physical context whose link is UP gets a
copy, under the lowest free handle, with the key of R164 to R167, in the link's empty output queue; a target whose
link is not UP leaves it parked, and a CRITICAL one requests that link's wake; a target that does not run leaves it
posted, with internal source 0x88 raised. (05_ranking_routing.md, R164, R165, R166, R167, R184, R185, R187, R189,
R201, R218, R424) -/
def Obligations.OfferOutcomes : Prop :=
∀ (s : State) (reg : Nat) (o : Offer) (st : Stt), s.blk.Offers reg o st → st.kind ≠ .core → o.rtv = false →
  let b0 := s.blk
  let r := b0.liveRoute st.route.ridx
  let cls := (b0.rankKey o st).1
  let key := (b0.rankKey o st).2
  let fresh := o.gen = (b0.dom st.domid).gen
  let v := (b0.dom st.domid).sh.vbase + r.target
  let p := (tabGet {} b0.sram.vct v).pctx
  let runs := r.target < (b0.dom st.domid).sh.cmcount ∧ (tabGet {} b0.sram.vct v).run = true ∧
    (tabGet {} b0.sram.vct v).sw = false
  let l := tabGet {} b0.links (p / 64)
  let fixed := st.route.rv = true ∧ r.valid = true ∧ setHas b0.ecc.routeBad st.route.ridx = false ∧ r.kind = 0 ∧ st.domid ≠ 0 ∧
    setHas b0.ecc.vctBad v = false
  let held := cls = 0 ∧ (tabGet {} b0.rank.geysers r.gch).period ≠ 0 ∧ o.geyser = false
  let becomes (f : Blk → Blk) : Prop := ∃ q, exec .offerRanking s =
    s.becomes (f { b0 with ptrs := q, rank := { b0.rank with offers := [] } })
  let park (b : Blk) : Blk := { b with rank := { b.rank with parked := setAdd b.rank.parked o.stt } }
  (¬ fresh → becomes id) ∧
  (fresh → st.route.rv = false ∨ r.valid = false → becomes park) ∧
  (fresh → fixed → held → becomes (fun b =>
    { b with rank := { b.rank with geyserBits := tabPut b.rank.geyserBits o.stt (some r.gch) } })) ∧
  (fresh → fixed → ¬ held → runs → l.st = .up → l.outq = [] → ∀ h, (l.handle h).st = .free →
    (∀ j < h, (l.handle j).st ≠ .free) → h < 1024 →
    ∃ b, exec .offerRanking s = s.becomes b ∧ b.rank.parked = b0.rank.parked ∧
      (b.link (p / 64)).outq = [{ shared := false, ctx := p % 64, handle := h, intid := st.vintid, key := key, qkey := key }] ∧
      (b.link (p / 64)).handle h =
        { st := .queued, stt := o.stt, mapgen := o.mapgen, gen := o.gen, ctx := p % 64 }) ∧
  (fresh → fixed → ¬ held → runs → l.st ≠ .up → becomes (fun b =>
    park (if cls = 3 then b.modLink (p / 64) (fun x => { x with waking := true }) else b))) ∧
  (fresh → fixed → ¬ held → ¬ runs → ∃ b, exec .offerRanking s = s.becomes b ∧
    b.rank.posted = setAdd b0.rank.posted o.stt ∧ b.rank.parked = b0.rank.parked ∧
    ∃ more, (b.lane 24).reports = (b0.lane 24).reports ++ 0x88 :: more)

/-- For a source of domain 0 whose route is a round-robin group with members all on links that are UP and owned by no
guest, the copy goes to the first member after the group's rotation pointer in ascending order, wrapping, and the
pointer becomes that member; nothing is parked or posted. (05_ranking_routing.md, R183, R184, R186, Table 5-4) -/
def Obligations.RoundRobinTurnsPointer : Prop :=
∀ (s : State) (reg : Nat) (o : Offer) (st : Stt) (v : Nat), s.blk.Offers reg o st → st.kind ≠ .core → o.rtv = false →
  let b0 := s.blk
  let r := b0.liveRoute st.route.ridx
  let ms := (tabGet {} (if b0.rank.epoch then b0.rank.copy1 else b0.rank.copy0).groups r.group).members
  let ptr := tabGet 0 b0.rank.rot r.group
  o.gen = (b0.dom st.domid).gen → st.domid = 0 → st.route.rv = true → r.valid = true →
  setHas b0.ecc.routeBad st.route.ridx = false → r.kind = 2 → setHas b0.ecc.groupBad r.group = false →
  b0.sram.vct = [] → (∀ m ∈ ms, (b0.link (m / 64)).st = .up) → ms.Pairwise (· < ·) → v ∈ ms →
  ((ptr < v ∧ ∀ m ∈ ms, ptr < m → v ≤ m) ∨ ((∀ m ∈ ms, m ≤ ptr) ∧ ∀ m ∈ ms, v ≤ m)) →
  ¬ ((b0.rankKey o st).1 = 0 ∧ (tabGet {} b0.rank.geysers r.gch).period ≠ 0 ∧ o.geyser = false) →
  (b0.link (v / 64)).outq.length < 64 →
  ∃ b, exec .offerRanking s = s.becomes b ∧ tabGet 0 b.rank.rot r.group = v ∧ b.rank.parked = b0.rank.parked ∧
    b.rank.posted = b0.rank.posted ∧ ∃ c ∈ (b.link (v / 64)).outq, c.ctx = v % 64 ∧ c.intid = st.vintid ∧
      ((b.link (v / 64)).handle c.handle).stt = o.stt

/-- The oldest re-offer request, made by a parked rescan for a resident source, leaves the list when input 5 of the
bank served a clause result last. For an instance that waits with DLV = 1, ACT = 0 and no copy, it places a fresh
offer in the bank's register and leaves the entry as it was; with ACT = 1 it clears DLV and offers nothing; with
another MAPGEN it is discarded. One step of the parked rescan at position p issues a re-offer request, in ascending
order, for every parked index from p to p + 63 and clears its bit, leaves every other index parked, and moves on by
64; after the last word it ends, or starts once more when a trigger fell during it. The posted rescan does the same
for the posted indexes. (05_ranking_routing.md, R176, R179, R189, R190, R427) -/
def Obligations.ReoffersAndRescans : Prop :=
∀ (s : State), s.blk.awake = true → setHas s.blk.pwr.seq.stopped 29 = false →
  let b0 := s.blk
  (∀ (u : Upd) (rest : List Upd) (st : Stt) (g : BitVec 8), b0.rank.reoffers = u :: rest → u.kind = .reoffer .parked g →
    b0.AtSlot u.stt st → b0.hasCopies u.stt st.mapgen = false → setHas b0.arb.turn5 (st.slot % 16) = false →
    let e := b0.entry st
    let result (e' : Entry) (offers : Tab Offer) : Prop := ∃ b, exec .reOfferRequest s = s.becomes b ∧ b.rank.reoffers = rest ∧
      b.entry st = e' ∧ b.rank.offers = offers
    (u.mapgen = st.mapgen → e.dlv = true → e.act = false → e.pend = true →
      result e (tabPut b0.rank.offers (st.slot % 16) (offerOf u.stt st e))) ∧
    (u.mapgen = st.mapgen → e.dlv = true → e.act = true →
      result { e with dlv := false, shr := false } b0.rank.offers) ∧
    (u.mapgen ≠ st.mapgen → result e b0.rank.offers)) ∧
  (∀ p : Nat,
    let word (l : NSet) : NSet := l.filter (fun i => p ≤ i && i < p + 64)
    let reqs (f : ReofferFrom) (l : NSet) : List Upd := (word l).map (fun i =>
      { stt := i, mapgen := (b0.stt i).mapgen, kind := .reoffer f (b0.dom (b0.stt i).domid).gen })
    let next (again : Bool) : Option Nat := if p + 64 < 524288 then some (p + 64) else if again then some 0 else none
    (b0.rank.rescan = some p → ∃ b, exec .parkedRescan s = s.becomes b ∧
      b.rank.reoffers = b0.rank.reoffers ++ reqs .parked b0.rank.parked ∧ b.rank.rescan = next b0.rank.rescanAgain ∧
      (∀ i, i ∈ b.rank.parked ↔ i ∈ b0.rank.parked ∧ ¬ (p ≤ i ∧ i < p + 64))) ∧
    (b0.rank.postScan = some p → ∃ b, exec .postedRescan s = s.becomes b ∧
      b.rank.reoffers = b0.rank.reoffers ++ reqs .posted b0.rank.posted ∧ b.rank.postScan = next b0.rank.postAgain ∧
      (∀ i, i ∈ b.rank.posted ↔ i ∈ b0.rank.posted ∧ ¬ (p ≤ i ∧ i < p + 64))))

/-- While resynchronisation runs, nothing is copied while a candidate holds the epoch before the flip; else a step
copies the first Route Table entry written before the last flip, or when none is left the first group, from the live
copy into the shadow copy, leaves the live copy and every other entry, and ends the resynchronisation with the last
one. (05_ranking_routing.md, R195) -/
def Obligations.ResyncCopiesLiveToShadow : Prop :=
∀ (s : State), s.blk.awake = true → s.blk.rank.resync = true →
  let live (b : Blk) : RtCopy := if b.rank.epoch then b.rank.copy1 else b.rank.copy0
  let shadow (b : Blk) : RtCopy := if b.rank.epoch then b.rank.copy0 else b.rank.copy1
  let b0 := s.blk
  (b0.oldCnt ≠ 0 → exec .routeResync s = s.becomes b0) ∧ (b0.oldCnt = 0 →
  (∀ i rest, b0.rank.dirtyR = i :: rest → ∃ b, exec .routeResync s = s.becomes b ∧ live b = live b0 ∧
    b.rank.epoch = b0.rank.epoch ∧ b.rank.dirtyR = rest ∧ b.rank.resync = !(rest.isEmpty && b0.rank.dirtyG.isEmpty) ∧
    (∀ j, tabGet {} (shadow b).routes j = if j = i then tabGet {} (live b0).routes i else tabGet {} (shadow b0).routes j) ∧
    (shadow b).groups = (shadow b0).groups) ∧
  (∀ g rest, b0.rank.dirtyR = [] → b0.rank.dirtyG = g :: rest → ∃ b, exec .routeResync s = s.becomes b ∧ live b = live b0 ∧
    b.rank.epoch = b0.rank.epoch ∧ b.rank.dirtyG = rest ∧ b.rank.resync = !rest.isEmpty ∧
    (∀ j, tabGet {} (shadow b).groups j = if j = g then tabGet {} (live b0).groups g else tabGet {} (shadow b0).groups j) ∧
    (shadow b).routes = (shadow b0).routes))

/-- A channel with a period, no write to its registers pending, fires in RUN under a valid time base in the first HCLK
of a microsecond m with (m - PHASE) mod PERIOD = 0, and at no other time. It issues re-offer requests in ascending
order for the indexes it holds after its resume point, at most BURST_M1 + 1 of them, clears their bits, and makes the
last one taken the resume point; the indexes held by other channels stay. (05_ranking_routing.md, R202, R203, R209) -/
def Obligations.GeyserFiringTakesBurst : Prop :=
∀ (s : State) (c : Nat), s.blk.awake = true → s.blk.pwr.seq.seq = .none → c < 16 →
  let b0 := s.blk
  let g := tabGet {} b0.rank.geysers c
  g.cfgW = BitVec.ofNat 32 (g.period.toNat + 2 ^ 16 * g.burst.toNat) → g.phaseW = g.phase.setWidth 32 →
  g.phase.toNat < g.period.toNat → b0.time.valid = true →
  let p := g.period.toNat
  let due := (b0.time.tb.toNat / 1000 + p - g.phase.toNat) % p = 0 ∧ 6 * (b0.time.tb.toNat % 1000) + b0.time.sixths < b0.clk.period
  (¬ due → exec (.geyserFire c) s = s.becomes b0) ∧ (due → (b0.rank.geyserBits.map (·.1)).Pairwise (· < ·) →
  let held := (b0.rank.geyserBits.filter (fun x => x.2 == some c && (match g.resume with | none => true | some r => r < x.1))).map (·.1)
  let taken := held.take (g.burst.toNat + 1)
  ∃ b, exec (.geyserFire c) s = s.becomes b ∧
    b.rank.reoffers = b0.rank.reoffers ++ taken.map (fun i =>
      { stt := i, mapgen := (b0.stt i).mapgen, kind := .reoffer (.geyser c) (b0.dom (b0.stt i).domid).gen }) ∧
    (tabGet {} b.rank.geysers c).resume = taken.getLast? ∧
    (∀ x, x ∈ b.rank.geyserBits ↔ x ∈ b0.rank.geyserBits ∧ x.1 ∉ taken))

/-- A slot is filled once, in the HCLK before its beat 0, judged by the slot table that is live at that beat. It
carries the first that exists: the NAK that is due, with RX_EXP, without advancing TX_SEQ; the next flit of a replay,
as it was sent; in a reserved slot the highest-ranked candidate if it is CRITICAL; up to three control records in
order; the highest-ranked candidate; else an IDLE flit with TX_SEQ, which it does not advance. A candidate's flit has
the fields of Table 6-1 and takes TX_SEQ, which advances; the candidate leaves the queue and its handle is STANDING. A
sent WON or LOST changes the state of its handle. (06_tile_links.md, R210, R213, R217, R222, R223, R225, R229, R233)
-/
def Obligations.SlotCarriesFirstOfWhatExists : Prop :=
∀ (s : State) (n : Nat), s.blk.LinkRuns n →
  let b0 := s.blk
  let l := b0.link n
  let reserved := (b0.slotTable n).getLsbD ((b0.time.hclk / 4 + 1) % 64) = true
  let fills (f : Flit) (seq : BitVec 8) (b : Blk) : Prop := exec (.slotFill n) s = s.becomes b ∧
    (b.link n).e.wire = l.e.wire ++ [f] ∧ (b.link n).e.txSeq = seq ∧ b.tas = b0.tas ∧ b.sram = b0.sram
  (b0.time.hclk % 4 ≠ 3 ∨ setHas b0.time.filled n = true → exec (.slotFill n) s = s.becomes b0) ∧
  (b0.time.hclk % 4 = 3 → setHas b0.time.filled n = false →
  (l.e.nakDue = true →
    ∃ b, fills (mkFlit l.e.txSeq (rec24 6 l.e.rxExp.toNat) 0 0) l.e.txSeq b ∧ (b.link n).e.nakDue = false) ∧
  (l.e.nakDue = false → ∀ x more, l.e.resend = x :: more → ∃ b, fills x.flit l.e.txSeq b ∧ (b.link n).e.resend = more) ∧
  (l.e.nakDue = false → l.e.resend = [] → l.st = .up →
    (∀ c more, l.outq = c :: more → (l.handle c.handle).prox = none →
      (reserved ∧ keyClass c.qkey = 3) ∨ (l.ctl = [] ∧ ¬ (reserved ∧ ∃ d ∈ l.outq, keyClass d.qkey = 3)) →
      let f := mkFlit l.e.txSeq (rec24 (if c.shared then 2 else 1) (c.ctx * 2 ^ 14 + c.handle)) c.intid c.key
      ∃ b, fills f (l.e.txSeq + 1) b ∧ (b.link n).outq = more ∧ (b.link n).ctl = l.ctl ∧
        (b.link n).e.replay.getLast? = some (Sent.mk l.e.txSeq f b0.time.count) ∧
        (b.link n).handle c.handle = { l.handle c.handle with st := .standing }) ∧
    (∀ r more, l.ctl = r :: more → ¬ (reserved ∧ ∃ c ∈ l.outq, keyClass c.qkey = 3) →
      ∃ b, fills (mkFlit l.e.txSeq r (more.getD 0 0) (more.getD 1 0)) (l.e.txSeq + 1) b ∧
        (b.link n).ctl = more.drop 2 ∧ (b.link n).outq = l.outq ∧
        (more = [] → recType r = 4 ∨ recType r = 5 → (b.link n).handle (recHandle r) = (l.handle (recHandle r)).settled)) ∧
    (l.ctl = [] → l.outq = [] → ∃ b, fills (mkFlit l.e.txSeq 0 0 0) l.e.txSeq b ∧ (b.link n).handles = l.handles)))

/-- An intact candidate flit in sequence inserts its copy in the Ready List behind the copies of higher or equal key;
of five copies the lowest-ranked leaves, and RELEASED is sent when it was the last of its handle on the tile; for an
unpopulated context UNPOP is sent too. A flit that fails its check is discarded: RX_EXP and the lists stay, the first
of a wait makes a NAK due, is counted and raises internal source 0x46 + n. One that passes with a reserved bit set is
counted as a protocol error and a link in UP enters RETRAIN. (06_tile_links.md, 05_ranking_routing.md, R170, R222,
R224, R227, R228, R235, R237, R524) -/
def Obligations.CandidateFlitAtTileAgent : Prop :=
∀ (s : State) (n : Nat) (rest : List Flit), s.blk.LinkRuns n → (s.blk.ta n).e.inbox = [] →
  let b0 := s.blk
  let a := b0.ta n
  let l := b0.link n
  (∀ (c : Nat) (k : Copy) (before after : List Copy), c < 64 → k.handle < 1024 →
    l.e.wire = mkFlit a.e.rxExp (rec24 (if k.shared then 2 else 1) (c * 2 ^ 14 + k.handle)) k.intid k.key :: rest →
    (a.ctx c).ready = before ++ after → (∀ x ∈ before, k.key ≤ x.key) → (∀ x ∈ after, x.key < k.key) →
    ∃ b, exec (.candidateFlit n 0) s = s.becomes b ∧ (b.link n).e.wire = rest ∧ (b.ta n).e.rxExp = a.e.rxExp + 1 ∧
      (b.ta n).ctx c = { a.ctx c with ready := (before ++ k :: after).take 4 } ∧
      (∀ d, d ≠ c → (b.ta n).ctx d = a.ctx d) ∧
      (b.ta n).upq = a.upq ++ (match (before ++ k :: after).drop 4 with
          | [] => []
          | d :: _ => if (b.ta n).hasCopy d.handle then [] else [recHC 3 d.handle 0]) ++
        (if b0.ctxPop (64 * n + c) then [] else [recHC 14 k.handle c])) ∧
  (∀ (f : Flit) (err : BitVec 96), l.e.wire = f :: rest → f.isCand = true →
    crc24 a.e.rxExp (f.b0 ^^^ err.extractLsb' 0 24) (f.b1 ^^^ err.extractLsb' 24 24) (f.b2 ^^^ err.extractLsb' 48 24) ≠
      f.crc ^^^ err.extractLsb' 72 24 →
    ∃ b, exec (.candidateFlit n err) s = s.becomes b ∧ (b.link n).e.wire = rest ∧ (b.ta n).e.rxExp = a.e.rxExp ∧
      (b.ta n).ctxs = a.ctxs ∧ (b.ta n).e.nakWait = true ∧ (b.ta n).e.nakDue = (a.e.nakDue || !a.e.nakWait) ∧
      (b.link n).err.crc = (if a.e.nakWait then l.err.crc else satInc l.err.crc) ∧
      (b.lane 24).reports = (b0.lane 24).reports ++ (if a.e.nakWait then [] else [0x46 + n])) ∧
  (∀ (r i k : Word24), l.e.wire = mkFlit a.e.rxExp r i k :: rest → recType r = 1 ∨ recType r = 2 →
    bits r.toNat 13 10 ≠ 0 → l.st = .up →
    ∃ b, exec (.candidateFlit n 0) s = s.becomes b ∧ (b.link n).st = .retrain ∧ (b.link n).err.proto = satInc l.err.proto ∧
      (b.link n).retrains = l.retrains + 1 ∧
      ((∀ x ∈ a.ctxs, x.2.held = none ∧ x.2.waiting = []) → ∀ c, (b.ta n).ctx c = a.ctx c))

/-- A NAK that names the current TX_SEQ, or the SEQ from which a replay began less than 128 HCLK ago, changes neither
the replay nor its count. One that names a SEQ held in the replay buffer, which keeps a flit for 256 HCLK after its
beat 3, starts a replay from that flit and is counted. One that names no held SEQ puts a link in UP into RETRAIN. The
same holds at either end. A NAK takes no sequence number. While an end waits, the repeat makes its NAK due again, and
the timeout of the wait puts the link into RETRAIN, in which both ends have fresh sequence numbers, nothing buffered
or on the wire and no control record queued. An IDLE flit that passes its check ends the wait. (06_tile_links.md,
R225, R228, R229, R230, R251) -/
def Obligations.NakStartsReplay : Prop :=
∀ (s : State) (n : Nat) (rest : List Flit) (q : BitVec 8), s.blk.LinkRuns n →
  let b0 := s.blk
  let a := b0.ta n
  let l := b0.link n
  let retrained (b : Blk) : Prop := (b.link n).st = .retrain ∧ (b.link n).retrains = l.retrains + 1 ∧ (b.link n).e = {} ∧
    (b.ta n).e = {} ∧ (b.link n).ctl = [] ∧ (∀ h, (b.link n).handle h = (l.handle h).settled) ∧ (b.link n).outq = l.outq ∧
    ((∀ x ∈ a.ctxs, x.2.held = none ∧ x.2.waiting = []) → (b.ta n).upq = [])
  let answers (atTile : Bool) (x : LinkEnd) (y : Blk → LinkEnd) : Prop :=
    (q = x.txSeq ∨ (∃ c, x.lastReplay = some (q, c) ∧ b0.time.since c < 128) → ∃ b, exec (.nak n atTile 0) s = s.becomes b ∧ (y b).resend = x.resend ∧
      (b.link n).err = l.err ∧ (b.link n).st = l.st) ∧
    (∀ before z after, q ≠ x.txSeq → (∀ c, x.lastReplay = some (q, c) → 128 ≤ b0.time.since c) →
      x.replay = before ++ z :: after → z.seq = q → (∀ w ∈ before, w.seq ≠ q) →
      (∀ w ∈ z :: after, b0.time.since w.time ≤ 260) → ∃ b, exec (.nak n atTile 0) s = s.becomes b ∧ (y b).resend = z :: after ∧
        (b.link n).err = { l.err with replay := satInc l.err.replay } ∧ (b.link n).st = l.st) ∧
    (q ≠ x.txSeq → (∀ c, x.lastReplay = some (q, c) → 128 ≤ b0.time.since c) →
      (∀ z ∈ x.replay, z.seq = q → 260 < b0.time.since z.time) → l.st = .up →
      ∃ b, exec (.nak n atTile 0) s = s.becomes b ∧ retrained b)
  (b0.ToHub n (rec24 6 q.toNat) rest → answers false l.e (fun b => (b.link n).e)) ∧
  (b0.ToTile n (rec24 6 q.toNat) rest → answers true a.e (fun b => (b.ta n).e)) ∧
  (l.e.Busy → a.e.nakWait = true → ∃ b, exec (.nakRepeat n true) s = s.becomes b ∧ (b.ta n).e = { a.e with nakDue := true }) ∧
  (l.e.wire = [mkFlit a.e.rxExp 0 0 0] → ∃ b, exec (.nakRepeat n true) s = s.becomes b ∧ (b.ta n).e = { a.e with nakWait := false }) ∧
  (a.e.Busy → l.e.nakWait = true → ∃ b, exec (.nakRepeat n false) s = s.becomes b ∧ (b.link n).e = { l.e with nakDue := true }) ∧
  (l.e.Busy → a.e.nakWait = true → l.st = .up → ∃ b, exec (.replayWaitTimeout n true) s = s.becomes b ∧ retrained b) ∧
  (a.e.Busy → l.e.nakWait = true → l.st = .up → ∃ b, exec (.replayWaitTimeout n false) s = s.becomes b ∧ retrained b)

/-- A notice of an exclusive handle takes effect at the entry, when no other notice waits. RELEASED of a STANDING
handle frees it and clears DLV, RPT stays, and an instance still pending and inactive is offered again. CLAIMED makes
the handle ACTIVE at its context, sets ACT, clears DLV, SHR and RPT, and leaves PEND as RPT was, for a level line as
LVL, with STAMP now when PEND stays 1. COMPLETE of an ACTIVE handle frees it and clears ACT; PEND of a level line
becomes LVL, and an instance then pending is offered. (03_intid_lifecycle.md, 06_tile_links.md, R95, R102, R104, R233,
R612, Table 3-6, Table 6-3) -/
def Obligations.ExclusiveNotices : Prop :=
∀ (s : State) (n h c : Nat) (t : Stt) (rest : List Flit), h < 1024 → c < 64 → (s.blk.link n).st = .up →
  let b0 := s.blk
  let l := b0.link n
  let e := b0.entry t
  let i := (l.handle h).stt
  let level := t.kind = .level
  let leaves (c : Instr) (h' : Handle) (e' : Entry) : Prop := ∃ b, exec c s = s.becomes b ∧ (b.link n).handle h = h' ∧
    (∀ k, k ≠ h → (b.link n).handle k = l.handle k) ∧
    b0.SettlesAt b i t e'
  (b0.ToHub n (recHC 3 h 0) rest → b0.Names n h .standing t →
    leaves (.released n 0) {} { e with dlv := false, shr := false }) ∧
  (b0.ToHub n (recHC 4 h c) rest → b0.Names n h .standing t → ∀ p : Bool, (p = if level then e.lvl else e.rpt) →
    leaves (.claimed n 0) { l.handle h with st := .active, ctx := c, wd := false }
      { e with act := true, dlv := false, shr := false, rpt := false, pend := p,
               stamp := if p then b0.now.extractLsb' 6 14 else e.stamp }) ∧
  (b0.ToHub n (recHC 7 h c) rest → b0.Names n h .active t →
    leaves (.completeNotice n 0) {} { e with act := false, pend := if level then e.lvl else e.pend })

/-- The claim request of a STANDING shared handle whose instance is pending, delivered, unclaimed and tracked wins:
the entry is active, WON queued, by whose sending the handle becomes ACTIVE at the context, the tracking entry
remembers the winner, and a standing copy on another link is asked back with WDRAW. Of an instance already active, or
won, it loses: LOST is queued, by whose sending the handle is freed. WON completes the held read with the INTID,
pushes the copy, and sends no CLAIMED; LOST removes every copy of the handle and answers the held read with 0xFFFFFF,
or with an exclusive copy that then meets the threshold; no RELEASED follows. (03_intid_lifecycle.md,
05_ranking_routing.md, 06_tile_links.md, R120, R121, R193, R238, R240, R242, Table 6-2) -/
def Obligations.SharedClaimRequests : Prop :=
∀ (s : State) (n h c : Nat) (rest : List Flit), h < 1024 → c < 64 →
  let b0 := s.blk
  let a := b0.ta n
  let l := b0.link n
  let x := l.handle h
  (∀ (t : Stt) (j : Nat) (tr : Bcast), b0.ToHub n (recHC 5 h c) rest → l.st = .up → x.st = .standing → x.shr = true →
    b0.Single n h → b0.AtSlot x.stt t → x.mapgen = t.mapgen → x.gen = (b0.dom t.domid).gen → x.prox = none →
    b0.trackOf x.stt x.mapgen x.gen = some (j, tr) →
    let e := b0.entry t
    (e.pend = true → e.act = false → e.dlv = true → tr.won = false → t.kind ≠ .level →
      tabGet {} b0.rank.bcast j = tr → (∃ k ∈ tr.tiles, k ≠ n) →
      (∀ k < 16, k ≠ n → ∀ z ∈ (b0.link k).copiesOf x.stt x.mapgen, z.2.st = .standing ∧ (b0.link k).handle z.1 = z.2) →
      ∃ b, exec (.claimReq n 0) s = s.becomes b ∧ (b.link n).handle h = { x with ctx := c, ans := some true } ∧
        b.entry t = { e with act := true, dlv := false, shr := false, rpt := false, pend := e.rpt,
                             stamp := if e.rpt then b0.now.extractLsb' 6 14 else e.stamp } ∧
        (b.link n).ctl = l.ctl ++ [recHC 4 h c] ∧ (tabGet {} b.rank.bcast j).won = true ∧
        ∀ k h' y, k < 16 → k ≠ n → (b0.link k).copiesOf x.stt x.mapgen = [(h', y)] → y.wd = false →
          (b.link k).ctl = (b0.link k).ctl ++ [recHC 3 h' 0] ∧ ((b.link k).handle h').wd = true) ∧
    (e.act = true ∨ tr.won = true → (e.pend = true → e.act = false → e.dlv = true) → (∃ k ∈ tr.tiles, k ≠ n) →
      ∃ b, exec (.claimReq n 0) s = s.becomes b ∧ (b.link n).handle h = { x with ans := some false } ∧ (b.link n).ctl = l.ctl ++ [recHC 5 h 0] ∧
        b.entry t = e)) ∧
  (∀ k : Copy, (a.ctx c).held = some k → k.handle = h → a.heldOn h = [c] → a.Quiet →
    let y := a.ctx c
    (b0.ToTile n (recHC 4 h c) rest → ∃ b, exec (.won n 0) s = s.becomes b ∧
      (b.ta n).ctx c = { y with
        ready := without h y.ready, held := none, stack := k :: y.stack, resp := k.intid.setWidth 32 :: y.resp } ∧
      (∀ d, d ≠ c → (b.ta n).ctx d = { a.ctx d with ready := without h (a.ctx d).ready }) ∧
      ∀ r ∈ (b.ta n).upq, r ∈ a.upq ∨ r = rec24 12 (c * 2 ^ 14 + ((b.ta n).ctx c).threshold)) ∧
    (b0.ToTile n (recHC 5 h 0) rest →
      let z : Ctx := { y with ready := without h y.ready, held := none }
      ((∀ k', z.claimReady = some k' → k'.shared = true) → ∃ b, exec (.lost n 0) s = s.becomes b ∧
        (b.ta n).ctx c = { z with resp := 0x00FFFFFF :: y.resp } ∧ (b.ta n).upq = a.upq) ∧
      (∀ k', z.claimReady = some k' → k'.shared = false → ∃ b, exec (.lost n 0) s = s.becomes b ∧
        (b.ta n).ctx c = { z with
          ready := z.ready.erase k', stack := k' :: y.stack, resp := k'.intid.setWidth 32 :: y.resp } ∧
        recHC 4 k'.handle c ∈ (b.ta n).upq)))

/-- WDRAW removes every copy of its handle; when no read is held on it, RELEASED is sent if a copy was there. QUIESCE
empties the Ready Lists, sends one RELEASED for each handle and then QACK. RESYNC_REQ sends one report for each copy,
that of a held read too, and each active INTID, then RSYNC_END, and accesses are held until TRAINED. DROP discards the
reported copy or stack entry. PAUSE is answered with PAUSE_ACK once nothing else is queued upstream. No record changes
a floor, a fault count, another Tile Agent or an entry. (06_tile_links.md, R241, R251, R252, R254, Table 6-8) -/
def Obligations.RecordsAtTheTileAgent : Prop :=
∀ (s : State) (n h : Nat) (rest : List Flit), h < 1024 →
  let b0 := s.blk
  let a := b0.ta n
  let does (c : Instr) (r : Word24) (f : Nat → Ctx) (sent : List Word24) (hold : Bool) : Prop := b0.ToTile n r rest →
    ∃ b, exec c s = s.becomes b ∧ (b.link n).e.wire = rest ∧ (b.ta n).e.rxExp = a.e.rxExp + 1 ∧
      (∀ d, (b.ta n).ctx d = f d) ∧ (b.ta n).upq = a.upq ++ sent ∧ (b.ta n).hold = hold ∧
      (∀ k, k ≠ n → b.ta k = b0.ta k) ∧ b.sram = b0.sram
  let drops (d : Nat) : Ctx := { a.ctx d with ready := without h (a.ctx d).ready }
  (a.heldOn h = [] →
    does (.wdraw n 0) (recHC 3 h 0) drops (if a.hasCopy h then [recHC 3 h 0] else []) a.hold) ∧
  (∀ d k, (a.ctx d).held = some k → k.handle = h → does (.wdraw n 0) (recHC 3 h 0) drops [] a.hold) ∧
  ((∀ x ∈ a.ctxs, x.2.held = none) → does (.quiesce n 0) (rec24 9 0) (fun d => { a.ctx d with ready := [] })
    ((setOf (a.ctxs.flatMap (fun x => x.2.ready.map (·.handle)))).map (fun h => recHC 3 h 0) ++ [rec24 9 0]) a.hold) ∧
  (does (.resyncReq n 0) (rec24 10 0) a.ctx (a.ctxs.flatMap (fun x =>
      (x.2.ready ++ x.2.held.toList).map (fun k => rec24 10 (k.handle * 1024 + x.1 * 16)) ++
      x.2.stack.map (fun k => rec24 10 (k.handle * 1024 + x.1 * 16 + 1))) ++ [rec24 11 0]) true) ∧
  (does (.drop n 0) (recHC 12 h 0)
    (fun d => { a.ctx d with ready := without h (a.ctx d).ready, stack := without h (a.ctx d).stack }) [] a.hold) ∧
  (does (.pause n 0) (rec24 8 0) a.ctx [] a.hold) ∧
  (b0.ToTile n (rec24 8 0) rest → ∃ b, exec (.pause n 0) s = s.becomes b ∧ (b.ta n).pausing = true ∧
    (a.upq = [] → (b.ta n).nextRecs = [rec24 8 0]) ∧ (a.upq ≠ [] → rec24 8 0 ∉ a.upq → rec24 8 0 ∉ (b.ta n).nextRecs)) ∧
  (a.Quiet → does (.trained n 0) (rec24 13 0) a.ctx [] false)

/-- In training the Tile Agent aligns, then CLEAR is queued, or RESYNC_REQ when the Hub holds a handle table. CLEAR
empties the tile's lists and stacks, answers held reads with 0xFFFFFF and keeps floors; the link is UP, TRAINED
queued, the parked rescan started. RSYNC of the attempt in progress is noted; RSYNC_END reconciles: a STANDING handle
reported standing and an ACTIVE one reported active stay, a STANDING one reported active is claimed, a STANDING one
not reported is released and freed, an unknown one is dropped; then the link is UP. A timeout starts the next attempt;
the fourth fails the link and raises 0x0C. The loss of a tile releases its standing copies, frees the handles, answers
held claims as lost and raises 0x0D; the link is DOWN. (05_ranking_routing.md, 06_tile_links.md, R189, R250, R251,
R258, Table 6-8) -/
def Obligations.TrainingBringsLinkUp : Prop :=
∀ (s : State) (n h c : Nat) (rest : List Flit), s.blk.LinkRuns n → h < 1024 → c < 64 →
  let b0 := s.blk
  let a := b0.ta n
  let l := b0.link n
  let trains := l.st = .training ∨ l.st = .retrain
  let up (b : Blk) (sent : List Word24) : Prop := (b.link n).st = .up ∧ (b.link n).ctl = l.ctl ++ sent ++ [rec24 13 0] ∧
    (b.link n).hasTab = true ∧ b.rank.rescan.isSome = true
  (trains → l.ph = .idling → ∃ b, exec (.tileFrameAlign n) s = s.becomes b ∧ (b.ta n).aligned = true ∧
    (b.link n).ph = .aligned) ∧
  (trains → l.ph = .aligned → ∃ b, exec (.upstreamFramesPassed n) s = s.becomes b ∧ (b.link n).ph = .asked ∧
    (b.link n).ctl = l.ctl ++ [rec24 (if l.hasTab then 10 else 11) 0]) ∧
  (b0.ToTile n (rec24 11 0) rest → a.Quiet → ∃ b, exec (.clear n 0) s = s.becomes b ∧ up b [] ∧
    ∀ d, (b.ta n).ctx d = { a.ctx d with
      ready := [], stack := [], held := none,
      resp := if (a.ctx d).held.isSome then 0x00FFFFFF :: (a.ctx d).resp else (a.ctx d).resp }) ∧
  (∀ act : Bool, b0.ToHub n (rec24 10 (h * 1024 + c * 16 + b2n act)) rest → trains → l.ph = .asked → ∃ b, exec (.rsync n 0) s = s.becomes b ∧
    (b.link n).reports = l.reports ++ [(h, c, act)] ∧ (b.link n).handles = l.handles) ∧
  (b0.ToHub n (rec24 11 0) rest → trains → l.ph = .asked →
    (∀ x act, l.handles = [(h, x)] → l.reports = [(h, c, act)] → x.st = (if act then .active else .standing) →
      ∃ b, exec (.rsyncEnd n 0) s = s.becomes b ∧ up b [] ∧ (b.link n).handles = l.handles ∧ b.sram = b0.sram) ∧
    (∀ x t, l.handles = [(h, x)] → l.reports = [] → b0.Names n h .standing t → (b0.entry t).act = true →
      ∃ b, exec (.rsyncEnd n 0) s = s.becomes b ∧ up b [] ∧ (b.link n).handles = [] ∧
        b.entry t = { b0.entry t with dlv := false, shr := false }) ∧
    (∀ x t, l.handles = [(h, x)] → l.reports = [(h, c, true)] → b0.Names n h .standing t →
      ∃ b, exec (.rsyncEnd n 0) s = s.becomes b ∧ up b [] ∧ (b.link n).handle h = { x with st := .active, ctx := c, wd := false } ∧
        (b.entry t).act = true ∧ (b.entry t).dlv = false) ∧
    (∀ act, l.handles = [] → l.reports = [(h, c, act)] →
      ∃ b, exec (.rsyncEnd n 0) s = s.becomes b ∧ up b [recHC 12 h 0])) ∧
  (trains → l.tries < 3 → ∃ b, exec (.trainingTimeout n) s = s.becomes b ∧ (b.link n).st = l.st ∧
    (b.link n).tries = l.tries + 1 ∧ (b.link n).ph = .idling ∧ (b.link n).e = {} ∧ (b.link n).reports = [] ∧
    ∀ k, (b.link n).handle k = (l.handle k).settled) ∧
  (trains → l.tries = 3 → ∃ b, exec (.trainingTimeout n) s = s.becomes b ∧ (b.link n).st = .failed ∧
    (b.link n).clkOn = false ∧ (b.lane 24).reports = (b0.lane 24).reports ++ [0x0C]) ∧
  (l.st = .up → ∀ x t, l.handles = [(h, x)] → b0.Names n h .standing t → (b0.entry t).act = true →
    ∃ b, exec (.tileLoss n) s = s.becomes b ∧ (b.link n).st = .down ∧ (b.link n).handles = [] ∧ (b.link n).clkOn = false ∧
      b.entry t = { b0.entry t with dlv := false, shr := false } ∧
      (∀ d, (b.ta n).ctx d = { resp := if (a.ctx d).held.isSome then 0x00FFFFFF :: (a.ctx d).resp else (a.ctx d).resp }) ∧
      (b.lane 24).reports = (b0.lane 24).reports ++ [0x0D])

/-- PAUSE_ACK stops the clock of a pausing link with nothing to send at either end: PAUSED; a pause abandoned before
leaves the link UP. QACK of a QUIESCING link is noted; with every handle FREE the quiesce then ends in QUIESCED with
the clock stopped and no handle table, or in training when service was requested. The downstream pattern of a QUIESCED
link makes its Tile Agent send the pattern while a CRITICAL instance waits for the link; in RUN the upstream pattern
clears QUIESCE and trains a populated link that is QUIESCED, DOWN or FAILED. The repeat goes on exactly while a
CRITICAL instance is parked for the link. A Tile Agent without frame markers holds its claims; its reset answers held
reads as lost and forgets everything else, and on leaving reset it sends the pattern. (06_tile_links.md,
16_reset_start.md, R172, R252, R254, R255, R257, R575, R581) -/
def Obligations.PauseQuiesceWake : Prop :=
∀ (s : State) (n : Nat) (rest : List Flit), n < 16 →
  let b0 := s.blk
  let a := b0.ta n
  let l := b0.link n
  (b0.awake = true → l.driven = true → a.inReset = false → b0.inj.arm = [] →
    a.e.wire = mkFlit l.e.rxExp (rec24 8 0) 0 0 :: rest → l.e.inbox = [] →
    (l.ph = .pausing → a.upq = [] → a.e.resend = [] → l.ctl = [] → l.outq = [] → l.e.resend = [] → ∃ b, exec (.pauseAck n 0) s = s.becomes b ∧ (b.link n).st = .paused ∧ (b.link n).clkOn = false ∧
      (b.link n).e.txSeq = l.e.txSeq ∧ (b.link n).handles = l.handles) ∧
    (l.ph ≠ .pausing → ∃ b, exec (.pauseAck n 0) s = s.becomes b ∧ (b.link n).st = l.st ∧ (b.link n).clkOn = true)) ∧
  (b0.ToHub n (rec24 9 0) rest → l.st = .quiescing → l.handles = [] →
    ∃ b, exec (.qack n 0) s = s.becomes b ∧ b.hasFollowUp = true ∧ (b.link n).st = .quiescing ∧
      ((b.quiesceEnd n).link n).st = (if l.service then .training else .quiesced) ∧
      ((b.quiesceEnd n).link n).clkOn = l.service ∧ ((b.quiesceEnd n).link n).hasTab = false) ∧
  (b0.awake = true → l.st = .quiesced → l.wakeEn = true → l.waking = true → a.inReset = false → b0.criticalWaits s.mem n = true →
    ∃ b, exec (.wakePattern n true) s = s.becomes b ∧ b.ta n = { a with wake := true }) ∧
  (b0.awake = true → b0.pwr.seq.seq = .none → b0.pwr.seq.offReq = false → a.inReset = false → a.wake = true →
    l.st = .quiesced ∨ l.st = .down ∨ l.st = .failed → l.pop = true →
    ∃ b, exec (.wakePattern n false) s = s.becomes b ∧ (b.link n).st = .training ∧ (b.link n).quiesce = false ∧
      (b.link n).clkOn = true ∧ (b.ta n).wake = false) ∧
  (b0.awake = true → l.st = .quiesced → l.wakeEn = true →
    exec (.wakePatternRepeat n) s = s.becomes (b0.modLink n (fun l => { l with waking := b0.criticalWaits s.mem n })) ∧
    (b0.rank.parked = [] → b0.criticalWaits s.mem n = false)) ∧
  (l.clkOn = false → l.pop = true → l.st = .down → a.inReset = false →
    ∃ b, exec (.hubResetDetect n) s = s.becomes b ∧ b.ta n = { a with hold := true }) ∧
  (∃ b, exec (.tileAgentReset n true) s = s.becomes b ∧ (b.ta n).inReset = true ∧ (b.ta n).upq = [] ∧ (b.ta n).e = {} ∧
    (b.ta n).wake = false ∧
    ∀ c, (b.ta n).ctx c = { resp := if (a.ctx c).held.isSome then 0x00FFFFFF :: (a.ctx c).resp else (a.ctx c).resp }) ∧
  (a.inReset = true → ∃ b, exec (.tileAgentReset n false) s = s.becomes b ∧ b.ta n = { a with inReset := false, wake := true })

/-- A word read at offset 0 of a context page takes the first copy of the Ready List whose level is at least the
threshold: an exclusive copy leaves the list, is pushed on the active stack and answers with its INTID, and CLAIMED
and, when the threshold changed, CTXSTAT are sent; a shared one is held, nothing is answered and CLAIMREQ is sent;
without one the answer is 0xFFFFFF. Offset 4 names the same copy and takes nothing; offsets 8, 0xC and 0x10 read
RUNPRI, the floor and the fault count; every other word, and an access of another size, reads 0.
(03_intid_lifecycle.md, 05_ranking_routing.md, 06_tile_links.md, R109, R110, R112, R113, R120, R174, R238, R246, Table
6-4) -/
def Obligations.ClaimReadTakesHighestCopy : Prop :=
∀ (s : State) (p off size : Nat), p < 1024 → off < 0x1000 →
  let b0 := s.blk
  let n := p / 64
  let c := p % 64
  let a := b0.ta n
  let x := a.ctx c
  let limit := if 8 ≤ x.stack.length then 0x401
    else match x.stack.head? with | none => x.pf.toNat | some k => max x.pf.toNat (keyLevel k.key + 1)
  let best (k : Copy) : Prop := ∃ before after, x.ready = before ++ k :: after ∧ limit ≤ keyLevel k.key ∧
    ∀ y ∈ before, keyLevel y.key < limit
  let nothing := ∀ y ∈ x.ready, keyLevel y.key < limit
  a.inReset = false → x.held = none → x.waiting = [] → a.hold = false →
  let leaves (y : Ctx) (b : Blk) : Prop := exec (.claimRead p off size) s = s.becomes b ∧ (b.ta n).ctx c = y ∧
    (∀ d, d ≠ c → (b.ta n).ctx d = a.ctx d) ∧ b.links = b0.links ∧ b.sram = b0.sram
  let reads (v : Word) : Prop := ∃ b, leaves { x with resp := v :: x.resp } b ∧ (b.ta n).upq = a.upq
  (size = 4 → off = 0 → nothing → reads 0x00FFFFFF) ∧
  (size = 4 → off = 0 → ∀ k, best k → k.shared = false →
    ∃ b, leaves { x with
      ready := x.ready.erase k, stack := k :: x.stack, resp := k.intid.setWidth 32 :: x.resp } b ∧
      recHC 4 k.handle c ∈ (b.ta n).upq ∧ (((b.ta n).ctx c).threshold ≠ limit →
        (b.ta n).upq.getLast? = some (rec24 12 (c * 2 ^ 14 + ((b.ta n).ctx c).threshold)))) ∧
  (size = 4 → off = 0 → ∀ k, best k → k.shared = true →
    ∃ b, leaves { x with ready := x.ready.erase k, held := some k } b ∧ (b.ta n).upq = a.upq ++ [recHC 5 k.handle c]) ∧
  (size = 4 → off = 4 → (nothing → reads 0x00FFFFFF) ∧ ∀ k, best k → reads (k.intid.setWidth 32)) ∧
  (size = 4 → off = 8 → reads (BitVec.ofNat 32 (match x.stack.head? with
    | none => 1024
    | some k => keyLevel k.key + 4096 * (x.stack.length % 16)))) ∧
  (size = 4 → off = 0xC → reads (x.pf.setWidth 32)) ∧ (size = 4 → off = 0x10 → reads (x.cfault.setWidth 32)) ∧
  ((size ≠ 4 ∨ off ∉ [0, 4, 8, 0xC, 0x10]) → reads 0)

/-- A word written to the complete word removes from the active stack the topmost entry of that INTID and sends
COMPLETE with its handle; 0xFFFFFF is ignored; an INTID that is not on the stack, and any write to the complete page
of another size or alignment, is a completion fault: counted and reported. The floor word sets PF to its bits [10:0],
at most 0x400. When the threshold changed, the newest CTXSTAT is the last record. At the Hub CTXSTAT enters the
Context Priority Table, CFAULT raises internal source 0x07, and UNPOP is counted and raises 0x0B.
(03_intid_lifecycle.md, 05_ranking_routing.md, 06_tile_links.md, R110, R116, R117, R118, R172, R174, R243, R246) -/
def Obligations.CompletionsAndFloors : Prop :=
∀ (s : State) (p : Nat), p < 1024 →
  let b0 := s.blk
  let n := p / 64
  let c := p % 64
  let a := b0.ta n
  let x := a.ctx c
  let stat (b : Blk) : Prop := ((b.ta n).ctx c).threshold ≠ x.threshold →
    (b.ta n).upq.getLast? = some (rec24 12 (c * 2 ^ 14 + ((b.ta n).ctx c).threshold))
  let leaves (i : Instr) (y : Ctx) (b : Blk) : Prop := exec i s = s.becomes b ∧ (b.ta n).ctx c = y ∧
    (∀ d, d ≠ c → (b.ta n).ctx d = a.ctx d) ∧ b.links = b0.links ∧ b.sram = b0.sram ∧ stat b
  let faults (i : Instr) : Prop := ∃ b, leaves i { x with cfault := satInc x.cfault } b ∧
    (b.ta n).upq = a.upq ++ [rec24 13 (c * 2 ^ 14)]
  (a.inReset = false → x.held = none → x.waiting = [] → a.hold = false →
    (∀ (k : Copy) (before after : List Copy), x.stack = before ++ k :: after → (∀ y ∈ before, y.intid ≠ k.intid) →
      k.intid ≠ 0xFFFFFF → ∃ b, leaves (.completeWrite p 0x800 4 (k.intid.setWidth 32)) { x with stack := before ++ after } b ∧
        recHC 7 k.handle c ∈ (b.ta n).upq) ∧
    (∀ v : Word, v ≠ 0x00FFFFFF → (∀ y ∈ x.stack, y.intid.setWidth 32 ≠ v) → faults (.completeWrite p 0x800 4 v)) ∧
    (∀ off size v, 0x800 ≤ off → off < 0x1000 → size ≠ 4 ∨ off % 4 ≠ 0 → faults (.completeWrite p off size v)) ∧
    (∃ b, leaves (.completeWrite p 0x800 4 0x00FFFFFF) x b ∧ (b.ta n).upq = a.upq) ∧
    (∀ v : Word, ∃ b, leaves (.floorWrite p 4 v) { x with pf := BitVec.ofNat 11 (min (v.toNat % 2048) 0x400) } b)) ∧
  (∀ (t h : Nat) (rest : List Flit), t < 2048 → h < 1024 →
    (b0.ToHub n (rec24 12 (c * 2 ^ 14 + t)) rest → ∃ b, exec (.ctxstat n 0) s = s.becomes b ∧
      tabGet 0 b.rank.cpt p = BitVec.ofNat 11 t ∧ ∀ q, q ≠ p → tabGet 0 b.rank.cpt q = tabGet 0 b0.rank.cpt q) ∧
    (b0.ToHub n (rec24 13 (c * 2 ^ 14)) rest → ∃ b, exec (.cfault n 0) s = s.becomes b ∧
      (b.lane 24).reports = (b0.lane 24).reports ++ [0x07]) ∧
    (b0.ToHub n (recHC 14 h c) rest → ∃ b, exec (.unpop n 0) s = s.becomes b ∧
      (b.link n).err = { (b0.link n).err with unpop := satInc (b0.link n).err.unpop } ∧
      (b.lane 24).reports = (b0.lane 24).reports ++ [0x0B]))

/-- A record to be re-run starts first, on the lowest idle engine other than the revoked one. Else, with no ORD source
queued, the oldest CRITICAL record starts, else the oldest FIRM one, on the lowest idle engine; and with only STANDARD
and BULK records of one domain queued, the oldest starts when more than RSV engines are idle, and none otherwise. The
run starts at PADDR with step count 0, clear flags, no action and the registers of Table 7-3. (07_clause_engines.md,
R271, R272, R273, R277, R306, Table 7-3) -/
def Obligations.RunStartsOnLowestIdleEngine : Prop :=
∀ (s : State) (c : Nat), s.blk.awake = true → setHas s.blk.dbg.haltCl c = false → s.blk.injHit 19 c = false →
  let cl := s.blk.cl c
  let starts (k : Nat) (d : Dispatch) (queue : List Dispatch) (rerun : List (Nat × Dispatch)) (again : Bool) : Prop :=
    ∃ (b : Blk) (r : Run), exec (.runStart c) s = s.becomes b ∧ (tabGet {} (b.cl c).engines k).st = .running r ∧
      (b.cl c).queue = queue ∧ (b.cl c).rerun = rerun ∧
      r.d = d ∧ r.pc = d.att.paddr ∧ r.steps = 0 ∧ r.f = {} ∧ r.acts = {} ∧ r.again = again ∧ r.stuck = false ∧
      (∀ j < 4, r.reg j = d.pl.samples.getD j 0) ∧
      (d.pl.ns < 8 → (r.reg 4).toNat = d.pl.ns + 16 * (match d.cause with | .arrival => 0 | .timer => 1 | .lost => 2) +
        64 * d.exc.toNat + 256 * d.pl.seq.toNat) ∧
      r.reg 5 = d.pl.chan ∧ r.reg 6 = d.time.extractLsb' 0 24 ∧ r.reg 7 = d.time.extractLsb' 24 24 ∧ r.reg 8 = d.vintid ∧
      (d.domid < 4096 → (r.reg 9).toNat = d.rank.cls.toNat + 4 * d.rank.prio.toNat + 4096 * d.domid) ∧
      r.reg 10 = d.att.param ∧ (∀ j, 10 < j → r.reg j = 0)
  let idle := ((List.range 16).filter (fun k => (tabGet {} cl.engines k).st = .idle && !setHas cl.regs.offline k)).length
  (∀ v d rest k, cl.rerun = (v, d) :: rest → cl.Free k → k ≠ v → (∀ j < k, j = v ∨ ¬ cl.Free j) →
    starts k d cl.queue rest true) ∧
  (∀ k pre d post, cl.rerun = [] → cl.queue = pre ++ d :: post → (∀ x ∈ cl.queue, x.rank.ord = false) →
    cl.Free k → (∀ j < k, ¬ cl.Free j) →
    (d.dcls = 3 → (∀ x ∈ pre, x.dcls ≠ 3) → starts k d (pre ++ post) [] false) ∧
    (d.dcls = 2 → (∀ x ∈ pre, x.dcls ≠ 2) → (∀ x ∈ cl.queue, x.dcls ≠ 3) → starts k d (pre ++ post) [] false) ∧
    (pre = [] → (∀ x ∈ cl.queue, x.dcls.toNat < 2 ∧ x.domid = d.domid) →
      (cl.regs.rsv < idle → starts k d post [] false) ∧
      (idle ≤ cl.regs.rsv → exec (.runStart c) s = s.becomes s.blk)))

/-- The closing of a run of a resident source that is not active and has no copies out (ACT = DLV = 0), at its turn at
input 5 of the bank, frees the engine, decrements HELD and writes GEN. With a stale generation that is all; SUPPRESS
releases nothing; EMIT, and a run without a result action, release the contribution: PEND is set, RCLASS, RPRIO, DEM
and the target take the named values or the defaults, STAMP is written when nothing waited, DLV is set and the offer
is placed in the bank's register. (07_clause_engines.md, 05_ranking_routing.md, R179, R281, R289, R290, R296, R97,
R98) -/
def Obligations.ClosingAppliesResult : Prop :=
∀ (s : State) (c k : Nat) (cg : Closing) (again : Bool) (st : Stt),
  s.blk.awake = true → k < 16 → (tabGet {} (s.blk.cl c).engines k).st = .closing cg again →
  s.blk.AtSlot cg.d.stt st → st.mapgen = cg.d.mapgen → cg.acts.logs = [] → cg.acts.timer = none →
  (s.blk.entry st).act = false → (s.blk.entry st).dlv = false →
  setHas s.blk.arb.turn5 (st.slot % 16) = true ∨ s.blk.rank.reoffers = [] →
  let e := s.blk.entry st
  let g := (s.blk.dom st.domid).gen
  let held := if e.held = 0 then 0 else e.held - 1
  let closes (e' : Entry) (offers : Tab Offer) : Prop := ∃ b, exec (.closing c k) s = s.becomes b ∧ b.entry st = e' ∧
    b.rank.offers = offers ∧ (tabGet {} (b.cl c).engines k).st = .idle
  let dem := cg.d.exc && 2#2 ≤ cg.d.rank.cls
  let emits (n : RankNames) : Prop :=
    let named := n.cls.getD (if dem then 1 else st.rank.cls)
    let e' : Entry := { e with
      held := held, gen := g, pend := true, dlv := true, stamp := if e.pend then e.stamp else s.blk.now.extractLsb' 6 14,
      rclass := if dem && 1#2 < named then 1 else named, rprio := n.prio.getD st.rank.prio, dem := dem,
      rtv := n.tgt.isSome, rtgt := n.tgt.getD e.rtgt }
    closes e' (tabPut s.blk.rank.offers (st.slot % 16) (offerOf cg.d.stt st e'))
  (cg.d.gen ≠ g → e.pend = false → closes { e with held := held, gen := g } s.blk.rank.offers) ∧
  (cg.d.gen = g → cg.acts.result = some .suppress → e.pend = false →
    closes { e with held := held, gen := g } s.blk.rank.offers) ∧
  (∀ n, cg.d.gen = g → st.kind ≠ .level → cg.acts.result = some (.emit n) → emits n) ∧
  (cg.d.gen = g → st.kind ≠ .level → cg.acts.result = none → emits {})

/-- When the watchdog of a running engine expires, the fault is counted with cause 10, captured unless one is held,
and reported; the engine is reset; its record, its actions discarded, waits to be re-run ahead of the queue, or, when
it was being re-run already, is closed without actions; an engine that expires a second time goes out of service, one
that expires a first time is marked. (07_clause_engines.md, R304, R306, R307, R308) -/
def Obligations.WatchdogRevokesEngine : Prop :=
∀ (s : State) (c k : Nat) (r : Run), s.blk.awake = true → setHas s.blk.dbg.haltCl c = false →
  (tabGet {} (s.blk.cl c).engines k).st = .running r →
  let cl := s.blk.cl c
  let twice := (tabGet {} cl.engines k).wd
  (twice = true → (setAdd cl.regs.offline k).length < 16) →
  ∃ b, exec (.watchdogExpiry c k) s = s.becomes b ∧
    tabGet {} (b.cl c).engines k = { st := .idle, wd := !twice } ∧
    (b.cl c).rerun = (if r.again then cl.rerun else cl.rerun ++ [(k, r.d)]) ∧
    (b.cl c).forced = (if r.again then cl.forced ++ [{ d := r.d, acts := {} }] else cl.forced) ∧
    (b.cl c).queue = cl.queue ∧ (b.cl c).data = cl.data ∧
    (b.cl c).regs = { cl.regs with
      faultCnt := satInc cl.regs.faultCnt,
      fcap := if cl.regs.fcap.valid then cl.regs.fcap else { engine := k, addr := r.pc, cause := 10, valid := true },
      offline := if twice then setAdd cl.regs.offline k else cl.regs.offline } ∧
    (b.lane 24).reports = (s.blk.lane 24).reports ++ [0x08, 0x09]

/-- When a source timer whose owner is resident falls due in RUN, the timer is disarmed; while the owner's attachment
names this cluster and entry, the cluster is enabled and accepts, and HELD is below 15, HELD rises, a deferred
contribution is released, and a record with CAUSE TIMER, no payload and the expiry time enters the cluster's queue;
while the owner has no clause attachment the deferred contribution is released and nothing is dispatched.
(07_clause_engines.md, R301, R270) -/
def Obligations.SourceTimerExpiryDispatches : Prop :=
∀ (s : State) (c a due : Nat) (st : Stt),
  let b0 := s.blk
  let key := 1024 * c + a
  let att := tabGet {} (b0.cl c).att a
  b0.awake = true → b0.pwr.seq.seq = .none → a < 1024 → b0.tim.waiting.find? (fun x => x.1 == key) = none →
  b0.tim.armed.find? (fun x => x.1 == key) = some (key, due) → b0.AtSlot att.owner st → (b0.entry st).held ≠ 15 →
  let e := b0.entry st
  let rel : Entry := if e.defr then { e with
    defr := false, pend := true, stamp := if e.pend then e.stamp else b0.now.extractLsb' 6 14,
    rpt := e.rpt || (e.dlv && !e.act) } else e
  let quiet := e.act = true ∨ e.dlv = true ∨ (e.defr = false ∧ e.pend = false)
  quiet → st.kind ≠ .level → setHas b0.arb.turn5 (st.slot % 16) = true ∨ b0.rank.reoffers = [] →
  let time : Dword := if b0.time.valid then b0.time.tb - BitVec.ofNat 64 (1000 * (b0.tim.tick - due)) else 0
  (st.clause = { cv := true, clus := c, aidx := a } → (b0.cl c).regs.st = .enabled → (b0.cl c).regs.offline.length < 16 →
    (b0.cl c).queue.length < (if 2#2 ≤ st.rank.cls then 64 else 48) →
    setHas b0.ecc.attBad key = false → setHas b0.ecc.regBad (64 * c + att.region) = false →
    ∃ (b : Blk) (d : Dispatch), exec (.sourceTimerExpiry c a) s = s.becomes b ∧ b.tim.armed = tabDel b0.tim.armed key ∧
      b.entry st = { rel with held := e.held + 1, gen := (b0.dom st.domid).gen } ∧ (b.cl c).queue = (b0.cl c).queue ++ [d] ∧
      d.cause = .timer ∧ d.stt = att.owner ∧ d.mapgen = st.mapgen ∧ d.time = time.setWidth 48 ∧ d.att = att ∧
      d.pl = {} ∧ d.exc = false ∧ d.rank = st.rank ∧ d.gen = (b0.dom st.domid).gen) ∧
  (st.clause.cv = false → ∃ b, exec (.sourceTimerExpiry c a) s = s.becomes b ∧ b.tim.armed = tabDel b0.tim.armed key ∧
    b.entry st = (if e.defr then { rel with gen := (b0.dom st.domid).gen } else e) ∧ (b.cl c).queue = (b0.cl c).queue)

/-- ADD, SUB and ADDI write the sum or difference modulo 2^24; Z and N follow the result, C is the carry out of bit 23
or the borrow, V tells that the signed result differs from the exact one; CMP and CMPI set the same flags as SUB and
write no register; each advances the PC and consumes one step, and nothing else changes. (08_clause_isa.md, Table 8-1,
Table 8-4) -/
def Obligations.ClauseAddSubtractCompare : Prop :=
∀ (s : State) (c k : Nat) (r : Run) (w : Word24), s.blk.AtInstr c k r w →
  let a := r.reg (fA w)
  let b := r.reg (fB w)
  let i := (w.extractLsb' 0 10).signExtend 24
  let sum (x y : Word24) : Flags := { z := x + y = 0, n := (x + y).toInt < 0, c := 2 ^ 24 ≤ x.toNat + y.toNat,
                                      v := (x + y).toInt ≠ x.toInt + y.toInt }
  let dif (x y : Word24) : Flags := { z := x = y, n := (x - y).toInt < 0, c := x.toNat < y.toNat,
                                      v := (x - y).toInt ≠ x.toInt - y.toInt }
  (opOf w = 0x04 → exec (.clAdd c k) s = s.runs c k (r.wrote w (a + b) (sum a b))) ∧
  (opOf w = 0x05 → exec (.clSub c k) s = s.runs c k (r.wrote w (a - b) (dif a b))) ∧
  (opOf w = 0x06 → exec (.clAddi c k) s = s.runs c k (r.wrote w (a + i) (sum a i))) ∧
  (opOf w = 0x07 → exec (.clCmp c k) s = s.runs c k { r.past w with f := dif a b }) ∧
  (opOf w = 0x08 → exec (.clCmpi c k) s = s.runs c k { r.past w with f := dif a i })

/-- MOV copies a register, LDI loads a sign-extended 14-bit constant, LUH replaces bits [23:14] by a 10-bit constant
and keeps [13:0], all three leaving the flags; AND, OR, XOR, ANDI and ORI write the bitwise result, set Z and N from
it and clear C and V; SHL multiplies by 2^n modulo 2^24, SHR divides the unsigned value by 2^n, SAR divides the signed
value by 2^n rounding down; C is the last bit shifted out, 0 for n = 0, V is cleared; EXTU takes w bits from bit p on
and clears C and V; each advances the PC and consumes one step. (08_clause_isa.md, Table 8-4) -/
def Obligations.ClauseMovesLogicAndShifts : Prop :=
∀ (s : State) (c k : Nat) (r : Run) (w : Word24), s.blk.AtInstr c k r w →
  let a := r.reg (fA w)
  let b := r.reg (fB w)
  let i := (w.extractLsb' 0 10).setWidth 24
  let zn (v : Word24) : Flags := { z := v = 0, n := v.toInt < 0, c := false, v := false }
  let n := w.toNat % 32
  let p := w.toNat / 32 % 32
  let znc (v : Word24) (out : Bool) : Flags := { z := v = 0, n := v.toInt < 0, c := out, v := false }
  let shl := BitVec.ofNat 24 (a.toNat * 2 ^ n)
  let shr := BitVec.ofNat 24 (a.toNat / 2 ^ n)
  let sar := BitVec.ofInt 24 (a.toInt / 2 ^ n)
  let ext := BitVec.ofNat 24 (a.toNat / 2 ^ p % 2 ^ (n + 1))
  (opOf w = 0x01 → exec (.clMov c k) s = s.runs c k (r.wrote w a r.f)) ∧
  (opOf w = 0x02 → exec (.clLdi c k) s = s.runs c k (r.wrote w ((w.extractLsb' 0 14).signExtend 24) r.f)) ∧
  (opOf w = 0x03 → exec (.clLuh c k) s =
    s.runs c k (r.wrote w (w.extractLsb' 0 10 ++ (r.reg (fD w)).extractLsb' 0 14) r.f)) ∧
  (opOf w = 0x09 → exec (.clAnd c k) s = s.runs c k (r.wrote w (a &&& b) (zn (a &&& b)))) ∧
  (opOf w = 0x0A → exec (.clOr c k) s = s.runs c k (r.wrote w (a ||| b) (zn (a ||| b)))) ∧
  (opOf w = 0x0B → exec (.clXor c k) s = s.runs c k (r.wrote w (a ^^^ b) (zn (a ^^^ b)))) ∧
  (opOf w = 0x0C → exec (.clAndi c k) s = s.runs c k (r.wrote w (a &&& i) (zn (a &&& i)))) ∧
  (opOf w = 0x0D → exec (.clOri c k) s = s.runs c k (r.wrote w (a ||| i) (zn (a ||| i)))) ∧
  (opOf w = 0x0E → exec (.clShl c k) s = s.runs c k (r.wrote w shl (znc shl (0 < n && a.getLsbD (24 - n))))) ∧
  (opOf w = 0x0F → exec (.clShr c k) s = s.runs c k (r.wrote w shr (znc shr (0 < n && a.getLsbD (n - 1))))) ∧
  (opOf w = 0x10 → exec (.clSar c k) s = s.runs c k (r.wrote w sar (znc sar (0 < n && a.getLsbD (n - 1))))) ∧
  (opOf w = 0x19 → exec (.clExtu c k) s = s.runs c k (r.wrote w ext (znc ext false)))

/-- MULU and MULS write the product modulo 2^24 with C telling an unsigned, V a signed overflow; DIVU writes the
truncated quotient for a divisor that is not 0 and faults ARITH for 0; ABS writes the absolute value, with 0x800000
giving itself and V; MINS, MAXS, MINU and MAXU write the smaller or larger operand; Z and N follow the result, the
flags not named are cleared, the PC advances and the steps are consumed. (08_clause_isa.md, Table 8-4) -/
def Obligations.ClauseMultiplyDivideOrder : Prop :=
∀ (s : State) (c k : Nat) (r : Run) (w : Word24), s.blk.AtInstr c k r w →
  let a := r.reg (fA w)
  let b := r.reg (fB w)
  let fl (x : Word24) (cy ov : Bool) : Flags := { z := x = 0, n := x.toInt < 0, c := cy, v := ov }
  let u := BitVec.ofNat 24 (a.toNat * b.toNat)
  let m := BitVec.ofInt 24 (a.toInt * b.toInt)
  let q := BitVec.ofNat 24 (a.toNat / b.toNat)
  let abs := BitVec.ofNat 24 a.toInt.natAbs
  let mins := BitVec.ofInt 24 (min a.toInt b.toInt)
  let maxs := BitVec.ofInt 24 (max a.toInt b.toInt)
  let minu := BitVec.ofNat 24 (min a.toNat b.toNat)
  let maxu := BitVec.ofNat 24 (max a.toNat b.toNat)
  (opOf w = 0x11 → exec (.clMulu c k) s = s.runs c k (r.wrote w u (fl u (0xFFFFFF < a.toNat * b.toNat) false))) ∧
  (opOf w = 0x12 → exec (.clMuls c k) s = s.runs c k (r.wrote w m (fl m false (m.toInt ≠ a.toInt * b.toInt)))) ∧
  (opOf w = 0x13 → b ≠ 0 → exec (.clDivu c k) s = s.runs c k (r.wrote w q (fl q false false))) ∧
  (opOf w = 0x13 → b = 0 → ∃ t, exec (.clDivu c k) s = s.exactly t ∧ s.blk.FaultLeaves t c k r 9) ∧
  (opOf w = 0x14 → exec (.clAbs c k) s = s.runs c k (r.wrote w abs (fl abs false (a = 0x800000)))) ∧
  (opOf w = 0x15 → exec (.clMins c k) s = s.runs c k (r.wrote w mins (fl mins false false))) ∧
  (opOf w = 0x16 → exec (.clMaxs c k) s = s.runs c k (r.wrote w maxs (fl maxs false false))) ∧
  (opOf w = 0x17 → exec (.clMinu c k) s = s.runs c k (r.wrote w minu (fl minu false false))) ∧
  (opOf w = 0x18 → exec (.clMaxu c k) s = s.runs c k (r.wrote w maxu (fl maxu false false)))

/-- With the offset of R325, an unbounded sum: outside its window the instruction faults WINDOW; a word read that is
poisoned faults UNCORR; else LDH, LDHX, LDT and LDTX load the word and set Z and N; STH and STHX store RD; CMPT sets
the flags of RA minus the word; XCHH exchanges RD and the word; ADDH adds RA to the word, writes the old word to RD
and sets the flags of the sum; BAND counts the words from T[rb] on that do not exceed RA, signed. A fault leaves the
stores as they were. (R326, R325) -/
def Obligations.ClauseDataStore : Prop :=
∀ (s : State) (c k : Nat) (r : Run) (w : Word24), s.blk.AtInstr c k r w →
  let cl := s.blk.cl c
  let d := r.reg (fD w)
  let a := r.reg (fA w)
  let off12 := w.toNat % 4096
  let offX := a.toNat + w.toNat % 1024
  let word (x : Nat) : Word24 := tabGet 0 cl.data x
  let bad (x : Nat) : Bool := setHas cl.dataBad x
  let ld (v : Word24) : Run := r.wrote w v { r.f with z := v = 0, n := v.toInt < 0 }
  let faults (i : Instr) (cause : Nat) : Prop := ∃ t, exec i s = s.exactly t ∧ s.blk.FaultLeaves t c k r cause
  let load (i : Instr) (base len off : Nat) : Prop :=
    (len ≤ off → faults i 3) ∧ (off < len → bad (base + off) = true → faults i 8) ∧
    (off < len → bad (base + off) = false → exec i s = s.runs c k (ld (word (base + off))))
  let store (i : Instr) (off : Nat) : Prop :=
    (r.d.att.hlen ≤ off → faults i 3) ∧
    (off < r.d.att.hlen → exec i s = s.runsStoring c k (r.d.att.hbase + off) d (r.past w))
  let atomic (i : Instr) (off : Nat) (v : Word24 → Word24) (r' : Word24 → Run) : Prop :=
    let x := r.d.att.hbase + off
    (r.d.att.hlen ≤ off → faults i 3) ∧ (off < r.d.att.hlen → bad x = true → faults i 8) ∧
    (off < r.d.att.hlen → bad x = false → exec i s = s.runsStoring c k x (v (word x)) (r' (word x)))
  let cmp (x y : Word24) : Flags := { z := x = y, n := (x - y).toInt < 0, c := x.toNat < y.toNat,
                                      v := (x - y).toInt ≠ x.toInt - y.toInt }
  let t (o : Nat) : Nat := r.d.att.tbase + o
  let n := w.toNat / 8 % 8 + 1
  let o (j : Nat) : Nat := (r.reg (fB w)).toNat + j
  let cost : Nat := match opOf w with
    | 0x27 => 2 | 0x28 => 2 | 0x29 => if n ≤ 4 then 2 else 3 | _ => 1
  let count := BitVec.ofNat 24 ((List.range n).filter (fun j => (word (t (o j))).toInt ≤ a.toInt)).length
  (0x20 ≤ opOf w ∧ opOf w ≤ 0x29 → stepCost w = cost) ∧
  (opOf w = 0x20 → load (.clLdh c k) r.d.att.hbase r.d.att.hlen off12) ∧
  (opOf w = 0x21 → load (.clLdhx c k) r.d.att.hbase r.d.att.hlen offX) ∧
  (opOf w = 0x22 → store (.clSth c k) off12) ∧
  (opOf w = 0x23 → store (.clSthx c k) offX) ∧
  (opOf w = 0x24 → load (.clLdt c k) r.d.att.tbase r.d.att.tlen off12) ∧
  (opOf w = 0x25 → load (.clLdtx c k) r.d.att.tbase r.d.att.tlen offX) ∧
  (opOf w = 0x26 →
    (r.d.att.tlen ≤ off12 → faults (.clCmpt c k) 3) ∧ (off12 < r.d.att.tlen → bad (t off12) = true → faults (.clCmpt c k) 8) ∧
    (off12 < r.d.att.tlen → bad (t off12) = false →
      exec (.clCmpt c k) s = s.runs c k { r.past w with f := cmp d (word (t off12)) })) ∧
  (opOf w = 0x27 → atomic (.clXchh c k) off12 (fun _ => d) ld) ∧
  (opOf w = 0x28 → atomic (.clAddh c k) (w.toNat % 1024) (fun v => v + a) (fun v => r.wrote w v
    { z := v + a = 0, n := (v + a).toInt < 0, c := 2 ^ 24 ≤ v.toNat + a.toNat,
      v := (v + a).toInt ≠ v.toInt + a.toInt })) ∧
  (opOf w = 0x29 →
    ((∃ j < n, r.d.att.tlen ≤ o j) → faults (.clBand c k) 3) ∧
    ((∀ j < n, o j < r.d.att.tlen) → (∃ j < n, bad (t (o j)) = true) → faults (.clBand c k) 8) ∧
    ((∀ j < n, o j < r.d.att.tlen) → (∀ j < n, bad (t (o j)) = false) → exec (.clBand c k) s =
      s.runs c k (r.wrote w count { z := count = 0, n := count.toInt < 0, c := false, v := false })))

/-- B branches when COND of Table 8-3 holds of the flags, BBS when bit BIT of RA is 1, BBC when it is 0; taken, the PC
becomes PC + 1 + OFF modulo 8192 with the signed offset; not taken, PC + 1; either way one step is consumed and no
register or flag changes. (R328, R323) -/
def Obligations.ClauseBranches : Prop :=
∀ (s : State) (c k : Nat) (r : Run) (w : Word24), s.blk.AtInstr c k r w →
  let next := { r with steps := r.steps + 1, pc := r.pc + 1 }
  let goto (off : Int) : Run := { r with steps := r.steps + 1, pc := BitVec.ofInt 13 (r.pc.toNat + 1 + off) }
  let off14 := (w.extractLsb' 0 14).toInt
  let off9 := (w.extractLsb' 0 9).toInt
  let ra := (r.reg (fD w)).getLsbD (w.toNat / 512 % 32)
  let f := r.f
  let holds : Bool := match fD w with
    | 0 => true | 1 => f.z | 2 => !f.z | 3 => f.n != f.v | 4 => f.n == f.v | 5 => f.z || f.n != f.v
    | 6 => !f.z && f.n == f.v | 7 => f.c | 8 => !f.c | 9 => f.c || f.z | 10 => !f.c && !f.z | 11 => f.n
    | 12 => !f.n | 13 => f.v | 14 => !f.v | _ => false
  (opOf w = 0x30 → exec (.clB c k) s = s.runs c k (if holds then goto off14 else next)) ∧
  (opOf w = 0x31 → exec (.clBbs c k) s = s.runs c k (if ra then goto off9 else next)) ∧
  (opOf w = 0x32 → exec (.clBbc c k) s = s.runs c k (if ra then next else goto off9))

/-- EMIT, EMITR, COALESCE and SUPPRESS record the result action with the class, priority and target that the word
names, read from the registers in that step; with E = 1 the run then ends, else the PC advances; a second result
action faults RESULT. LOG appends its code and up to three register words, numbered modulo 16, and a fifth LOG faults
LOG. TIMER records RA, replacing an earlier one, and faults TIMER when the attachment has TEN = 0. END ends the run
with the actions recorded. (R288, R331, R332) -/
def Obligations.ClauseActionsAndEnd : Prop :=
∀ (s : State) (c k : Nat) (r : Run) (w : Word24), s.blk.AtInstr c k r w →
  let faults (i : Instr) (cause : Nat) : Prop := ∃ t, exec i s = s.exactly t ∧ s.blk.FaultLeaves t c k r cause
  let tgt := if w.getLsbD 14 then some ((r.reg (w.toNat % 16)).extractLsb' 0 10) else none
  let names (tv : Bool) : RankNames :=
    { cls := if w.getLsbD 16 then some (w.extractLsb' 12 2) else none,
      prio := if w.getLsbD 15 then some (w.extractLsb' 4 8) else none, tgt := if tv then tgt else none }
  let ra := r.reg (w.toNat / 16 % 16)
  let result (i : Instr) (x : ResultAct) : Prop :=
    (r.acts.result ≠ none → faults i 5) ∧
    (r.acts.result = none → exec i s =
      if w.getLsbD 17 then s.ended c k r { r.acts with result := some x }
      else s.runs c k { r with steps := r.steps + 1, pc := r.pc + 1, acts := { r.acts with result := some x } })
  let log : LogAct :=
    { code := w.extractLsb' 8 8,
      words := (List.range (w.extractLsb' 16 2).toNat).map (fun j => r.reg ((w.toNat / 16 % 16 + j) % 16)) }
  (opOf w = 0x38 → result (.clEmit c k) (.emit (names true))) ∧
  (opOf w = 0x39 → result (.clEmitr c k)
    (.emit { cls := some (ra.extractLsb' 0 2), prio := some (ra.extractLsb' 2 8), tgt := tgt })) ∧
  (opOf w = 0x3A → result (.clCoalesce c k) (.coalesce (names false))) ∧
  (opOf w = 0x3B → result (.clSuppress c k) .suppress) ∧
  (opOf w = 0x3C → (4 ≤ r.acts.logs.length → faults (.clLog c k) 6) ∧
    (r.acts.logs.length < 4 → exec (.clLog c k) s = s.runs c k
      { r with steps := r.steps + 1, pc := r.pc + 1, acts := { r.acts with logs := r.acts.logs ++ [log] } })) ∧
  (opOf w = 0x3D → (r.d.att.ten = false → faults (.clTimer c k) 7) ∧
    (r.d.att.ten = true → exec (.clTimer c k) s = s.runs c k
      { r with steps := r.steps + 1, pc := r.pc + 1, acts := { r.acts with timer := some (r.reg (fD w)) } })) ∧
  (opOf w = 0x3E → exec (.clEnd c k) s = s.ended c k r r.acts)

/-- A fetch outside the extent of the attachment's region, or with that region invalid, faults REGION; else a fetch of
an uncorrectable word faults UNCORR; else a word that is no legal instruction faults ILLEGAL; else an instruction
whose steps would pass BUDGET faults BUDGET, whichever instruction it is. Each such fault leaves what a fault leaves
and executes nothing. (08_clause_isa.md, R319, R320, R321, R322, Table 7-5) -/
def Obligations.ClauseFetchFaults : Prop :=
∀ (s : State) (c k : Nat) (r : Run), s.blk.Running c k r →
  let w := tabGet 0 (s.blk.cl c).prog r.pc.toNat
  let bad := setHas (s.blk.cl c).progBad r.pc.toNat
  let faults (i : Instr) (cause : Nat) : Prop := ∃ t, exec i s = s.exactly t ∧ s.blk.FaultLeaves t c k r cause
  (¬ s.blk.InRegion c r → faults (.fetchFault c k) 2) ∧
  (s.blk.InRegion c r → bad = true → faults (.fetchFault c k) 8) ∧
  (s.blk.InRegion c r → bad = false → legalWord w = false → faults (.fetchFault c k) 1) ∧
  (s.blk.InRegion c r → bad = false → legalWord w = true → r.d.att.budget < r.steps + stepCost w →
    faults (.fetchFault c k) 4 ∧ ∀ x ∈ clauseTable c k, opOf w = x.1 → faults x.2 4)

/-- In every state, a row of the instruction set or FETCH_FAULT of engine k in cluster c leaves the queue, host
memory, every other cluster, every other engine, the program store, the attachment and region tables and the dispatch
queue, and every part of the block but the clusters, the ingress reports, the debug unit, the error counters and the
injection register; and every data store word is left but, for STH, STHX, XCHH and ADDH, the word of the history
window that the running instruction addresses. (08_clause_isa.md, R315, R325, R285) -/
def Obligations.ClauseInstructionFrame : Prop :=
∀ (c k : Nat) (x : Nat × Instr) (s t : State), x ∈ (0, Instr.fetchFault c k) :: clauseTable c k → exec x.2 s = .next t →
  let b := s.blk
  let cl := b.cl c
  let stored (a : Nat) : Prop := ∃ r, (tabGet {} cl.engines k).st = .running r ∧
    let w := tabGet 0 cl.prog r.pc.toNat
    (x.1 = 0x22 ∨ x.1 = 0x27) ∧ a = r.d.att.hbase + off12 w ∨ x.1 = 0x23 ∧ a = r.d.att.hbase + offX r w ∨
    x.1 = 0x28 ∧ a = r.d.att.hbase + w.toNat % 1024
  t.pending = s.pending ∧ t.mem = s.mem ∧ (∀ d, d ≠ c → t.blk.cl d = b.cl d) ∧
  (∀ j, j ≠ k → tabGet {} (t.blk.cl c).engines j = tabGet {} cl.engines j) ∧
  (∀ a, ¬ stored a → tabGet 0 (t.blk.cl c).data a = tabGet 0 cl.data a) ∧
  { t.blk.cl c with engines := cl.engines, data := cl.data, dataBad := cl.dataBad, progBad := cl.progBad, regs := cl.regs } = cl ∧
  { t.blk with cls := b.cls, ing := b.ing, dbg := b.dbg, err := b.err, inj := b.inj } = b

/-- For every descriptor row of a ring that can fetch: a descriptor whose CHECK differs completes with CHECK, OP 0 and
TAG 0, and CVU0 counts, captures and reports a mismatch; a sound one of an unlisted OP completes with FORMAT; one of
the row's OP that is not permitted on a Guest Ring completes with RING; one with a non-zero reserved bit with FORMAT.
In each case FSEQ advances, one record is written, LCACHE.MISS_CNT counts the two accesses, and no source or session
changes. A FENCE completes with OK. (10_rings_doorbells.md, R366, R367, R372, R373, R374, R375, R379, R384, R405,
Table 10-6, Table 10-7) -/
def Obligations.DescriptorsAreExamined : Prop :=
∀ (s : State) (r : RingId) (op : Nat) (c : Instr), (op, c) ∈ descTable r → s.blk.Fetches r →
  let b0 := s.blk
  let d := b0.descAt s.mem r
  let same (b : Blk) : Prop := b.sram.stt = b0.sram.stt ∧ b.sram.slots = b0.sram.slots ∧ b.rings.session = b0.rings.session ∧
    b.lc = { b0.lc with missCnt := satInc (satInc b0.lc.missCnt) } ∧ b.links = b0.links ∧ b.rank = b0.rank ∧ b.cls = b0.cls
  let turned (st : Nat) : Prop := ∃ b, exec c s = s.becomes b ∧ b0.Answers b d st 0 [] ∧ same b
  (¬ b0.Sealed d → ∃ b, exec c s = s.becomes b ∧ b0.Records b r d.seq 0 0 2 0 [] ∧ same b ∧
    (b.pair r).cmd.r = (d.seq + 1) % 2 ^ 24 ∧ 0 ∈ b.cvu.host ∧
    tabGet 0 b.cvu.mis 0 = satInc (tabGet 0 b0.cvu.mis 0) ∧ 0x40 ∈ (b.lane 24).reports) ∧
  (b0.Sealed d → (d.op = 0 ∨ 0x0B < d.op ∧ d.op < 0x10 ∨ 0x39 < d.op) → turned 1) ∧
  (b0.Sealed d → d.op = op → (∃ g, r = .guest g) → op ≠ 0x13 → op ≠ 0x30 → op ≠ 0x31 → turned 3) ∧
  (b0.Sealed d → d.op = op → (∃ k, r = .mgr k) → (∀ fs, d.fields = some fs → d.reservedZero fs = false) → turned 1) ∧
  (b0.Sealed d → d.op = op → op = 0x13 → (∃ fs, d.fields = some fs ∧ d.reservedZero fs = true) → turned 0)

/-- A message source that no case of R377 refuses is mapped: STANDARD, priority 0, nothing attached, MAPGEN advanced,
spilled, its Spill State entry zeroed under the domain's generation; a wired edge line likewise, resident at its own
slot with USED set; a requester entry is written. KIND 5 or above is REFUSED with DETAIL 1. UNMAP_SOURCE of an
inactive resident source without copies clears VALID, advances MAPGEN, frees the slot and clears its bits; of an index
that is not mapped it is REFUSED with DETAIL 0xFFFF. SET_RESIDENCY moves the entry of a source into a free slot from
1,792 upward, or from its slot, of which only USED is cleared, into the Spill State Table. (03_intid_lifecycle.md,
04_ingress_residency.md, 10_rings_doorbells.md, R85, R119, R133, R160, R161, R377, R380, R614) -/
def Obligations.SourcesAreMappedAndMoved : Prop :=
∀ (s : State) (k : Nat) (d : Desc), k < 8 → s.blk.rings.session = none → s.blk.classesLive = false →
  let b0 := s.blk
  let answers (c : Instr) (st detail : Nat) (b : Blk) : Prop := exec c s = s.becomes b ∧ b0.Answers b d st detail []
  let i := d.f 2 18 0
  let t := b0.stt i
  let raw := tabGet {} b0.sram.stt i
  let dom := d.f 3 11 0
  let vi := d.f 4 23 0
  let line (n : Nat) : Nat := (b0.sstBase + 8 * n) / 64
  let q := (b0.pair (.mgr k)).cpl
  let spillFree (n : Nat) : Prop := (q.base + 32 * (q.w % 2 ^ (6 + q.log2sz))) / 64 ≠ line n
  let spilled (n : Nat) (e : Entry) (b : Blk) : Prop := ∃ l ∈ b.lc.bufs, l.line = line n ∧ lineDword l.data (n % 8) = encodeEntry e
  let known := dom = 0 ∨ (b0.dom dom).st ≠ .absent
  let newName := ∀ x ∈ b0.mapped, ¬ (x.2.domid = dom ∧ x.2.vintid = BitVec.ofNat 24 vi)
  (b0.Takes s.mem k 0x01 d → d.b 1 0 = false →
    (d.f 2 22 20 ≤ 1 → 1792 ≤ i → known → 0xB00 ≤ vi → vi ≤ 0xFFFFFE → newName → b0.sstEn = true → t.valid = false →
      spillFree i → ∃ b, answers (.mapSource (.mgr k)) 0 0 b ∧ spilled i { gen := (b0.dom dom).gen } b ∧
        b.stt i = { valid := true, kind := if d.f 2 22 20 = 0 then .msi else .data, mapgen := raw.mapgen + 1, domid := dom,
                    vintid := BitVec.ofNat 24 vi, pol := d.b 2 24, rank := { cls := 1 } }) ∧
    (d.f 2 22 20 = 2 → i < 1536 → known → 0x400 ≤ vi → vi ≤ 0x9FF → dom ≠ 0 ∨ vi = 0x400 + i → newName → t.valid = false →
      ∃ b, answers (.mapSource (.mgr k)) 0 0 b ∧ b.slot i = { entry := { used := true, gen := (b0.dom dom).gen }, owner := i } ∧
        b.stt i = { valid := true, kind := .edge, mapgen := raw.mapgen + 1, domid := dom, vintid := BitVec.ofNat 24 vi,
                    pol := d.b 2 24, res := true, slot := i, rank := { cls := 1 } }) ∧
    (5 ≤ d.f 2 22 20 → ∃ b, answers (.mapSource (.mgr k)) 4 1 b ∧ b.sram = b0.sram)) ∧
  (b0.Takes s.mem k 0x01 d → d.b 1 0 = true →
    let r : Requester := { valid := d.b 2 16, pmode := d.b 2 17, pcount := d.f 2 31 24 + 1, mbase := d.f 3 18 0,
                           mcount := d.f 4 16 0, cbase := d.f 5 18 0, ccount := d.f 6 16 0 }
    r.mcount ≤ 65536 → r.ccount ≤ 65536 → r.mbase + r.pcount * r.mcount ≤ 524288 → r.cbase + r.pcount * r.ccount ≤ 524288 →
    ∃ b, answers (.mapSource (.mgr k)) 0 0 b ∧ b.sram = { b0.sram with req := tabSet {} b0.sram.req (d.f 2 15 0) r }) ∧
  (b0.Takes s.mem k 0x02 d →
    (t.valid = true → t.kind ≠ .internal → t.res = true → (b0.slot t.slot).entry.act = false → b0.hasCopies i t.mapgen = false →
      ∃ b, answers (.unmapSource (.mgr k)) 0 0 b ∧ b.stt i = { t with valid := false, mapgen := t.mapgen + 1 } ∧
        b.slot t.slot = {} ∧ i ∉ b.rank.parked ∧ i ∉ b.rank.posted ∧ i ∉ b.rings.spillBits ∧ i ∉ b.rings.frozenBits) ∧
    (t.valid = false → ∃ b, answers (.unmapSource (.mgr k)) 4 0xFFFF b ∧ b.sram = b0.sram)) ∧
  (b0.Takes s.mem k 0x09 d → t.valid = true → 1792 ≤ i → spillFree i →
    (d.b 2 20 = true → t.res = false → 1792 ≤ d.f 3 17 0 → (b0.slot (d.f 3 17 0)).entry.used = false →
      b0.shareUsed t.domid < (b0.dom t.domid).sh.rshare →
      ∃ b, answers (.setResidency (.mgr k)) 0 0 b ∧ b.stt i = { t with res := true, slot := d.f 3 17 0 } ∧
        b.slot (d.f 3 17 0) = { entry := { decodeEntry (lineDword (b0.hostLine s.mem (line i)) (i % 8)) with used := true },
                                owner := i }) ∧
    (d.b 2 20 = false → d.f 3 17 0 = 0 → t.res = true → t.rank.cls < 2 → b0.sstEn = true →
      setHas b0.ecc.entryBad t.slot = false → setHas b0.ecc.entryCe t.slot = false →
      ∃ b, answers (.setResidency (.mgr k)) 0 0 b ∧ b.stt i = { t with res := false, slot := 0 } ∧
        b.slot t.slot = { b0.slot t.slot with entry := { (b0.slot t.slot).entry with used := false } } ∧
        spilled i { (b0.slot t.slot).entry with used := false } b))

/-- With no admitted class live and no session open, SET_CLASS writes class, priority and ORD of a mapped source; a
CRITICAL or FIRM class completes with STAGE_REQUIRED, or REFUSED for an internal source; an unmapped index is REFUSED
with 0xFFFF. SET_ENVELOPE writes P, B, DL and IGRP with TAT at the time base and the excess count 0, or attaches the
envelope. SET_TIMER arms the timer of an attachment with TEN at the larger of D and TMIN, disarms it for D = 0, and
does nothing without TEN. RESERVE_SLOTS writes the shadow table of a populated link and stays executing until the
frame boundary, at which the table is live and the record is written. (04_ingress_residency.md, 07_clause_engines.md,
09_admission.md, 10_rings_doorbells.md, R147, R298, R299, R342, R343, R357, R614) -/
def Obligations.ClassesEnvelopesTimers : Prop :=
∀ (s : State) (k : Nat) (d : Desc), k < 8 → s.blk.rings.session = none → s.blk.classesLive = false →
  let b0 := s.blk
  let answers (c : Instr) (st detail : Nat) (b : Blk) : Prop := exec c s = s.becomes b ∧ b0.Answers b d st detail []
  let i := d.f 2 18 0
  let t := b0.stt i
  (b0.Takes s.mem k 0x04 d →
    let c : ClassCfg := { cls := BitVec.ofNat 2 (d.f 3 1 0), prio := BitVec.ofNat 8 (d.f 3 9 2), ord := d.b 3 12 }
    (t.valid = true → c.cls < 2 → ∃ b, answers (.setClass (.mgr k)) 0 0 b ∧ b.stt i = { t with rank := c } ∧
      ∀ j, j ≠ i → b.stt j = b0.stt j) ∧
    (t.valid = true → 2 ≤ c.cls → t.kind ≠ .core → t.kind ≠ .internal →
      ∃ b, answers (.setClass (.mgr k)) 6 0 b ∧ b.sram = b0.sram) ∧
    (t.valid = true → 2 ≤ c.cls → t.kind = .internal → ∃ b, answers (.setClass (.mgr k)) 4 1 b ∧ b.sram = b0.sram) ∧
    (t.valid = false → ∃ b, answers (.setClass (.mgr k)) 4 0xFFFF b ∧ b.sram = b0.sram)) ∧
  (b0.Takes s.mem k 0x05 d → d.b 1 0 = false → d.f 3 23 0 ≠ 0 → d.f 4 15 0 ≠ 0 → d.f 6 3 0 < 12 ∨ d.f 6 3 0 = 15 →
    ∃ b, answers (.setEnvelope (.mgr k)) 0 0 b ∧
      b.env (d.f 2 13 0) = { p := d.f 3 23 0, b := d.f 4 15 0, dl := d.f 5 23 0, tat := b0.now, excess := 0 } ∧
      tabGet 0 b.sram.igrp (d.f 2 13 0) = d.f 6 3 0 ∧ b.sram.stt = b0.sram.stt) ∧
  (b0.Takes s.mem k 0x05 d → d.b 1 0 = true → t.valid = true →
    ∃ b, answers (.setEnvelope (.mgr k)) 0 0 b ∧ b.stt i = { t with env := { envv := d.b 2 20, env := d.f 3 13 0 } }) ∧
  (b0.Takes s.mem k 0x0A d →
    let a := tabGet {} (b0.cl (d.f 2 3 0)).att (d.f 2 25 16)
    let key := 1024 * d.f 2 3 0 + d.f 2 25 16
    ∃ b, answers (.setTimer (.mgr k)) 0 0 b ∧ b.tim.tick = b0.tim.tick ∧ b.tim.armed =
      if a.ten = false then b0.tim.armed
      else if d.f 3 23 0 = 0 then tabDel b0.tim.armed key
      else tabPut b0.tim.armed key (b0.tim.tick + max (d.f 3 23 0) a.tmin)) ∧
  (b0.Takes s.mem k 0x08 d → (b0.link (d.f 2 3 0)).pop = true →
    ∃ b, exec (.reserveSlots (.mgr k)) s = s.becomes b ∧
      b.link (d.f 2 3 0) = { b0.link (d.f 2 3 0) with shad := BitVec.ofNat 64 (d.w 3 + d.w 4 * 2 ^ 32), shadDue := true } ∧
      (b.pair (.mgr k)).exec = [{ seq := d.seq, line := d.line, wait := .slotLive (d.f 2 3 0) }] ∧ b.fp = b0.fp) ∧
  (∀ (n : Nat) (e : Exec), n < 16 → b0.awake = true → b0.ops.prog.spilling = false → b0.time.hclk = 0 → b0.Writes →
    b0.allExec = [(.mgr k, e)] → (b0.pair (.mgr k)).exec = [e] → e.wait = .slotLive n →
    (b0.link n).shadDue = true →
    ∃ b, exec (.slotTableLive n) s = s.becomes b ∧ (b.link n).live = (b0.link n).shad ∧ (b.link n).shadDue = false ∧
      (b.pair (.mgr k)).exec = [] ∧ b0.Records b (.mgr k) e.seq (lineWord e.line 0 % 256).toNat
        ((lineWord e.line 0).toNat / 65536) 0 0 [])

/-- SET_ROUTE of an entry or a group makes it live at once: EPOCH turns, the entry reads as written, a group holds the
members of its mask, resynchronisation and a parked rescan begin; its attach form writes the route of a mapped source
of the same domain. ATTACH_CLAUSE writes the attachment, zeroes its history window and attaches the source; detaching
keeps the entry. LOAD_CLAUSE of a sound image whose region nothing uses writes every program and data word and makes
the region valid with its extent. (05_ranking_routing.md, 07_clause_engines.md, 08_clause_isa.md,
10_rings_doorbells.md, R194, R196, R198, R263, R266, R336, R378, Table 8-8) -/
def Obligations.RoutesAndPrograms : Prop :=
∀ (s : State) (k : Nat) (d : Desc), k < 8 → s.blk.rings.session = none → s.blk.classesLive = false →
  let b0 := s.blk
  let answers (c : Instr) (b : Blk) : Prop := exec c s = s.becomes b ∧ b0.Answers b d 0 0 []
  let i := d.f 2 18 0
  let t := b0.stt i
  let dom := d.f 3 11 0
  let steady := b0.rank.resync = false ∧ b0.oldCnt = 0 ∧ b0.rank.dirtyR = [] ∧ b0.rank.dirtyG = []
  let turned (b : Blk) : Prop := b.rank.epoch = !b0.rank.epoch ∧ b.rank.resync = true ∧ b.rank.rescan.isSome = true
  let live (b : Blk) : RtCopy := if b.rank.epoch then b.rank.copy1 else b.rank.copy0
  let shadow : RtCopy := if b0.rank.epoch then b0.rank.copy0 else b0.rank.copy1
  let fits (ms : List Nat) : Prop := ∀ v ∈ ms, v < b0.nctxOf dom ∧ (dom = 0 → b0.ctxPop v = true)
  (b0.Takes s.mem k 0x03 d → d.f 1 1 0 = 0 → steady →
    let r : Route := { valid := d.b 2 16, domid := dom, kind := BitVec.ofNat 2 (d.f 3 13 12), gch := d.f 3 19 16,
                       target := d.f 4 9 0, group := d.f 4 26 16 }
    (r.valid = true → r.kind = 0 → fits [r.target]) → (r.valid = true → r.kind ≠ 0 → (shadow.group r.group).domid = dom) →
    ∃ b, answers (.setRoute (.mgr k)) b ∧ turned b ∧ b.liveRoute (d.f 2 12 0) = r ∧
      ∀ j, j ≠ d.f 2 12 0 → b.liveRoute j = shadow.route j) ∧
  (b0.Takes s.mem k 0x03 d → d.f 1 1 0 = 1 → steady →
    let at_ := (d.w 5 * 2 ^ 32 + d.w 4) / 64
    let mask := lineBytes (b0.hostLine s.mem at_) 0 16 ++ lineBytes (b0.hostLine s.mem (at_ + 1)) 0 16
    let ms := (List.range 1024).filter (fun v => (mask.getD (v / 8) 0).getLsbD (v % 8))
    seededCrc (d.f 2 10 0 + 5 * 2 ^ 24) (bits (64 * at_) 36 5) mask = lineWord d.line 6 → fits ms →
    ∃ b, answers (.setRoute (.mgr k)) b ∧ turned b ∧ (live b).group (d.f 2 10 0) = { domid := dom, members := ms }) ∧
  (b0.Takes s.mem k 0x03 d → d.f 1 1 0 = 2 → t.valid = true → t.kind ≠ .core → t.rank.cls < 2 →
    (d.b 2 20 = true → (b0.liveRoute (d.f 3 12 0)).domid = t.domid) →
    ∃ b, answers (.setRoute (.mgr k)) b ∧ b.stt i = { t with route := { rv := d.b 2 20, ridx := d.f 3 12 0 } }) ∧
  (let clus := d.f 2 27 24
   let aidx := d.f 3 9 0
   let a := d.attach
   let g := tabGet {} (b0.cl clus).regions a.region
   (b0.Takes s.mem k 0x07 d → d.b 2 20 = true → d.b 2 21 = false → t.valid = true → t.kind = .msi ∨ t.kind = .data ∨ t.kind = .edge →
    a.budget ≠ 0 → a.hbase + a.hlen ≤ 4096 → a.tbase + a.tlen ≤ 4096 → a.tmin ≠ 0 →
    g.valid = true → g.pbase ≤ a.paddr.toNat → a.paddr.toNat < g.pbase + g.plen → a.ten = false → t.rank.cls < 2 →
    ∃ b, answers (.attachClause (.mgr k)) b ∧ tabGet {} (b.cl clus).att aidx = a ∧
      b.stt i = { t with clause := { cv := true, clus := clus, aidx := aidx } } ∧
      (∀ j < a.hlen, tabGet 0 (b.cl clus).data (a.hbase + j) = 0) ∧
      (∀ j, j < a.hbase ∨ a.hbase + a.hlen ≤ j → tabGet 0 (b.cl clus).data j = tabGet 0 (b0.cl clus).data j)) ∧
   (b0.Takes s.mem k 0x07 d → d.b 2 20 = false → t.valid = true → t.kind = .msi ∨ t.kind = .data ∨ t.kind = .edge →
    ∃ b, answers (.attachClause (.mgr k)) b ∧ b.stt i = { t with clause := { t.clause with cv := false } } ∧ b.cls = b0.cls)) ∧
  (b0.Takes s.mem k 0x06 d → ∀ (h : ImgHead), imgHead (b0.hostLine s.mem (d.lineAt 3)) = some h →
    let clus := d.f 2 3 0
    let ws := (List.range ((8 + h.plen + h.dlen + 15) / 16)).flatMap (fun j =>
      (List.range 16).map (lineWord (b0.hostLine s.mem (d.lineAt 3 + j))))
    0 < h.plen → (∀ j < h.plen + h.dlen, (ws.getD (8 + j) 0).toNat < 2 ^ 24) → imgCheck clus h ws = h.check →
    b0.regionsInUse clus = [] →
    ∃ b, answers (.loadClause (.mgr k)) b ∧
      tabGet {} (b.cl clus).regions h.region = { valid := true, pbase := h.pbase, plen := h.plen } ∧
      (∀ j < h.plen, tabGet 0 (b.cl clus).prog (h.pbase + j) = (ws.getD (8 + j) 0).setWidth 24) ∧
      (∀ j < h.dlen, tabGet 0 (b.cl clus).data (h.dbase + j) = (ws.getD (8 + h.plen + j) 0).setWidth 24))

/-- STAGE_BEGIN opens a session for a ring whose agent holds the Setup Lock, and completes with LOCK otherwise. In the
ring's session a SET_CLASS is staged and changes no live source; on another ring it completes with LOCK. COMMIT with a
free Sequencer waits for the frame boundary when the admission check of the resulting configuration accepts; when it
refuses, the record carries ADMISSION and the report, the session ends and the floor returns to FLOOR_LIVE.
COMMIT_SWITCH makes the staged class live, ends the session, makes the floor live and writes the record. ABANDON ends
the session and changes no source. COMMIT or ABANDON without the session completes with LOCK. (09_admission.md,
10_rings_doorbells.md, R344, R353, R355, R385, R386, Table 10-8) -/
def Obligations.SessionsCommitOrEnd : Prop :=
∀ (s : State) (k : Nat) (d : Desc) (i : Nat) (c : ClassCfg), k < 8 →
  let b0 := s.blk
  let r := RingId.mgr k
  let answers (c : Instr) (st : Nat) (res : List Word) (b : Blk) : Prop := exec c s = s.becomes b ∧ b0.Answers b d st 0 res
  let same (b : Blk) : Prop := b.sram = b0.sram ∧ b.rings.session = b0.rings.session
  let ends (b : Blk) : Prop := b.rings.session = none ∧ b.sram.stt = b0.sram.stt ∧ b.clk.floor = b0.clk.floorLive
  let held := b0.lock.held = true ∧ b0.lock.owner = (b0.pair r).agent
  let sess (l : List Staged) : Session := { ring := r, staged := l }
  (b0.Takes s.mem k 0x10 d →
    (b0.rings.session = none → held → ∃ b, answers (.stageBegin r) 0 [] b ∧ b.rings.session = some (sess []) ∧ b.sram = b0.sram) ∧
    (b0.rings.session ≠ none ∨ ¬ held → ∃ b, answers (.stageBegin r) 7 [] b ∧ same b)) ∧
  (b0.Takes s.mem k 0x04 d → (b0.stt (d.f 2 18 0)).valid = true → (b0.stt (d.f 2 18 0)).kind = .data →
    (b0.rings.session = some (sess []) → ∃ b, answers (.setClass r) 0 [] b ∧ b.sram = b0.sram ∧
      b.rings.session = some (sess [.cls (d.f 2 18 0) { cls := BitVec.ofNat 2 (d.f 3 1 0), prio := BitVec.ofNat 8 (d.f 3 9 2),
                                                        ord := d.b 3 12 }])) ∧
    (∀ x, b0.rings.session = some x → x.ring ≠ r → ∃ b, answers (.setClass r) 7 [] b ∧ same b)) ∧
  (b0.Takes s.mem k 0x11 d → b0.rings.session = some (sess [.cls i c]) → b0.seqFree = true → b0.lock.relPend = false →
    let rep := b0.staging.checkAdmission
    (rep.code = 0 → ∃ b, exec (.commit r) s = s.becomes b ∧ same b ∧ b.fp = b0.fp ∧
      (b.pair r).exec = [{ seq := d.seq, line := d.line, wait := .commit rep }]) ∧
    (rep.code ≠ 0 → ∃ b, answers (.commit r) 8 [BitVec.ofNat 32 (rep.code % 256 + rep.rkind % 16 * 256 + rep.rnum % 65536 * 4096),
        BitVec.ofNat 32 (rep.src % 2 ^ 19), BitVec.ofNat 32 rep.bound, BitVec.ofNat 32 rep.limit] b ∧ ends b)) ∧
  (∀ (e : Exec) (rep : Report), b0.rings.session = some (sess [.cls i c]) → b0.awake = true → b0.ops.prog.spilling = false →
    b0.dbg.haltSeq = false → b0.time.hclk = 0 → b0.lock.relPend = false →
    b0.allExec = [(r, e)] → (b0.pair r).exec = [e] → e.wait = .commit rep →
    ∃ b, exec .commitSwitch s = s.becomes b ∧ b.rings.session = none ∧ b.clk.floorLive = b0.clk.floor ∧
      tabGet {} b.sram.stt i = { tabGet {} b0.sram.stt i with rank := c } ∧
      (∀ j, j ≠ i → tabGet {} b.sram.stt j = tabGet {} b0.sram.stt j) ∧ (b.pair r).exec = [] ∧
      (b.pair r).cpl.w = ((b0.pair r).cpl.w + 1) % 2 ^ 24) ∧
  (b0.Takes s.mem k 0x12 d → b0.rings.session = some (sess [.cls i c]) → b0.lock.relPend = false →
    ∃ b, answers (.abandon r) 0 [] b ∧ ends b) ∧
  (∀ op row, (op, row) ∈ [(0x11, Instr.commit r), (0x12, .abandon r)] → b0.Takes s.mem k op d → b0.rings.session = none →
    ∃ b, answers row 7 [] b ∧ same b)

/-- SEND_CORE_MSG to one target is one arrival at the core message of that number; a target beyond the domain's
contexts is skipped and counted in DETAIL; the record follows the arrival. QUERY_STATE answers the entry of a resident
source with its index, residency and class; the excess count of an envelope, which it clears; a domain's slot count,
queue occupancy, generation and state. CACHE_FLUSH with nothing dirty completes at once; a dirty line passes to a free
line buffer, stays valid and clean, and the record waits. CACHE_INVALIDATE of scope all drops every line and counts
and reports each dirty one. (05_ranking_routing.md, 10_rings_doorbells.md, 11_domains_migration.md, R144, R205, R206,
R379, R380, R399, R400, R402, R406) -/
def Obligations.MessagesQueriesCacheCommands : Prop :=
∀ (s : State) (k : Nat) (d : Desc), k < 8 →
  let b0 := s.blk
  let r := RingId.mgr k
  let answers (c : Instr) (detail : Nat) (res : List Word) (b : Blk) : Prop := exec c s = s.becomes b ∧ b0.Answers b d 0 detail res
  let dom := d.f 2 11 0
  let v := d.f 3 9 0
  (b0.Takes s.mem k 0x30 d → b0.arrivalsWait r d.seq = false → d.f 2 17 16 = 0 → d.f 2 19 18 = 0 → d.f 3 25 16 = 0 → d.f 4 9 0 = 0 → d.f 4 25 16 = 0 →
    (∀ t, v < (b0.dom dom).sh.cmcount → b0.AtSlot ((b0.dom dom).sh.cmbase + v) t → t.kind = .core → t.clause.cv = false →
      t.domid = dom → let e := b0.entry t
      e.dlv = false → e.act = true → e.gen = (b0.dom dom).gen →
      ∃ b, answers (.sendCoreMsg r) 0 [] b ∧ b.entry t = { e with
        pend := true, stamp := if e.pend then e.stamp else b0.now.extractLsb' 6 14, rclass := t.rank.cls, rprio := t.rank.prio,
        dem := false, rtv := false }) ∧
    ((b0.dom dom).sh.cmcount ≤ v → ∃ b, answers (.sendCoreMsg r) 1 [] b ∧ b.sram = b0.sram)) ∧
  (b0.Takes s.mem k 0x31 d →
    (d.f 1 1 0 = 0 → ∀ i t, b0.findSource dom (BitVec.ofNat 24 (d.f 3 23 0)) = some i → b0.stt i = t → t.res = true → i < 524288 →
      ∃ b, answers (.queryState r) 0 [(encodeEntry (b0.slot t.slot).entry).extractLsb' 0 32,
        (encodeEntry (b0.slot t.slot).entry).extractLsb' 32 32,
        BitVec.ofNat 32 (i + 2 ^ 20 + t.rank.cls.toNat * 2 ^ 21)] b ∧ b.sram = b0.sram) ∧
    (d.f 1 1 0 = 1 → let n := d.f 2 13 0
      ∃ b, answers (.queryState r) 0 [(b0.env n).excess.setWidth 32] b ∧ b.env n = { b0.env n with excess := 0 }) ∧
    (d.f 1 1 0 = 2 → (b0.dom dom).st = .live → let x := b0.dom dom
      ∃ b, answers (.queryState r) 0 [BitVec.ofNat 32 (b0.shareUsed dom), BitVec.ofNat 32 (seqDist x.elq.ring.r x.elq.ring.w),
        BitVec.ofNat 32 (x.gen.toNat + 256)] b ∧ b.sram = b0.sram)) ∧
  (b0.Takes s.mem k 0x38 d → d.b 1 0 = false →
    ((∀ l ∈ b0.lc.lines, l.dirty = false) → ∃ b, answers (.cacheFlush r) 0 [] b ∧ 
      b.lc = { b0.lc with dropped := 0, missCnt := satInc (satInc b0.lc.missCnt) }) ∧
    (∀ l, b0.lc.lines = [l] → l.dirty = true →
      ∃ b, exec (.cacheFlush r) s = s.becomes b ∧
        b.lc = { b0.lc with lines := [{ l with dirty := false }], bufs := [l], missCnt := satInc b0.lc.missCnt } ∧
        b.fp = b0.fp ∧ (b.pair r).exec = [{ seq := d.seq, line := d.line, wait := .flush [] [l.line] 1 true }])) ∧
  (b0.Takes s.mem k 0x39 d → d.b 1 0 = false → b0.lc.fills = [] →
    let n := (b0.lc.lines.filter (·.dirty)).length
    ∃ b, answers (.cacheInvalidate r) 0 [] b ∧
      b.lc = { b0.lc with lines := [], invalSince := true, missCnt := satInc (satInc b0.lc.missCnt),
                          dropped := BitVec.ofNat 8 (min (b0.lc.dropped.toNat + n) 255) } ∧
      (List.replicate n 0x0E).Sublist (b.lane 24).reports)

/-- SET_SHARE creates an absent domain LIVE with its shares, its core-message run and a free run of Virtual Context
Table entries, its generation kept; it changes the shares of an existing one; RINGS enables the DISABLED rings of a
LIVE domain with counts 0. FREEZE_DOMAIN makes a LIVE domain of which nothing runs FREEZING and stays executing; at
the boundary, with nothing outstanding, it is FROZEN and the record is written. THAW_DOMAIN of a FROZEN domain that no
restore has written makes it LIVE. RESET_DOMAIN of a domain without sources advances the generation and keeps shares
and state; while an item carries the generation it is to assign, it is RESETTING and the command stays executing. With
the Sequencer free every one of these five that names domain 0 or an absent domain is REFUSED with DETAIL 1, and one
that names a domain in FREEZING, RESTORING or RESETTING completes with BUSY. (10_rings_doorbells.md,
11_domains_migration.md, R391, R406, R408, R409, R412, R432, R437, R438, R448, R450) -/
def Obligations.DomainsAreCreatedAndFrozen : Prop :=
∀ (s : State) (k : Nat) (d : Desc), k < 8 →
  let b0 := s.blk
  let r := RingId.mgr k
  let answers (c : Instr) (st detail : Nat) (b : Blk) : Prop := exec c s = s.becomes b ∧ b0.Answers b d st detail []
  let dom := d.f 2 11 0
  let x := b0.dom dom
  let noRings := x.pair.st = .disabled ∧ x.elq.st = .disabled
  let still := b0.sourcesOf dom = [] ∧ x.timers = [] ∧ x.expired = [] ∧ ∀ i ∈ b0.rings.frozenBits, (b0.stt i).domid ≠ dom
  let q (n : Nat) : RingQ := { base := d.w (n + 1) * 2 ^ 32 + d.f n 31 12 * 2 ^ 12, log2sz := d.f n 3 0 }
  let sh (y : Shares) : Shares := { y with rshare := d.f 3 18 0, elimit := d.f 4 23 0, rweight := d.f 5 7 0, eweight := d.f 5 15 8 }
  (b0.Takes s.mem k 0x0B d → d.f 1 1 0 = 0 → d.f 5 7 0 ≠ 0 → d.f 5 15 8 ≠ 0 →
    (∀ v, d.b 2 16 = true → dom ≠ 0 → x.st = .absent → 0 < d.f 7 10 0 → d.f 7 10 0 ≤ 1024 → 1792 ≤ d.f 6 18 0 →
      d.f 6 18 0 + d.f 7 10 0 ≤ 524288 → b0.runFree dom (d.f 6 18 0) (d.f 7 10 0) = true →
      b0.freeVct dom (d.f 7 10 0) = some v →
      ∃ b, answers (.setShare r) 0 0 b ∧
        b.dom dom = { st := .live, gen := x.gen, sh := { sh {} with cmbase := d.f 6 18 0, cmcount := d.f 7 10 0, vbase := v } } ∧
        ∀ j < d.f 7 10 0, b.vctx dom j = {}) ∧
    (d.b 2 16 = false → dom ≠ 0 → x.st = .live → x.elq.st = .disabled → d.f 6 18 0 = 0 → d.f 7 10 0 = 0 →
      ∃ b, answers (.setShare r) 0 0 b ∧ b.dom dom = { x with sh := sh x.sh } ∧ b.sram.stt = b0.sram.stt)) ∧
  (b0.Takes s.mem k 0x0B d → d.f 1 1 0 = 1 → dom ≠ 0 → x.st = .live → noRings →
    d.f 4 3 0 ≤ 10 → d.f 6 3 0 ≤ 10 → d.f 8 3 0 ≤ 10 → d.b 2 16 = true → d.b 2 17 = true →
    ∃ b, answers (.setShare r) 0 0 b ∧ (b.dom dom).pair.st = .enabled ∧ (b.dom dom).pair.cmd = q 4 ∧ (b.dom dom).pair.cpl = q 6 ∧
      (b.dom dom).elq = { ring := q 8, st := .enabled } ∧ (b.dom dom).cnote = d.b 2 18 ∧ (b.dom dom).enote = d.b 2 19 ∧
      (b.dom dom).nctx = d.f 3 9 0 ∧ ∃ w ∈ b.fp.out, w.kind = .header dom ∧ w.line = (q 8).base / 64) ∧
  (b0.Takes s.mem k 0x20 d → dom ≠ 0 → x.st = .live → b0.anyRuns dom = false → b0.federated dom = false →
    ∃ b, exec (.freezeDomain r) s = s.becomes b ∧ (b.dom dom).st = .freezing ∧ (b.dom dom).fetchTo = some x.pair.cmd.w ∧
      b.fp = b0.fp ∧ (b.pair r).exec = [{ seq := d.seq, line := d.line, wait := .freeze dom }]) ∧
  (∀ (g : Nat) (e : Exec), g < 4096 → b0.awake = true → b0.ops.prog.spilling = false → (b0.dom g).st = .freezing → b0.heldOf g = [] → b0.drained g = true →
    b0.allExec = [(r, e)] → (b0.pair r).exec = [e] → e.wait = .freeze g →
    ∃ b, exec (.freezeBoundary g) s = s.becomes b ∧ b.dom g = { b0.dom g with st := .frozen } ∧ (b.pair r).exec = [] ∧
      (b.pair r).cpl.w = ((b0.pair r).cpl.w + 1) % 2 ^ 24) ∧
  (b0.Takes s.mem k 0x23 d → dom ≠ 0 → x.st = .frozen → x.restored = false → still →
    ∃ b, answers (.thawDomain r) 0 0 b ∧ (b.dom dom).st = .live ∧ (b.dom dom).pair = x.pair ∧ (b.dom dom).elq = x.elq ∧
      (b.dom dom).gen = x.gen ∧ (b.dom dom).fetchTo = none) ∧
  (b0.Takes s.mem k 0x24 d → dom ≠ 0 → x.st = .live ∨ x.st = .frozen → noRings → b0.sourcesOf dom = [] → b0.entriesDone dom = true →
    (b0.genInFlight dom (x.gen + 1) = false →
    ∃ b, answers (.resetDomain r) 0 0 b ∧ (b.dom dom).st = x.st ∧ (b.dom dom).gen = x.gen + 1 ∧ (b.dom dom).sh = x.sh ∧
      b.sram.stt = b0.sram.stt) ∧
    (b0.genInFlight dom (x.gen + 1) = true →
      ∃ b, exec (.resetDomain r) s = s.becomes b ∧ (b.dom dom).st = .resetting ∧ (b.dom dom).gen = x.gen ∧
        (b.pair r).exec = [{ seq := d.seq, line := d.line, wait := .generation dom }])) ∧
  (∀ op c, (op, c) ∈ [(0x20, Instr.freezeDomain r), (0x21, .snapshotDomain r), (0x22, .restoreDomain r), (0x23, .thawDomain r),
      (0x24, .resetDomain r)] → b0.Takes s.mem k op d → b0.seqFree = true →
    (dom = 0 ∨ x.st = .absent → ∃ b, answers c 4 1 b ∧ b.sram = b0.sram) ∧
    (dom ≠ 0 → x.st = .freezing ∨ x.st = .resetting ∨ x.st = .restoring → ∃ b, answers c 10 0 b ∧ b.sram = b0.sram))

/-- A word of SET_SHARE that makes an entry of a LIVE domain run on a populated context of domain 0 with no copy of
domain 0 there sets RUN and PCTX and begins a posted rescan; the record is written at once. A switch that waits ends
the same way at VCTX_SWITCH_END. SNAPSHOT_DOMAIN of a FROZEN domain advances SNAPSEQ, issues the lines after the
header in ascending order and waits; an image larger than LIMIT is REFUSED with DETAIL 1. RESTORE_DOMAIN of a sound
image without records that fits the FROZEN domain makes it RESTORING and stays executing until the second reading,
which follows a command once it is due: when that finds the image as it was, the domain line is recorded, the domain
is in its former state and the record carries OK; one whose header does not match Table 11-7 completes with FORMAT,
one whose CHECK differs with CHECK, and neither changes the domain. (11_domains_migration.md, 12_federation.md, R416,
R418, R419, R421, R427, R439, R441, R443, R444, R445) -/
def Obligations.ContextsSwitchAndImagesMove : Prop :=
∀ (s : State) (k : Nat) (d : Desc), k < 8 →
  let b0 := s.blk
  let r := RingId.mgr k
  let answers (c : Instr) (st detail : Nat) (b : Blk) : Prop := exec c s = s.becomes b ∧ b0.Answers b d st detail []
  let dom := d.f 2 11 0
  let x := b0.dom dom
  let v := d.f 3 9 0
  let p := d.f 3 25 16
  let runs (b : Blk) (dom v p : Nat) : Prop := b.vctx dom v = { run := true, pctx := p } ∧ b.rank.postScan.isSome = true
  (b0.Takes s.mem k 0x0B d → d.f 1 1 0 = 2 → d.b 3 31 = true → d.b 3 30 = true → d.b 4 31 = false → d.b 5 31 = false →
    d.b 6 31 = false → b0.rings.session = none → b0.classesLive = false → dom ≠ 0 → x.st = .live → v < x.sh.cmcount →
    b0.ctxPop p = true → b0.ownerOf p = 0 → b0.vctx dom v = {} → b0.fed.loaded = false → b0.handlesAt 0 p = [] →
    ∃ b, answers (.setShare r) 0 0 b ∧ runs b dom v p ∧ ∀ u, u < x.sh.cmcount → u ≠ v → b.vctx dom u = b0.vctx dom u) ∧
  (∀ (e : Exec) (g u c : Nat), b0.awake = true → b0.ops.prog.spilling = false → b0.rings.session = none → b0.fed.loaded = false → (b0.pair r).exec = [e] → e.wait = .vctx g [.into u c] →
    u < (b0.dom g).sh.cmcount → b0.vctx g u = { run := false, pctx := c, sw := true } →
    (b0.handlesAt 0 c = [] → ∃ b, exec (.vctxSwitchEnd k) s = s.becomes b ∧ runs b g u c ∧ (b.pair r).exec = [] ∧
      (b.pair r).cpl.w = ((b0.pair r).cpl.w + 1) % 2 ^ 24) ∧
    (b0.handlesAt 0 c ≠ [] → ∃ b, exec (.vctxSwitchEnd k) s = s.becomes b ∧ b.vctx g u = b0.vctx g u ∧ (b.pair r).exec = [e])) ∧
  (b0.Takes s.mem k 0x21 d → dom ≠ 0 → x.st = .frozen → b0.seqFree = true → b0.arb.stuck = [] →
    let body := b0.snapBody s.mem dom
    let n := body.length / 16
    (n + 1 ≤ d.f 5 23 0 → ∃ b, exec (.snapshotDomain r) s = s.becomes b ∧ (b.dom dom).st = .frozen ∧
      b.rings.snapSeq = (b0.rings.snapSeq + 1) % 2 ^ 24 ∧ (b.pair r).cpl = (b0.pair r).cpl ∧
      b.fp.out = b0.fp.out ++ (List.range n).map (fun j =>
        { line := d.lineAt 3 + 1 + j, data := lineOfWords ((body.drop (16 * j)).take 16), kind := .snapshot }) ∧
      ∃ hdr, (b.pair r).exec =
        [{ seq := d.seq, line := d.line,
           wait := .snapBody ((List.range n).map (fun j => d.lineAt 3 + 1 + j)) (d.lineAt 3) hdr (n + 1) }]) ∧
    (d.f 5 23 0 < n + 1 → ∃ b, answers (.snapshotDomain r) 4 1 b ∧ b.sram = b0.sram ∧ b.rings.snapSeq = b0.rings.snapSeq)) ∧
  (b0.Takes s.mem k 0x22 d → dom ≠ 0 → x.st = .frozen → b0.seqFree = true →
    let head := b0.hostLine s.mem (d.lineAt 3)
    let line := b0.hostLine s.mem (d.lineAt 3 + 1)
    let ws := (List.range 16).map (lineWord head) ++ (List.range 16).map (lineWord line)
    let w (j : Nat) : Nat := (lineWord line j).toNat
    (snapHeadOk head = false → ∃ b, answers (.restoreDomain r) 1 0 b ∧ b.dom dom = x) ∧
    (snapHeadOk head = true → (lineWord head 2).toNat = 2 → (lineWord head 5).toNat = 0 → (lineWord head 6).toNat = 0 →
      (lineWord head 7).toNat = 0 → domLineOk ((List.range 16).map (lineWord line)) = true →
      (snapSound head ws = false → ∃ b, answers (.restoreDomain r) 2 0 b ∧ b.dom dom = x ∧ 0x43 ∈ (b.lane 24).reports) ∧
      (snapSound head ws = true → w 0 = x.sh.cmcount → bit (w 1) 28 = false → bit (w 3) 28 = false → bit (w 5) 28 = false →
        ∃ b, exec (.restoreDomain r) s = s.becomes b ∧ b.dom dom = { x with st := .restoring, back := .frozen } ∧
          (b.pair r).exec = [{ seq := d.seq, line := d.line, wait := .secondReading dom (lineWord head 15) false }]))) ∧
  (∀ (c : Word), d.ring = r → d.op = 0x22 → b0.Writes → b0.awake = true → b0.ops.prog.spilling = false → b0.dbg.haltSeq = false →
    let e : Exec := { seq := d.seq, line := d.line, wait := .secondReading dom c true }
    b0.allExec = [(r, e)] → (b0.pair r).exec = [e] → b0.entriesDone dom = true →
    let head := b0.hostLine s.mem (d.lineAt 3)
    let line := b0.hostLine s.mem (d.lineAt 3 + 1)
    let ws := (List.range 16).map (lineWord head) ++ (List.range 16).map (lineWord line)
    let w (j : Nat) : Nat := (lineWord line j).toNat
    (lineWord head 2).toNat = 2 → (lineWord head 5).toNat = 0 → (lineWord head 6).toNat = 0 → (lineWord head 7).toNat = 0 →
    domLineOk ((List.range 16).map (lineWord line)) = true → snapSound head ws = true → lineWord head 15 = c →
    ∃ l, b0.Records (b0.waitsGo s.mem) r d.seq d.op d.tag 0 0 [] ∧ ((b0.waitsGo s.mem).pair r).exec = [] ∧
      (b0.waitsGo s.mem).dom dom = { x with st := x.back, restored := true, line := some l, timers := [] } ∧
      l.cmd.w = w 2 ∧ l.cmd.r = w 1 % 2 ^ 24 ∧ l.cpl.w = w 3 % 2 ^ 24 ∧ l.cpl.r = w 4 ∧ l.elq.w = w 5 % 2 ^ 24 ∧
      l.elq.r = w 6 ∧ l.overflow = bit (w 5) 29 ∧ l.lost = lineWord line 7 ∧ l.cplBase = lineWord line 9 ∧
      l.elqBase = lineWord line 10)

/-- The timer sends HELLO to each other member not joined. A HELLO in sequence is acknowledged and answered; a
HELLO_ACK is acknowledged. The first row of Table 12-3 that applies is recorded: a differing PROTO sets PROTO_MIS, a
HUBID of this Hub or outside MEMBERS discards the message with CONFLICT, a differing FEDID or DIGEST sets DIGEST_MIS,
a differing FWVER sets FW_DIFF and lets the join proceed, the Hub of lower number sending TIME_REQ. A message out of
sequence changes nothing. ACK retires the message it names and those before it; a resend repeats what is
unacknowledged, in order. (12_federation.md, R454, R458, R459, R460, R462, Table 12-3) -/
def Obligations.PeersGreetAndJoin : Prop :=
∀ (s : State) (p seq : Nat), s.blk.awake = true → s.blk.fed.en = true → p < 4 →
  let b0 := s.blk
  let f := b0.fed
  let x := b0.peer p
  let own := b0.hctl.fwver
  (f.loaded = true → ∃ b, exec .helloTimer s = s.becomes b ∧ ∀ q < 4, b.peer q =
    if f.members.getLsbD q = true ∧ q ≠ f.hubid ∧ (b0.peer q).joined = false then
      { b0.peer q with ct := (b0.peer q).ct.sent (.hello 2 own f.hubid f.fedid f.digest) } else b0.peer q) ∧
  (∀ (proto fw hubid fedid : Nat) (digest : Word) (c : Instr) (ct : ZClass),
    (c, ct) ∈ [(Instr.hello p seq proto fw hubid fedid digest, x.ct.took.sent (.helloAck 2 own f.hubid f.fedid f.digest)),
               (Instr.helloAck p seq proto fw hubid fedid digest, x.ct.took)] →
    (seq ≠ x.ct.rx → b0.inj.arm = [] → setHas b0.fp.badIn 7 = false → exec c s = s.becomes b0) ∧
    (b0.Hears p false seq →
      let now (y : Peer) (rep : List Nat) : Prop := ∃ b, exec c s = s.becomes b ∧ b.peer p = y ∧
        (∀ q, q ≠ p → b.peer q = b0.peer q) ∧ (b.lane 24).reports = (b0.lane 24).reports ++ rep
      let known : Prop := f.members.getLsbD hubid = true ∧ hubid ≠ f.hubid
      let same : Prop := fedid = f.fedid ∧ digest = f.digest
      (proto ≠ 2 → now { x with ct := ct, protoMis := true, fwver := fw } (if x.protoMis then [] else [0x78])) ∧
      (proto = 2 → ¬ known → now { x with ct := x.ct.took } [0x7A]) ∧
      (proto = 2 → known → ¬ same → now { x with ct := ct, protoMis := false, digestMis := true, fwver := fw }
        (if x.protoMis = false ∧ x.digestMis = true then [] else [0x78])) ∧
      (proto = 2 → known → same → x.joined = false → x.joining = false →
        now { x with
          ct := if f.hubid < p then ct.sent (.timeReq b0.now) else ct, t1 := if f.hubid < p then some b0.now else x.t1,
          protoMis := false, digestMis := false, fwDiff := decide (fw ≠ own), fwver := fw, joining := true }
        (if x.protoMis = false ∧ x.digestMis = false ∧ x.fwDiff = decide (fw ≠ own) then [] else [0x78])))) ∧
  (∀ event : Bool,
    let z (b : Blk) : ZClass := if event then (b.peer p).ev else (b.peer p).ct
    (∀ pre msg post, setHas b0.fp.badIn (if event then 6 else 7) = false → (z b0).unacked = pre ++ (seq, msg) :: post → (∀ y ∈ pre, y.1 ≠ seq) →
      ∃ b, exec (.zblAck p event seq) s = s.becomes b ∧ z b = { z b0 with unacked := post }) ∧
    ∃ b, exec (.zblResend p event) s = s.becomes b ∧ z b = { z b0 with wire := (z b0).wire ++ (z b0).unacked })

/-- The timer sends TIME_REQ with the time base to each joined peer of higher number without a measurement in
progress. TIME_REQ is answered with T1, T2 and T3; a join that waited for it is then complete: joined, raised, a
parked rescan, and OWN for every virtual context of this Hub that runs. TIME_RSP gives OFFSET = ((T2 - T1) - (T4 -
T3)) / 2, held to 32 bits, and DELAY = (T4 - T1) - (T3 - T2), and reports OFFSET negated. The pair is out of range
beyond 1,000 ns and in range again after two measurements within it; a timeout counts as out of range. OWN replaces
the view; one that differs from it counts a conflict. (12_federation.md, R460, R462, R463, R466, R467, Table 12-6) -/
def Obligations.OffsetsAndViewsAreKept : Prop :=
∀ (s : State) (p seq : Nat),
  let b0 := s.blk
  let f := b0.fed
  let x := b0.peer p
  let ranged (y : Peer) (out : Bool) : Peer :=
    if out then { y with offsetOut := true, good := 0 }
    else if y.offsetOut = false then y
    else if y.good = 0 then { y with good := 1 } else { y with offsetOut := false, good := 0 }
  (b0.awake = true → f.en = true → ∃ b, exec .timeMeasureTimer s = s.becomes b ∧ ∀ q < 4, b.peer q =
    if (b0.peer q).joined = true ∧ f.hubid < q ∧ (b0.peer q).t1 = none then
      { b0.peer q with t1 := some b0.now, ct := (b0.peer q).ct.sent (.timeReq b0.now) } else b0.peer q) ∧
  (b0.awake = true → f.en = true → p < 4 → x.t1 ≠ none → ∃ b, exec (.timeMeasurementTimeout p) s = s.becomes b ∧
    b.peer p = { x with t1 := none, joining := false, offsetOut := true, good := 0 }) ∧
  (b0.Hears p false seq →
    (∀ t1 : Dword,
      let ct := x.ct.took.sent (.timeRsp t1 b0.now b0.now)
      (x.joining = false → ∃ b, exec (.timeReq p seq t1) s = s.becomes b ∧ b.peer p = { x with ct := ct }) ∧
      (x.joining = true → ∃ b, exec (.timeReq p seq t1) s = s.becomes b ∧ (b.peer p).joined = true ∧
        (b.peer p).joining = false ∧ (b.lane 24).reports = (b0.lane 24).reports ++ [0x78] ∧ b.rank.rescan.isSome = true ∧
        (f.doms = [] → b.peer p = { x with ct := ct, joined := true, joining := false }) ∧
        ∀ d fd v, (d, fd) ∈ f.doms → v < fd.cmcount → v < 1024 → b0.remoteHome d v = none → (b0.vctx d v).run = true →
          (b0.vctx d v).sw = false → ∃ q, (q, ZMsg.own d v true) ∈ (b.peer p).ct.wire)) ∧
    (∀ t1 t2 t3 : Dword,
      let n (t : Dword) : Int := t.toNat
      let off := ((n t2 - n t1) - (n b0.now - n t3)).tdiv 2
      let held (v : Int) : Word := BitVec.ofInt 32 (max (-2 ^ 31) (min v (2 ^ 31 - 1)))
      (x.t1 = some t1 → x.joining = false → ∃ b, exec (.timeRsp p seq t1 t2 t3) s = s.becomes b ∧ b.peer p =
        { ranged { x with t1 := none, delay := (b0.now - t1) - (t3 - t2), offset := held off } (decide (off < -1000 ∨ 1000 < off)) with
          ct := x.ct.took.sent (.offset (held (-off))) }) ∧
      (x.t1 ≠ some t1 → ∃ b, exec (.timeRsp p seq t1 t2 t3) s = s.becomes b ∧ b.peer p = { x with ct := x.ct.took })) ∧
    (∀ v : Word, ∃ b, exec (.own p seq (.offset v)) s = s.becomes b ∧ b.peer p =
      { ranged { x with offset := v } (decide (v.toInt < -1000 ∨ 1000 < v.toInt)) with ct := x.ct.took }) ∧
    (∀ (d v : Nat) (run : Bool), b0.remoteHome d v = some p →
      ∃ b, exec (.own p seq (.runs d v run)) s = s.becomes b ∧ tabGet none (b.peer p).view (1024 * d + v) = some run ∧
        (if tabGet none x.view (1024 * d + v) = some !run then
          b.fed.conflict = true ∧ b.fed.conflictCnt = satInc f.conflictCnt ∧
          (b.lane 24).reports = (b0.lane 24).reports ++ [0x7A]
        else b.fed.conflict = f.conflict ∧ b.fed.conflictCnt = f.conflictCnt ∧
          (b.lane 24).reports = (b0.lane 24).reports)))

/-- A peer that leaves, is lost, or is departed from by EN = 0 is no longer joined: every proxy is freed after a
release, or a completion if it was ACTIVE, of its entry; its views go and its copies are withdrawn; the internal
source is raised; LOST is set on a loss. A reload of a sound configuration sets LOADED, FEDID, MEMBERS, DIGEST and the
domains with their home Hubs; one with a malformed header, a repeated DOMID or a HOME outside MEMBERS sets CFG_ERR and
keeps what was loaded. EN and HUBID change only for the holder of the Setup Lock, and HUBID not while EN is 1.
(12_federation.md, R455, R456, R457, R461, R473, R474, Table 12-2, Table 12-5) -/
def Obligations.PeersDepartAndReload : Prop :=
∀ (s : State) (p : Nat),
  let b0 := s.blk
  let f := b0.fed
  let x := b0.peer p
  let quits (c : Instr) (lost : Bool) : Prop :=
    (x.proxies = [] → ∃ b, exec c s = s.becomes b ∧ b0.Departed b p ∧ (b.peer p).lost = (x.lost || lost)) ∧
    (∀ k y t, x.proxies = [(k, y)] → y.st ≠ .free → y.shr = false → b0.Alone p k → b0.AtSlot y.stt t → y.mapgen = t.mapgen → y.gen = (b0.dom t.domid).gen →
      let e := b0.entry t
      ∃ b, exec c s = s.becomes b ∧ b0.Departed b p ∧ (b.peer p).lost = (x.lost || lost) ∧ b0.SettlesAt b y.stt t
        (if y.st = .active then { e with act := false, pend := if t.kind = .level then e.lvl else e.pend }
         else { e with dlv := false, shr := false }))
  (∀ seq cause, b0.Hears p false seq → x.joined = true → quits (.leave p seq cause) false) ∧
  (p < 4 → b0.awake = true → f.en = true → b0.inj.arm = [] → x.ev.unacked ≠ [] ∨ x.ct.unacked ≠ [] →
    quits (.peerLost p) true) ∧
  (∀ (id : BitVec 8) (a hubid : Nat), hubid < 4 → b0.Holder id a → b0.inj.arm = [] →
    (f.en = true → x.joined = true → (∀ q < 4, q ≠ p → (b0.peer q).joined = false) → p < 4 →
      quits (.fedEnableWrite (.fp4 id) false hubid) false ∧
      ∃ b, exec (.fedEnableWrite (.fp4 id) false hubid) s = s.becomes b ∧ b.fed.en = false ∧ b.fed.hubid = f.hubid ∧
        (b.peer p).ct.unacked = [] ∧ (b.peer p).ct.tx = 0 ∧ (b.peer p).ct.rx = 0) ∧
    (f.en = false → ∃ b, exec (.fedEnableWrite (.fp4 id) true hubid) s = s.becomes b ∧
      b.fed = { f with en := true, hubid := hubid })) ∧
  (∀ (id : BitVec 8) (en : Bool) (hubid : Nat), hubid < 4 → b0.NotHolder id → en ≠ f.en ∨ hubid ≠ f.hubid →
    ∃ b, exec (.fedEnableWrite (.fp4 id) en hubid) s = s.becomes b ∧ b0.Refused b) ∧
  (∀ id : BitVec 8, b0.Port4 → b0.inj.arm = [] → b0.fp.fail = [] →
    f.hubid < 4 → (∀ q < 4, (b0.peer q).joined = false) →
    let base := f.cfgHi.toNat * 2 ^ 26 + f.cfgLo.toNat / 64
    let line (j : Nat) : BitVec 512 := b0.hostLine s.mem (base + j)
    let w (j k : Nat) : Nat := (lineWord (line j) k).toNat
    let n := w 0 2
    let sound : Prop := w 0 0 = 0x01FED0A7 ∧ w 0 1 < 2 ^ 20 ∧ 1 ≤ n ∧ n ≤ 64 ∧ w 0 3 = 1 + 5 * n ∧ (∀ k, 4 ≤ k → k < 16 → w 0 k = 0)
    let dom (i : Nat) : Nat := w (1 + 5 * i) 0 % 4096
    let count (i : Nat) : Nat := w (1 + 5 * i) 1 % 2048
    let home (i v : Nat) : Nat := w (2 + 5 * i + v / 256) (v / 16 % 16) / 2 ^ (2 * (v % 16)) % 4
    let member (h : Nat) : Prop := (w 0 1).testBit (16 + h) = true
    let reloads (b : Blk) : Prop := exec (.fedReload (.fp4 id) f.en f.hubid) s = s.becomes b
    (¬ sound ∨ (∃ i j, i < j ∧ j < n ∧ dom i = dom j) ∨ (∃ i v, i < n ∧ v < count i ∧ v < 1024 ∧ ¬ member (home i v)) →
      ∃ b, reloads b ∧ b.fed = { f with cfgErr := true } ∧ (b.lane 24).reports = (b0.lane 24).reports ++ [0x7B]) ∧
    (sound → (∀ i j, i < j → j < n → dom i ≠ dom j) → (∀ i v, i < n → v < count i → v < 1024 → member (home i v)) →
      ∃ b, reloads b ∧ b.fed.loaded = true ∧ b.fed.cfgErr = f.cfgErr ∧ b.fed.fedid = w 0 1 % 65536 ∧
        b.fed.members.toNat = w 0 1 / 65536 ∧ b.fed.en = f.en ∧ b.fed.hubid = f.hubid ∧
        b.fed.digest = seededCrc (w 0 1 % 65536 + 7 * 2 ^ 24) (w 0 3)
          ((List.range (w 0 3)).flatMap (fun j => lineBytes (line j) 0 16)) ∧
        ∀ i < n, (tabGet {} b.fed.doms (dom i)).cmcount = count i ∧
          ∀ v, v < count i → v < 1024 → tabGet 0 (tabGet {} b.fed.doms (dom i)).home v = home i v))

/-- A FWD for a virtual context that does not run is answered RELEASED, with OWN. For one that runs on a link in UP,
the lowest free handle (the model's choice, log entry 112) is bound to the proxy and a candidate of the forwarded
class and PRIO enters the output queue ranked as STANDARD, its urgency formed here, as age while the offset is out of
range; the flit's class is STANDARD for a context that admission counts. A WDRAW frees a QUEUED handle, answered
RELEASED, and withdraws a STANDING one. A notice of a proxy takes effect at its entry as over a Tile Link: RELEASED
frees the proxy, CLAIMED makes it ACTIVE, COMPLETE frees it; one that its state does not admit changes nothing.
(12_federation.md, 06_tile_links.md, R102, R106, R467, R469, R470, R471, Table 6-3) -/
def Obligations.ForwardedCandidatesAndProxies : Prop :=
∀ (s : State) (p seq : Nat), s.blk.Hears p true seq →
  let b0 := s.blk
  let x := b0.peer p
  (∀ f : FwdMsg,
    let v := b0.vctx f.domid f.v
    let n := v.pctx / 64
    let l := b0.link n
    (v.run = false ∨ v.sw = true → ∃ b, exec (.fwd p seq f) s = s.becomes b ∧ b.links = b0.links ∧
      b.peer p = { x with ev := x.ev.took.sent (.released f.proxy f.gen), ct := x.ct.sent (.own f.domid f.v false) } ∧
      (b.lane 24).reports = (b0.lane 24).reports ++ [0x7A]) ∧
    (∀ h before after, v.run = true → v.sw = false → l.st = .up → h < 1024 → (l.handle h).st = .free →
      (∀ j < h, (l.handle j).st ≠ .free) → l.outq = before ++ after → l.outq.length < 64 →
      let cls : BitVec 2 := if b0.admittedCtx v.pctx then 1 else f.cls
      let elapsed := b0.now.extractLsb' 6 14 - f.stamp
      let urg : BitVec 14 := if x.offsetOut = false ∧ 2#2 ≤ cls
        then BitVec.ofNat 14 (0x3FFF - min (((f.dl + 63) / 64 : Nat) - elapsed.toNat) 0x3FFF) else elapsed
      let c : Cand :=
        { shared := false, ctx := v.pctx % 64, handle := h, intid := f.vintid, key := cls ++ f.prio ++ urg,
          qkey := 1#2 ++ f.prio ++ urg }
      (∀ y ∈ before, c.qkey ≤ y.qkey) → (∀ y ∈ after, y.qkey < c.qkey) →
      ∃ b, exec (.fwd p seq f) s = s.becomes b ∧ (b.link n).outq = before ++ c :: after ∧
        (b.link n).handle h = { st := .queued, stt := f.domid, mapgen := f.mapgen, gen := f.gen, ctx := v.pctx % 64,
                                prox := some (p, f.proxy) } ∧
        (∀ j, j ≠ h → (b.link n).handle j = l.handle j) ∧ b.peer p = { x with ev := x.ev.took })) ∧
  (∀ proxy n h, b0.handleOf p proxy = some (n, h) →
    let y := (b0.link n).handle h
    (y.st = .queued → b0.noticeWaits n h = false → b0.lostHandle n h = false → ∃ b, exec (.zblWdraw p seq proxy) s = s.becomes b ∧ (b.link n).handle h = {} ∧
      (b.link n).outq = (b0.link n).outq.filter (fun c => c.handle ≠ h) ∧
      b.peer p = { x with ev := x.ev.took.sent (.released proxy y.gen) }) ∧
    (y.st = .standing → y.wd = false → ∃ b, exec (.zblWdraw p seq proxy) s = s.becomes b ∧
      (b.link n).handle h = { y with wd := true } ∧ (b.link n).ctl = (b0.link n).ctl ++ [recHC 3 h 0] ∧
      b.peer p = { x with ev := x.ev.took })) ∧
  (∀ (proxy : Nat) (t : Stt),
    let y := tabGet {} x.proxies proxy
    let e := b0.entry t
    let gen := (b0.dom t.domid).gen
    let told (c : Instr) (y' : Handle) (e' : Entry) : Prop := ∃ b, exec c s = s.becomes b ∧ b0.SettlesAt b y.stt t e' ∧
      tabGet {} (b.peer p).proxies proxy = y' ∧ (∀ k, k ≠ proxy → tabGet {} (b.peer p).proxies k = tabGet {} x.proxies k) ∧
      (b.peer p).ev = x.ev.took
    (b0.AtSlot y.stt t → y.mapgen = t.mapgen → y.shr = false → b0.Alone p proxy →
      (y.st = .standing → told (.zblReleased p seq proxy gen) {} { e with dlv := false, shr := false }) ∧
      (y.st = .standing → ∀ pend : Bool, (pend = if t.kind = .level then e.lvl else e.rpt) →
        told (.zblClaimed p seq proxy gen) { y with st := .active, ctx := 0, wd := false, ans := none }
          { e with act := true, dlv := false, shr := false, rpt := false, pend := pend,
                   stamp := if pend then b0.now.extractLsb' 6 14 else e.stamp }) ∧
      (y.st = .active → told (.zblComplete p seq proxy gen) {}
        { e with act := false, pend := if t.kind = .level then e.lvl else e.pend })) ∧
    (∀ c ∈ [Instr.zblReleased p seq proxy gen, .zblClaimed p seq proxy gen, .zblComplete p seq proxy gen], y.st = .free →
      ∃ b, exec c s = s.becomes b ∧ b.peer p = { x with ev := x.ev.took } ∧ b.sram = b0.sram))

/-- A 32-bit PSEQ write of an ENABLED pair takes effect when its bits above 24 are 0 and it runs at most the ring's
size ahead of FSEQ; a CSEQ write of a pair or Event Log Queue that is not DISABLED, when it does not move back or past
the records written; ELQ_CSEQ with bit 31 also clears OVERFLOW and LOST and writes the header. Every other one is
discarded and counted; one with a header parity error is an access error. RING_ENABLE by the holder of the Setup Lock
enables a DISABLED pair with counts 0, or takes effect at the drain's end; RING_DISABLE starts a drain; the drain ends
once nothing executes and every record is acknowledged. (10_rings_doorbells.md, 14_faults_checking.md, R366, R369,
R370, R390, R391, R405, Table 10-2, Table 14-2) -/
def Obligations.DoorbellsAndRingSwitches : Prop :=
∀ (s : State) (v : Word) (dom m : Nat), 0 < dom → dom < 4096 → m < 8 →
  let b0 := s.blk
  let dist (x y : Nat) : Nat := (y + 2 ^ 24 - x % 2 ^ 24) % 2 ^ 24
  let discards (c : Instr) : Prop := ∃ b, exec c s = s.becomes b ∧ b = { b0 with fp := { b0.fp with dbErr := satInc b0.fp.dbErr } }
  (b0.awake = true → setHas b0.fp.badIn 5 = false → setHas b0.pwr.seq.stopped 28 = false →
    (∀ (r : RingId) (pseq cseq : Nat → Bool → Instr),
      (r, pseq, cseq) = (.guest dom, (fun z e => .gcmdPseq dom z v e), (fun z e => .gcplCseq dom z v e)) ∨
      (r, pseq, cseq) = (.mgr m, (fun z e => .mcmdPseq m z v e), (fun z e => .mcplCseq m z v e)) →
      let p := b0.pair r
      let pOk : Prop := p.st = .enabled ∧ v.toNat < 2 ^ 24 ∧ dist p.cmd.r v.toNat ≤ 2 ^ (6 + p.cmd.log2sz)
      let cOk : Prop := p.st ≠ .disabled ∧ v.toNat < 2 ^ 24 ∧ dist v.toNat p.cpl.w ≤ dist p.cpl.r p.cpl.w
      (pOk → ∃ b, exec (pseq 4 false) s = s.becomes b ∧ b.pair r = { p with cmd := { p.cmd with w := v.toNat } } ∧ b.fp = b0.fp) ∧
      (¬ pOk → discards (pseq 4 false)) ∧
      (cOk → ∃ b, exec (cseq 4 false) s = s.becomes b ∧ b.pair r = { p with cpl := { p.cpl with r := v.toNat } } ∧ b.fp = b0.fp) ∧
      (¬ cOk → discards (cseq 4 false)) ∧
      ∀ z, z ≠ 4 → discards (pseq z false) ∧ discards (cseq z false)) ∧
    (∀ d, d = 0 ∨ d = dom →
      let q := (b0.dom d).elq
      let c := v.toNat % 2 ^ 24
      let ok : Prop := q.st ≠ .disabled ∧ v.toNat / 2 ^ 24 % 128 = 0 ∧ dist c q.ring.w ≤ dist q.ring.r q.ring.w
      (ok → v.toNat < 2 ^ 31 → ∃ b, exec (.elqCseq d 4 v false) s = s.becomes b ∧
        (b.dom d).elq = { q with ring := { q.ring with r := c } } ∧ b.fp = b0.fp) ∧
      (ok → 2 ^ 31 ≤ v.toNat → ∃ b, exec (.elqCseq d 4 v false) s = s.becomes b ∧
        (b.dom d).elq = { q with ring := { q.ring with r := c }, overflow := false, lost := 0 } ∧
        ∃ w ∈ b.fp.out, w.kind = .header d ∧ w.line = q.ring.base / 64) ∧
      (¬ ok → discards (.elqCseq d 4 v false))) ∧
    (∀ c ∈ [Instr.gcmdPseq dom 4 v true, .gcplCseq dom 4 v true, .elqCseq dom 4 v true, .mcmdPseq m 4 v true, .mcplCseq m 4 v true],
      ∃ b, exec c s = s.becomes b ∧ b.rings = b0.rings ∧ b.sram = b0.sram ∧ b.err.accCnt = satInc b0.err.accCnt ∧
        b.err.st.access = true ∧ (b0.err.accCap.valid = true → b.err.accCap = b0.err.accCap) ∧
        (b0.err.accCap.valid = false → b.err.accCap.kind = 2 ∧ b.err.accCap.write = true ∧ b.err.accCap.valid = true) ∧
        (b.lane 24).reports = (b0.lane 24).reports ++ [0x06])) ∧
  (∀ (id : BitVec 8) (a ag : Nat), ag < 16 →
    let p := b0.pair (.mgr m)
    let sized : Prop := p.cmd.log2sz ≤ 10 ∧ p.cpl.log2sz ≤ 10
    (b0.Holder id a →
      (sized → p.st = .disabled → ∃ b, exec (.ringEnable (.fp4 id) m ag) s = s.becomes b ∧ b.pair (.mgr m) = { p with
        st := .enabled, en := true, again := false, agent := ag, cmd := { p.cmd with w := 0, r := 0 },
        cpl := { p.cpl with w := 0, r := 0 } }) ∧
      (sized → p.st = .busy → ∃ b, exec (.ringEnable (.fp4 id) m ag) s = s.becomes b ∧
        b.pair (.mgr m) = { p with en := true, again := true, agent := ag }) ∧
      (¬ sized → exec (.ringEnable (.fp4 id) m ag) s = s.becomes b0) ∧
      (p.st = .enabled → ∃ b, exec (.ringDisable (.fp4 id) m ag) s = s.becomes b ∧
        b.pair (.mgr m) = { p with st := .busy, en := false, agent := ag })) ∧
    (b0.NotHolder id → (p.en = false → ∃ b, exec (.ringEnable (.fp4 id) m ag) s = s.becomes b ∧ b0.Refused b) ∧
      (p.en = true → ∃ b, exec (.ringDisable (.fp4 id) m ag) s = s.becomes b ∧ b0.Refused b))) ∧
  (b0.awake = true → b0.rings.session = none → b0.allExec = [] →
    (∀ r, r = .guest dom ∨ r = .mgr m →
      let p := b0.pair r
      let c : Instr := .ringDrainEnd (.pair r)
      p.st = .busy → p.exec = [] →
      ((∀ w ∈ b0.fp.out, w.kind ≠ .completion r) → (∀ w ∈ b0.fp.recs, w.kind ≠ .completion r) → ∃ b, exec c s = s.becomes b ∧ b.pair r =
        if p.again then { p with st := .enabled, again := false, cmd := { p.cmd with w := 0, r := 0 },
                                 cpl := { p.cpl with w := 0, r := 0 } }
        else { p with st := .disabled }) ∧
      ((∃ w ∈ b0.fp.out, w.kind = .completion r) ∨ (∃ w ∈ b0.fp.recs, w.kind = .completion r) → exec c s = s.becomes b0)) ∧
    ((b0.dom dom).elq.st = .busy → (∀ w ∈ b0.fp.out, w.kind ≠ .event dom) → (∀ w ∈ b0.fp.recs, w.kind ≠ .event dom) →
      ∃ b, exec (.ringDrainEnd (.elq dom)) s = s.becomes b ∧ (b.dom dom).elq = { (b0.dom dom).elq with st := .disabled }))

/-- Enabling a DISABLED cache is at once; lines left since the last invalidate set STALE and raise 0x0E. Disabling an
enabled one starts a drain, which ends once nothing is outstanding or held; contents stay, and dirty lines set
DIRTY_AT_DISABLE. A fill places its line as the most recently used. An acknowledgement puts the 64 bytes of the write
into host memory and changes no other byte; the last body line of a snapshot issues its header, whose acknowledgement
completes the command with OK. A failed access is counted and, on its first attempt, reported; a write is retried 3
times and then lost, which is uncorrectable with code 25. (02_boundary.md, 10_rings_doorbells.md,
14_faults_checking.md, R71, R72, R396, R397, R401, R402, R403, R441, R522) -/
def Obligations.HostMemoryAndLineCache : Prop :=
∀ (s : State) (line : Nat),
  let b0 := s.blk
  let lc := b0.lc
  let stores (c : Instr) (d : BitVec 512) (b : Blk) : Prop := s.puts (exec c s) line d b
  (∀ (id : BitVec 8) (a : Nat), b0.Holder id a →
    (lc.en = false → lc.st = .disabled →
      let stale : Bool := !lc.lines.isEmpty && !lc.invalSince
      ∃ b, exec (.cacheEnable (.fp4 id)) s = s.becomes b ∧
        b.lc = { lc with en := true, st := .enabled, again := false, stale := lc.stale || stale } ∧
        (b.lane 24).reports = (b0.lane 24).reports ++ (if stale then [0x0E] else [])) ∧
    (lc.en = false → lc.st = .busy → ∃ b, exec (.cacheEnable (.fp4 id)) s = s.becomes b ∧ b.lc = { lc with en := true, again := true }) ∧
    (lc.en = true → lc.st = .enabled → ∃ b, exec (.cacheDisable (.fp4 id)) s = s.becomes b ∧
      b.lc = { lc with en := false, st := .busy, invalSince := false })) ∧
  (∀ id : BitVec 8, b0.NotHolder id → ∀ c, c = (if lc.en then Instr.cacheDisable (.fp4 id) else .cacheEnable (.fp4 id)) →
    ∃ b, exec c s = s.becomes b ∧ b0.Refused b) ∧
  (b0.awake = true → lc.st = .busy →
    let free : Prop := lc.fills = [] ∧ lc.bufs = [] ∧ (∀ w ∈ b0.fp.out, w.buf = false) ∧ ∀ l ∈ lc.lines, l.held = false
    (free → lc.again = false → ∃ b, exec .cacheDrainEnd s = s.becomes b ∧
      b.lc = { lc with st := .disabled, dirtyAtDisable := lc.dirtyAtDisable || lc.lines.any (·.dirty) }) ∧
    (¬ free → exec .cacheDrainEnd s = s.becomes b0)) ∧
  (b0.awake = true → lc.st ≠ .disabled → setHas lc.fills line = true → b0.inj.arm = [] → b0.fp.fail = [] → b0.allExec = [] →
    b0.rings.spillq = [] → b0.rings.spillw = [] → b0.rings.spillBits = [] → lc.lines.length < 48 → lc.find line = none →
    (∀ l ∈ lc.bufs, l.line ≠ line) → (∀ w ∈ b0.fp.out, w.buf = false) → ∃ b, exec (.lineFill line) s = s.becomes b ∧
      b.lc.lines = { line := line, data := b0.hostLine s.mem line } :: lc.lines ∧ b.lc.fills = setDel lc.fills line ∧
      b.lc.bufs = lc.bufs ∧ b.lc.missCnt = satInc lc.missCnt) ∧
  (b0.allExec = [] → b0.rings.spillq = [] → b0.rings.notes = [] → b0.fp.recs = [] →
    ∀ pre l post, lc.bufs = pre ++ l :: post → l.line = line → l.held = false → (∀ x ∈ pre, x.line ≠ line) →
    ∃ b, stores (.lineWritebackAck line) l.data b ∧ b.lc.bufs = pre ++ post ∧ b.lc.lines = lc.lines) ∧
  (∀ pre w post, b0.fp.out = pre ++ w :: post → w.line = line → (∀ x ∈ pre, x.line ≠ line) →
    (w.kind ≠ .snapshot → w.kind ≠ .spillImage → b0.allExec = [] →
      ∃ b, stores (.lineWriteAck line) w.data b ∧ b.fp.out = pre ++ post ∧ b.rings = b0.rings) ∧
    (∀ (r : RingId) (e : Exec), w.kind = .snapshot → b0.allExec = [(r, e)] → (b0.pair r).exec = [e] →
      (∀ hl hdr n, e.wait = .snapBody [line] hl hdr n → ∃ b, stores (.lineWriteAck line) w.data b ∧
        b.fp.out = pre ++ post ++ [{ line := hl, data := hdr, kind := .snapshot }] ∧
        (b.pair r).exec = [{ e with wait := .snapHdr hl n }] ∧ (b.pair r).cpl = (b0.pair r).cpl) ∧
      (∀ n, e.wait = .snapHdr line n →
        ∃ b, stores (.lineWriteAck line) w.data b ∧ (b.pair r).exec = [] ∧ (b.pair r).cpl.w = ((b0.pair r).cpl.w + 1) % 2 ^ 24)) ∧
    (w.kind ≠ .snapshot → w.kind ≠ .spillImage →
      let fails (b : Blk) : Prop := exec (.hostAccessRetry line) s = s.becomes b ∧ b.err.fpFailCnt = satInc b0.err.fpFailCnt ∧
        b.err.st.fpFail = true
      (w.tries < 3 → pre.all (· ≠ w) → post.all (· ≠ w) → ∃ b, fails b ∧ b.fp.out = pre ++ { w with tries := w.tries + 1 } :: post ∧
        (b.lane 24).reports = (b0.lane 24).reports ++ (if w.tries = 0 then [0x0F] else [])) ∧
      (3 ≤ w.tries → ∃ b, fails b ∧ b.fp.out = pre ++ post ∧ b.err.ueCnt = satInc b0.err.ueCnt ∧ b.err.st.fatal = true ∧
        (b0.err.ueCap.valid = false → b.err.ueCap.code = 25 ∧ b.err.ueCap.cls = 3 ∧ b.err.ueCap.index = line % 2 ^ 24) ∧
        (b.lane 24).reports = (b0.lane 24).reports ++ [0x03]))) ∧
  ((∀ w ∈ b0.fp.out, w.line ≠ line) → (∀ l ∈ lc.bufs, l.line ≠ line) → setHas lc.fills line = false →
    ∃ b, exec (.hostAccessRetry line) s = s.becomes b ∧
      tabGet 0 b.fp.fail line = tabGet 0 b0.fp.fail line + 1 ∧ b.err = b0.err)

/-- Disabling a cluster drains it, and it is DISABLED when the drain ends; enabling a DISABLED one is at once, and a
BUSY one returns to ENABLED at the end of its drain. A write that disables a cluster of a live CRITICAL or FIRM
source, that lowers RSV while such a source is live, or that comes from another agent than the holder of the Setup
Lock is refused whole. A revival resets the named engines that are out of service and returns them; the others stay.
QUIESCE of a link in UP makes it QUIESCING and sends the record; service of a QUIESCED link trains it, of a QUIESCING
one is remembered; RETRAIN of a link in UP or QUIESCING enters RETRAIN and is counted, of a FAILED one trains it; a
link of an unpopulated tile ignores all three. (06_tile_links.md, 07_clause_engines.md, 09_admission.md, R12, R230,
R250, R254, R255, R308, R311, R313, R359) -/
def Obligations.ClustersAndLinksAreControlled : Prop :=
∀ (s : State) (c rsv : Nat) (id : BitVec 8), c < 16 → rsv < 16 →
  let b0 := s.blk
  let x := b0.cl c
  let rest (b : Blk) : Prop := (∀ d, d ≠ c → b.cl d = b0.cl d) ∧ { b with cls := b0.cls } = b0
  (∀ a, b0.Holder id a →
    (x.regs.en = true → x.regs.st = .enabled → b0.adm = [] → ∃ b, exec (.clusterDisable (.fp4 id) c rsv) s = s.becomes b ∧
      b.cl c = { x with regs := { x.regs with en := false, st := .busy, rsv := rsv } } ∧ rest b) ∧
    (x.regs.en = false → b0.adm = [] ∨ x.regs.rsv ≤ rsv →
      ∃ b, exec (.clusterEnable (.fp4 id) c rsv) s = s.becomes b ∧ b.cl c = { x with regs := { x.regs with
        en := true, rsv := rsv, st := if x.regs.st = .disabled then .enabled else x.regs.st } } ∧ rest b)) ∧
  (b0.Port4 →
    (∀ y ∈ b0.adm, (rsv < x.regs.rsv → ∀ cmd, cmd = .clusterEnable (.fp4 id) c rsv ∨ cmd = .clusterDisable (.fp4 id) c rsv →
        ∃ b, exec cmd s = s.becomes b ∧ b0.Refused b) ∧
      (y.2.clause.cv = true → y.2.clause.clus = c → x.regs.en = true →
        ∃ b, exec (.clusterDisable (.fp4 id) c rsv) s = s.becomes b ∧ b0.Refused b)) ∧
    (∀ mask : BitVec 16, ∃ b, exec (.engineRevive (.fp4 id) c mask) s = s.becomes b ∧ rest b ∧ ∀ k < 16,
      (mask.getLsbD k = true → setHas x.regs.offline k = true →
        tabGet {} (b.cl c).engines k = {} ∧ setHas (b.cl c).regs.offline k = false) ∧
      (mask.getLsbD k = false ∨ setHas x.regs.offline k = false →
        tabGet {} (b.cl c).engines k = tabGet {} x.engines k ∧ setHas (b.cl c).regs.offline k = setHas x.regs.offline k))) ∧
  (b0.NotHolder id → ∀ cmd, cmd = (if x.regs.en then Instr.clusterDisable (.fp4 id) c rsv else .clusterEnable (.fp4 id) c rsv) →
    ∃ b, exec cmd s = s.becomes b ∧ b0.Refused b) ∧
  (b0.awake = true → x.regs.st = .busy →
    (b0.clusterQuiet c = true → (∀ f k, b0.ops.prog ≠ .selftest f k) → ∃ b, exec (.clusterDrainEnd c) s = s.becomes b ∧
      b.cl c = { x with regs := { x.regs with st := if x.regs.en then .enabled else .disabled } } ∧ rest b) ∧
    (b0.clusterQuiet c = false → exec (.clusterDrainEnd c) s = s.becomes b0)) ∧
  (∀ w : Bool,
    let l := b0.link c
    b0.Port4 → l.wakeEn = w →
    (l.pop = true → l.st = .up → l.outq = [] → ∃ b, exec (.linkQuiesce (.fp4 id) c w) s = s.becomes b ∧ b.link c =
      { l with quiesce := true, st := .quiescing, ph := .none, ctl := l.ctl ++ [rec24 9 0] }) ∧
    (l.pop = true → l.st = .quiesced → ∃ b, exec (.linkService (.fp4 id) c w) s = s.becomes b ∧
      (b.link c).st = .training ∧ (b.link c).quiesce = false) ∧
    (l.pop = true → l.st = .quiescing → ∃ b, exec (.linkService (.fp4 id) c w) s = s.becomes b ∧
      b.link c = { l with quiesce := false, service := true }) ∧
    (l.pop = true → l.st = .up ∨ l.st = .quiescing → ∃ b, exec (.linkRetrain (.fp4 id) c w) s = s.becomes b ∧
      (b.link c).st = .retrain ∧ (b.link c).retrains = l.retrains + 1 ∧
      (b.link c).handles = tabMap {} (fun _ x => x.settled) l.handles) ∧
    (l.pop = true → l.st = .failed → ∃ b, exec (.linkRetrain (.fp4 id) c w) s = s.becomes b ∧ (b.link c).st = .training) ∧
    (l.pop = false → ∀ cmd ∈ [Instr.linkQuiesce (.fp4 id) c w, .linkService (.fp4 id) c w, .linkRetrain (.fp4 id) c w],
      exec cmd s = s.becomes b0))

/-- A TARGET write that no rule refuses starts a change: upward with the voltage request of the new point, downward
with the switch ready; a refused one is counted with its cause and changes no point. At the frame boundary an upward
change switches after its voltage and ends; a downward one then requests its voltage and ends with the acknowledgement
or its timeout; the clocks are held for 4 HCLK of the lower point; an upward timeout goes back. Answers that do not
acknowledge a write leave it. An aging step acknowledged raises the offset by 5 mV up to 40. Loss of lock sets BYPASS
and LOCK_LOST and voids the bounds; its lock ends bypass at a frame boundary. An invalid time base reads as 0. BUSY
before FLOOR, the switch in RUN only and a change that goes on in bypass are the model's choices (log entries 108 to
110). (01_organisation.md, 02_boundary.md, 13_power.md, R27, R28, R29, R30, R34, R37, R78, R509, R511) -/
def Obligations.OperatingPointsAndTimeBase : Prop :=
∀ s : State,
  let b0 := s.blk
  let c := b0.clk
  let q := b0.pwr.seq
  let cfg := b0.pwr.cfg
  let mv (op : BitVec 2) : Nat := (if op = 0 then 800 else if op = 1 then 680 else 580) + cfg.offset.toNat
  let tells (n : Nat) (b : Blk) : Prop := (b.lane 24).reports = (b0.lane 24).reports ++ [n]
  let held (b : Blk) (p : Nat) : Prop := b.time.tb = b0.time.tb + BitVec.ofNat 64 ((b0.time.sixths + 4 * p) / 6) ∧
    b.time.hclk = b0.time.hclk
  (∀ (id : BitVec 8) (t : BitVec 2), b0.Port4 →
    let cmd := Instr.opctlTargetWrite (.fp4 id) t c.floor
    let cause : BitVec 2 := if t = 3 then 3
      else if c.switching = true ∨ c.bypass = true ∨ q.seq ≠ .none ∨ cfg.measured = false then 1
      else if b0.adm ≠ [] ∧ c.floorLive < t then 2 else 0
    (cause ≠ 0 → ∃ b, exec cmd s = s.becomes b ∧ b.clk = { c with refused := true, cause := cause } ∧
      b.pwr = { b0.pwr with cfg := { cfg with refuseCnt := satInc cfg.refuseCnt } }) ∧
    (cause = 0 → t < c.curOp → c.ready = none → q.avs = none → ∃ b, exec cmd s = s.becomes b ∧
      b.clk = { c with target := t, switching := true } ∧
      b.pwr = { b0.pwr with seq := { q with avs := some (.opUp c.curOp t, mv t), bus := [b0.avsTarget (mv t)] } }) ∧
    (cause = 0 → ¬ t < c.curOp → ∃ b, exec cmd s = s.becomes b ∧
      b.clk = { c with target := t, switching := true, ready := some t } ∧ b.pwr = b0.pwr)) ∧
  (∀ (id : BitVec 8) (t floor : BitVec 2), floor ≠ c.floor → let cmd := Instr.opctlTargetWrite (.fp4 id) t floor
    (b0.NotHolder id → ∃ b, exec cmd s = s.becomes b ∧ b0.Refused b) ∧
    (∀ a, b0.Holder id a → t = 3 → ∃ b, exec cmd s = s.becomes b ∧ b.clk = { c with floor := floor, refused := true, cause := 3 })) ∧
  (b0.inRun = true → b0.lock.held = false → b0.time.hclk = 0 →
    (∀ t, c.ready = some t → t < c.curOp → ∃ b, exec .opSwitch s = s.becomes b ∧
      b.clk = { c with ready := none, curOp := t, switching := false } ∧ b.pwr = b0.pwr ∧
      held b (max (opTicks t) (opTicks c.curOp))) ∧
    (∀ t, c.ready = some t → ¬ t < c.curOp → c.target = t → c.switching = true → q.avs = none →
      ∃ b, exec .opSwitch s = s.becomes b ∧ b.clk = { c with ready := none } ∧
        b.pwr = { b0.pwr with seq := { q with avs := some (.opDown t, mv t), bus := [b0.avsTarget (mv t)] } } ∧
        held b (max (opTicks t) (opTicks c.curOp)))) ∧
  (c.ready = none ∨ b0.time.hclk ≠ 0 → exec .opSwitch s = s.becomes b0) ∧
  (∀ v n, b0.inj.arm = [] → n ≤ 3 →
    let bus := q.bus ++ List.replicate n (b0.avsTarget v) ++ b0.avsReads
    (∀ o k (done : Bool) back, q.avs = some (o, v) → 3 < k ∨ done = false ∨ back ≠ v →
      ∃ b, exec (.avsAck k done back) s = s.becomes b ∧ b.clk = c ∧ b.pwr.seq.avs = q.avs ∧ b.pwr.seq.mv = q.mv ∧
        b.pwr.regs = b0.pwr.regs ∧ b.pwr.cfg = cfg) ∧
    (∀ old new, q.avs = some (.opUp old new, v) →
      (∃ b, exec (.avsAck n true v) s = s.becomes b ∧ b.clk = { c with ready := some new } ∧
        b.pwr = { b0.pwr with seq := { q with avs := none, mv := v, bus := bus } }) ∧
      (∃ b, exec .avsTimeout s = s.becomes b ∧ b.clk = { c with target := old, switching := false } ∧
        b.pwr = { b0.pwr with seq := { q with avs := none }, regs := { b0.pwr.regs with vtimeout := true } } ∧ tells 0x61 b)) ∧
    (∀ new, q.avs = some (.opDown new, v) →
      (∃ b, exec (.avsAck n true v) s = s.becomes b ∧ b.clk = { c with curOp := new, switching := false } ∧
        b.pwr = { b0.pwr with seq := { q with avs := none, mv := v, bus := bus } }) ∧
      (∃ b, exec .avsTimeout s = s.becomes b ∧ b.clk = { c with curOp := new, switching := false } ∧
        b.pwr = { b0.pwr with seq := { q with avs := none }, regs := { b0.pwr.regs with vtimeout := true } } ∧ tells 0x61 b)) ∧
    (q.avs = some (.aging, v) → c.switching = false →
      (∃ b, exec (.avsAck n true v) s = s.becomes b ∧ b.clk = c ∧ b.pwr = { b0.pwr with
          seq := { q with avs := none, mv := v, bus := bus },
          cfg := { cfg with offset := BitVec.ofNat 6 (min 40 (cfg.offset.toNat + 5)), steps := cfg.steps + 1 } } ∧ tells 0x63 b) ∧
      (∃ b, exec .avsTimeout s = s.becomes b ∧ b.clk = c ∧ b.pwr = { b0.pwr with
          seq := { q with avs := none }, regs := { b0.pwr.regs with vtimeout := true } } ∧ tells 0x61 b)) ∧
    (b0.up = true → b0.pwr.regs.state ≠ .sleep → c.lock = true → ∃ b, exec .pllLockLoss s = s.becomes b ∧
      b.clk = { c with bypass := true, lockLost := true, lock := false, pllOn := false, back := false } ∧
      (b.lane 24).reports = (b0.lane 24).reports ++ [0x60, 0x81])) ∧
  (b0.up = true → c.bypass = true → b0.dbg.haltSeq = false → ∃ b, exec .bypassRelockAttempt s = s.becomes b ∧
    b.clk = { c with pllOn := true }) ∧
  (c.bypass = true → c.pllOn = true → c.lock = false → b0.aon.start = none →
    (b0.time.hclk = 0 → b0.lock.held = false → ∃ b, exec .pllLock s = s.becomes b ∧
      b.clk = { c with lock := true, bypass := false, back := false } ∧ held b 120) ∧
    (b0.time.hclk ≠ 0 → ∃ b, exec .pllLock s = s.becomes b ∧ b.clk = { c with lock := true, back := true })) ∧
  (∃ b, exec .timeBaseInvalid s = s.becomes b ∧ b = { b0 with time := { b0.time with valid := false } } ∧ b.now = 0) ∧
  (∀ tb, ∃ b, exec (.timeBaseValid tb) s = s.becomes b ∧ b = { b0 with time := { b0.time with tb := tb, valid := true } } ∧
    b.now = tb) ∧
  (∀ need, b0.inRun = true →
    (cfg.offset.toNat < need → cfg.offset.toNat < 40 → q.seq = .none → c.switching = false → q.avs = none →
      ∃ b, exec (.agingMonitorRead need) s = s.becomes b ∧ b.clk = c ∧
        b.pwr = { b0.pwr with seq := { q with
          agingDue := false, avs := some (.aging, mv c.curOp + 5), bus := [b0.avsTarget (mv c.curOp + 5)] } }) ∧
    (need ≤ cfg.offset.toNat ∨ 40 ≤ cfg.offset.toNat → ∃ b, exec (.agingMonitorRead need) s = s.becomes b ∧
      b = { b0 with pins := { b0.pins with need := need } }))

/-- A request in RUN is refused with the first cause of Table 13-2 that holds, counted and reported, and changes no
power state. An accepted one asks the clients in ascending order: when all accept, AP1 is passed and E2 begins. The
first client that delays holds the poll and is asked again; one that delays too long, and the Ring Processor while the
Setup Lock is held, refuses, and the Hub stays in RUN. A wake event abandons the entry at AP1, AP2 or AP3. Time that
passes ends E2: IDLE and SLEEP are complete, DEEP writes its Caldera image and then clamps, stops the IRQPLL and
requests 450 mV, OFF begins its spill image. AUTO_IDLE requests IDLE when nothing has work, and is refused in silence.
That one step of the empty queue ends E2 is the model's choice (log entry 2). (13_power.md, R477, R478, R480, R481,
R482, R483, R485, R486, R488, R495, Table 13-2) -/
def Obligations.PowerRequestsAreCheckedAndPolled : Prop :=
∀ s : State,
  let b0 := s.blk
  let q := b0.pwr.seq
  let regs := b0.pwr.regs
  let cfg := b0.pwr.cfg
  let aging : Bool := match q.avs with
    | some (.aging, _) => true
    | _ => false
  let cause (r : BitVec 3) : Nat :=
    if q.seq ≠ .none ∨ b0.clk.switching = true ∨ aging = true ∨ b0.dbg.haltSeq = true ∨ b0.dbg.haltCl ≠ [] then 1
    else if b0.adm ≠ [] then 2
    else if r ≠ 1 ∧ b0.fed.peers.any (·.2.joined) = true then 4
    else if b0.ops.busy = true then 5
    else if r = 4 ∧ cfg.spillLo.getLsbD 0 = false then 6 else 0
  let accepts (tgt : PState) (k : Nat) : Prop := (b0.ask tgt k).2 = .accept
  let unwoken (tgt : PState) : Prop := (tgt = .off ∨ b0.ing.held = []) ∧ ∀ k < 8, b0.pinActive k = false
  let stands (b : Blk) (tgt : PState) : Prop := b.pwr.regs.state = tgt ∧ b.pwr.seq.seq = .none ∧ b.pwr.seq.cwPstate = tgt ∧
    ∀ k < 48, setHas b.pwr.seq.stopped k = true
  let gates (b : Blk) (tgt : PState) : Prop := b.pwr.seq.seq = .gate tgt ∧ b.pwr.regs.state = .run ∧
    ∀ k < 48, setHas b.pwr.seq.stopped k = true
  let refuses (b : Blk) (c client : Nat) (late : Bool) : Prop := b.pwr.regs.state = .run ∧ b.pwr.seq.seq = .none ∧
    b.pwr.seq.stopped = [] ∧ b.pwr.regs.refused = true ∧ b.pwr.regs.cause.toNat = c ∧ b.pwr.regs.refClient.toNat = client ∧
    b.pwr.regs.dlyTo = late ∧ b.pwr.cfg = { cfg with refuseCnt := satInc cfg.refuseCnt } ∧ 0x62 ∈ (b.lane 24).reports
  (∀ (id : BitVec 8) (ai : Bool) (dly : BitVec 10) (r : BitVec 3) (tgt : PState) (cmd : Instr),
    b0.Port4 → b0.inj.arm = [] →
    (r, tgt, cmd) ∈ [((1 : BitVec 3), PState.idle, Instr.powerReqIdle (.fp4 id) ai dly), (2, .sleep, .powerReqSleep (.fp4 id) ai dly),
      (3, .deep, .powerReqDeep (.fp4 id) ai dly), (4, .off, .powerReqOff (.fp4 id) ai dly)] →
    let x := { regs with autoIdle := ai, dlyTimeout := dly }
    (cause r ≠ 0 → ∃ b, exec cmd s = s.becomes b ∧ b.pwr = { b0.pwr with
        regs := { x with refused := true, cause := BitVec.ofNat 4 (cause r) },
        cfg := { cfg with refuseCnt := satInc cfg.refuseCnt } } ∧
      (b.lane 24).reports = (b0.lane 24).reports ++ [0x62] ∧ b.sram = b0.sram ∧ b.links = b0.links) ∧
    (cause r = 0 → q.stopped = [] →
      (∀ p < 8, b0.ing.held = [] → b0.pinActive p = true → (∀ j < p, b0.pinActive j = false) →
        ∃ b, exec cmd s = s.becomes b ∧ b.pwr.seq.seq = .none ∧ b.pwr.seq.stopped = [] ∧
          b.pwr.regs = { x with req := r, abortAp := 1, aborted := true } ∧
          b.pwr.cfg = { cfg with abortCnt := satInc cfg.abortCnt, wakeCause := 8, wakeIdx := BitVec.ofNat 8 p, wakeEntry := true }) ∧
      (unwoken tgt →
        (∀ k < 48, (∀ j < k, accepts tgt j) →
          (b0.ask tgt k = (b0, .delay) → ∃ b, exec cmd s = s.becomes b ∧ b.pwr.regs = { x with req := r } ∧
            b.pwr.seq.seq = .poll tgt k ∧ ∀ j, setHas b.pwr.seq.stopped j = true ↔ j < k) ∧
          (k = 28 → b0.lock.held = true ∨ b0.rings.session ≠ none → ∃ b, exec cmd s = s.becomes b ∧ refuses b 7 28 false)) ∧
        ((∀ k < 48, accepts tgt k) → ∃ b, exec cmd s = s.becomes b ∧ gates b tgt ∧ b.pwr.regs = { x with req := r })))) ∧
  (b0.inRun = true → regs.autoIdle = true → b0.inj.arm = [] →
    (b0.noWork = true → cause 1 = 0 → q.stopped = [] → unwoken .idle → (∀ k < 48, accepts .idle k) →
      ∃ b, exec .autoIdleRequest s = s.becomes b ∧ gates b .idle ∧ b.pwr.cfg = cfg) ∧
    (b0.noWork = false ∨ cause 1 ≠ 0 → exec .autoIdleRequest s = s.becomes b0)) ∧
  (∀ tgt k, q.seq = .poll tgt k → k < 48 →
    (b0.ask tgt k = (b0, .delay) → exec .clientPoll s = s.becomes b0) ∧
    (regs.state = .run → (∀ j < k, setHas q.stopped j = true) → (∀ j, k ≤ j → j < 48 → accepts tgt j) →
      ∃ b, exec .clientPoll s = s.becomes b ∧ gates b tgt) ∧
    (∃ b, exec .delayTimeout s = s.becomes b ∧ refuses b 7 k true)) ∧
  (s.pending = [] → b0.inRun = true → b0.inj.arm = [] → b0.lock.held = false → (∀ i, b0.lineSettled i = true) →
    let abandons (b : Blk) (ap : BitVec 3) (w : Nat × Nat) : Prop := b.pwr.regs.state = .run ∧ b.pwr.seq.seq = .none ∧
      b.pwr.seq.stopped = [] ∧ b.pwr.regs.abortAp = ap ∧ b.pwr.regs.aborted = true ∧ b.pwr.cfg = { cfg with
        abortCnt := satInc cfg.abortCnt, wakeCause := BitVec.ofNat 4 w.1, wakeIdx := BitVec.ofNat 8 w.2, wakeEntry := true }
    (∀ tgt, q.seq = .gate tgt → tgt ≠ .run →
      (∀ w, q.wake = some w → ∃ b, step s = s.becomes b ∧ abandons b 2 w) ∧
      (q.wake = none →
        (tgt = .idle ∨ tgt = .sleep → (∀ k < 48, setHas q.stopped k = true) → ∃ b, step s = s.becomes b ∧ stands b tgt) ∧
        (tgt = .deep → ∃ b, step s = s.becomes b ∧ b.pwr.seq.seq = .save .deep [] true ∧
          b.cal.magic = true ∧ b.cal.valid = true ∧ b.cal.check = true ∧ b.cal.kind = .deep ∧ b.cal.aging = cfg.offset ∧
          b.cal.calseq = (b0.cal.calseq + 1) % 2 ^ 24 ∧ b.cal.save.clk = b0.clk ∧ b.cal.save.hctl = b0.hctl ∧
          b.cal.save.mgr = b0.rings.mgr ∧ b.cal.save.agents = b0.lock.agents) ∧
        (tgt = .off → ∃ b, step s = s.becomes b ∧ b.pwr.seq.seq = .save .off [b0.spillBase / 64 + 1] false ∧
          b.spill.seq = (b0.spill.seq + 1) % 2 ^ 24 ∧ ∃ w ∈ b.fp.out, w.kind = .spillImage ∧ w.line = b0.spillBase / 64 + 1))) ∧
    (q.seq = .save .deep [] true →
      (∀ w, q.wake = some w → ∃ b, step s = s.becomes b ∧ abandons b 3 w ∧ b.cal.valid = false) ∧
      (q.wake = none → ∃ b, step s = s.becomes b ∧ b.pwr.seq.seq = .power .deep ∧
        b.pwr.seq.avs = some (.deepEntry false, 450) ∧ b.pwr.seq.clamp = true ∧ b.clk.pllOn = false ∧ b.ing.credit = [])))

/-- An entry to DEEP is complete with its voltage, one to OFF with the fall of PG_IRQ; a wake event kept since E1
starts the exit instead, and PG_IRQ that does not fall unwinds the entry to RUN with cause VOLTAGE. An enabled WAKE
pin at its active level, or MIPn_HELD, brings IDLE and SLEEP to RUN with its cause and index recorded; a pin, a held
MIP or the wake alarm starts the exit from DEEP with the saved voltage; in RUN a pin only shows its level. The voltage
enables the IRQPLL, whose lock restores a valid Caldera image and reaches RUN; an invalid one leads to a cold start.
PKG_ISO_REQ clamps and resets a powered Hub; its fall leads to a start. (13_power.md, R485, R489, R490, R492, R493,
R494, R503, R504, R508, R510, Table 13-10) -/
def Obligations.EntriesCompleteAndWakesReturn : Prop :=
∀ s : State,
  let b0 := s.blk
  let q := b0.pwr.seq
  let regs := b0.pwr.regs
  let cal := b0.cal
  let steady : Prop := b0.aon.start = none ∧ b0.aon.failed = false ∧ b0.pins.pg = true ∧ q.hubReset = false
  let saved : Nat := (if cal.save.clk.curOp = 0 then 800 else if cal.save.clk.curOp = 1 then 680 else 580) + cal.aging.toNat
  let runs (b : Blk) (c i : Nat) : Prop := b.pwr.regs.state = .run ∧ b.pwr.seq.seq = .none ∧ b.pwr.seq.stopped = [] ∧
    b.pwr.cfg.wakeCause.toNat = c ∧ b.pwr.cfg.wakeIdx.toNat = i ∧ b.pwr.cfg.wakeEntry = false ∧ b.cal.valid = false
  let leavesDeep (b : Blk) (w : Nat × Nat) : Prop := b.pwr.seq.seq = .exit .deep false false ∧ b.pwr.seq.wake = some w ∧
    b.pwr.seq.avs = some (.exitDeep, saved)
  (∀ v, b0.inj.arm = [] → q.avs = some (.deepEntry false, v) →
    (q.wake = none → ∃ b, exec (.avsAck 0 true v) s = s.becomes b ∧ b.pwr.regs.state = .deep ∧ b.pwr.seq.seq = .none ∧
      b.pwr.seq.cwPstate = .deep ∧ b.pwr.seq.mv = v) ∧
    (∀ w, q.wake = some w → ∃ b, exec (.avsAck 0 true v) s = s.becomes b ∧ b.pwr.seq.seq = .exit .deep true false ∧
      b.pwr.seq.avs = some (.exitDeep, saved) ∧ b.pwr.regs.state = regs.state) ∧
    (∃ b, exec .avsTimeout s = s.becomes b ∧ b.pwr.seq.vtDue = true ∧
      ∃ mv, b.pwr.seq.avs = some (.deepEntry true, mv) ∧ mv = b0.voltage b0.clk.curOp)) ∧
  (q.seq = .power .off →
    (q.wake = none → ∃ b, exec .offAcknowledge s = s.becomes b ∧ b.pwr.regs = { regs with state := .off } ∧
      b.pwr.seq = { q with seq := .none, cwPstate := .off, hubReset := true } ∧ b.pins.pg = false) ∧
    (∀ w, q.wake = some w → ∃ b, exec .offAcknowledge s = s.becomes b ∧ b.pwr.seq.seq = .exit .off true false ∧
      b.pwr.seq.offReq = false ∧ b.pwr.regs = regs) ∧
    (∃ b, exec .pgIrqTimeout s = s.becomes b ∧ b.pwr.regs.state = .run ∧ b.pwr.seq.seq = .none ∧ b.pwr.seq.clamp = false ∧
      b.pwr.seq.offReq = false ∧ b.cal.valid = false ∧ b.pwr.regs.cause = 8 ∧ b.pwr.regs.abortAp = 3 ∧
      b.pwr.regs.vtimeout = true ∧ 0x61 ∈ (b.lane 24).reports)) ∧
  (∀ (p : Nat) (lv : Bool), p < 8 →
    let wake : BitVec 8 := if lv then b0.pins.wake ||| BitVec.ofNat 8 (2 ^ p) else b0.pins.wake &&& ~~~BitVec.ofNat 8 (2 ^ p)
    let only : Prop := exec (.wakePin p lv) s = s.becomes { b0 with pins := { b0.pins with wake := wake } }
    let active : Prop := b0.pwr.cfg.wakeEn.getLsbD p = true ∧ b0.pwr.cfg.wakePol.getLsbD p = lv
    (¬ active → only) ∧ (q.seq = .none → regs.state = .run → only) ∧
    (active → steady → q.seq = .none →
      (regs.state = .idle ∨ regs.state = .sleep → ∃ b, exec (.wakePin p lv) s = s.becomes b ∧ runs b 8 p ∧
        ∀ n, (b0.link n).st = .paused → b0.ing.lanes = [] → b0.allExec = [] → regs.state = .idle → (b.link n).st = .up) ∧
      (regs.state = .deep → q.wake = none → ∃ b, exec (.wakePin p lv) s = s.becomes b ∧ leavesDeep b (8, p))) ∧
    (active → q.seq = .none → regs.state = .off → q.offReq = true → b0.aon.start = none → b0.aon.failed = false →
      ∃ b, exec (.wakePin p lv) s = s.becomes b ∧ b.pwr.seq.seq = .exit .off false false ∧ b.pwr.seq.offReq = false)) ∧
  (∀ mip, mip < 96 →
    (∃ b, exec (.mipHeld mip false) s = s.becomes b ∧ b = { b0 with ing := { b0.ing with held := setPut b0.ing.held mip false } }) ∧
    (steady → q.seq = .none → regs.state = .idle ∨ regs.state = .sleep →
      ∃ b, exec (.mipHeld mip true) s = s.becomes b ∧ runs b 2 mip ∧ setHas b.ing.held mip = true) ∧
    (steady → q.seq = .none → regs.state = .deep → q.wake = none →
      ∃ b, exec (.mipHeld mip true) s = s.becomes b ∧ leavesDeep b (2, mip))) ∧
  (∀ n, steady → q.seq = .none → regs.state = .deep → q.wake = none → q.alarm = some n →
    ∃ b, exec .wakeAlarm s = s.becomes b ∧ leavesDeep b (7, 0) ∧ b.pwr.seq.aon = max q.aon n) ∧
  (∀ entry volt, q.seq = .exit .deep entry volt → b0.aon.start = none → b0.inj.arm = [] →
    (∀ v, q.avs = some (.exitDeep, v) → ∃ b, exec (.avsAck 0 true v) s = s.becomes b ∧ b.clk.pllOn = true ∧ b.pwr.seq.avs = none ∧
      b.pwr.seq.mv = v ∧ b.pwr.seq.seq = q.seq) ∧
    (q.avs = none → b0.pins.iso = false → b0.clk.pllOn = true → b0.clk.lock = false → b0.clk.bypass = false →
      (∀ x ∈ cal.save.mgr, x.2.exec = []) → (∀ x ∈ b0.sram.doms, x.2.pair.exec = []) →
      let ok : Prop := cal.magic = true ∧ cal.valid = true ∧ cal.check = true ∧ cal.kind = .deep
      (ok → ∃ b, exec .pllLock s = s.becomes b ∧ b.pwr.regs.state = .run ∧ b.pwr.seq.seq = .none ∧ b.pwr.seq.clamp = false ∧
        b.pwr.seq.hubReset = false ∧ b.clk.lock = true ∧ b.clk.curOp = cal.save.clk.curOp ∧ b.clk.target = cal.save.clk.target ∧
        b.lock = { agents := cal.save.agents } ∧ b.hctl.sstLo = cal.save.hctl.sstLo ∧ b.pwr.cfg.offset = cal.aging ∧
        b.cal.valid = false ∧ (entry = true → b.pwr.regs.abortAp = 4 ∧ b.pwr.regs.aborted = true)) ∧
      (¬ ok → ∃ b, exec .pllLock s = s.becomes b ∧ b.aon.start = some (.cold, .s2) ∧ b.sram = {} ∧ b.clk.pllOn = true))) ∧
  (b0.aon.failed = false → b0.pins.iso = false →
    (q.seq ≠ .none ∨ q.cwPstate = .run ∨ q.cwPstate = .idle ∨ q.cwPstate = .sleep →
      ∃ b, exec .isoRequest s = s.becomes b ∧ b.pins.iso = true ∧ b.pwr.seq.clamp = true ∧ b.pwr.seq.hubReset = true ∧
        b.pwr.seq.seq = .none ∧ b.aon.start = none ∧ b.ing.credit = [] ∧ b.sram = b0.sram) ∧
    (q.seq = .none → q.cwPstate = .deep ∨ q.cwPstate = .off →
      exec .isoRequest s = s.becomes { b0 with pins := { b0.pins with iso := true } })) ∧
  (b0.pins.iso = true → b0.aon.start = none → b0.aon.failed = false → q.hubReset = true → q.offReq = false → q.seq = .none →
    b0.aon.loss = false → b0.aon.restoreAll = false → cal.valid = false →
    ∃ b, exec .isoRequestFall s = s.becomes b ∧ b.pins.iso = false ∧ b.aon.start = some (.warm, .s2) ∧ b.clk.pllOn = true)

/-- A package cold reset leaves every register, SRAM and the always-on domain as at reset, in a cold start; what the
package drives stays. A warm reset while no loss of supply lasts, and a software reset by the holder of the Setup Lock
with the key, leads by Table 16-2 to a cold start with its cause, to the exit from DEEP or OFF that the Caldera's
header names, or to a warm start that keeps SRAMs and configuration registers and resets the rest; any other SWRESET
write is refused. A start that is not in time is retried once as a cold start and then sets FAILED. Loss of supply
clamps and resets the block and sets LOSS; its return leads to a cold start. (16_reset_start.md, R575, R576, R577,
R578, R580, R586, R588, R589, R590, R591, Table 16-2) -/
def Obligations.ResetsAndSupplyLead : Prop :=
∀ s : State,
  let b0 := s.blk
  let q := b0.pwr.seq
  let cal := b0.cal
  let saved : Nat := (if cal.save.clk.curOp = 0 then 800 else if cal.save.clk.curOp = 1 then 680 else 580) + cal.aging.toNat
  let cold (b : Blk) (conv : Nat) : Prop := b.aon.start = some (.cold, .s2) ∧ b.aon.conv = conv ∧ b.sram = {} ∧ b.clk.pllOn = true ∧
    b.clk.lock = false ∧ b.pwr.seq.clamp = true ∧ b.pwr.seq.hubReset = true ∧ b.cal.valid = false ∧ b.lock = {} ∧ b.err = {}
  let kept (b : Blk) : Prop := b.aon.start = some (.warm, .s2) ∧ b.pwr.seq.clamp = true ∧ b.ing.credit = [] ∧
    b.sram.stt = b0.sram.stt ∧ b.sram.slots = b0.sram.slots ∧ b.clk.target = b0.clk.target ∧ b.clk.floor = b0.clk.floorLive ∧
    b.hctl = b0.hctl ∧ b.pwr.cfg.offset = b0.pwr.cfg.offset ∧ b.pwr.cfg.measured = b0.pwr.cfg.measured ∧
    b.err = {} ∧ b.lock = {} ∧ b.inj = {} ∧ b.dbg.level = .none ∧ b.dbg.tap.fails = b0.dbg.tap.fails ∧ b.rings.session = none ∧
    (∀ d, (b.dom d).gen = 0 ∧ (b.dom d).pair.st = .disabled ∧ (b.dom d).elq.st = .disabled ∧ (b.dom d).sh = (b0.dom d).sh) ∧
    ∀ k, (b.pair (.mgr k)).st = .disabled ∧ (b.pair (.mgr k)).cmd = (b0.pair (.mgr k)).cmd
  let by' (c : Instr) : Prop :=
    (b0.aon.failed = true → b0.aon.loss = false ∨ b0.pins.pg = true → ∃ b, exec c s = s.becomes b ∧ cold b b0.aon.conv ∧ b.aon.failed = false ∧ b.aon.failedBefore = true) ∧
    (b0.aon.failed = false → b0.aon.loss = true → b0.pins.pg = true → ∃ b, exec c s = s.becomes b ∧ cold b 3) ∧
    (b0.aon.failed = false → b0.aon.loss = false →
      (b0.aon.restoreAll = true → ∃ b, exec c s = s.becomes b ∧ cold b 4) ∧
      (b0.aon.restoreAll = false →
        (cal.valid = true → cal.kind = .deep → ∃ b, exec c s = s.becomes b ∧ b.pwr.seq.seq = .exit .deep false false ∧
          b.pwr.seq.avs = some (.exitDeep, saved) ∧ b.aon.start = none) ∧
        (cal.valid = true → cal.kind = .off → b0.pins.pg = true → ∃ b, exec c s = s.becomes b ∧
          b.pwr.seq.seq = .exit .off false false ∧ b.pwr.seq.avs = some (.exitOff, saved) ∧ b.aon.start = none) ∧
        (cal.valid = false → b0.rings.session = none → (∀ x ∈ b0.sram.doms, x.2.st ≠ .resetting ∧ x.2.st ≠ .restoring) → ∃ b, exec c s = s.becomes b ∧ kept b)))
  (∀ lc bist fuse, ∃ b, exec (.packageColdReset lc bist fuse) s = s.becomes b ∧
    b.pins = { b0.pins with lc := lc, bistOk := bist, fuseAck := fuse } ∧ b.time.tb = b0.time.tb ∧
    let r := State.reset.blk
    { b with pins := r.pins, time := r.time, ing := r.ing, spill := r.spill, fp := r.fp, free := r.free } = r) ∧
  (b0.pins.iso = false → by' .hubWarmReset) ∧
  (b0.pins.pg = false → b0.aon.loss = true → exec .hubWarmReset s = s.becomes b0) ∧
  (∀ id a, b0.Holder id a → by' (.softwareReset (.fp4 id) 0xC5) ∧
    ∀ key, key ≠ 0xC5 → ∃ b, exec (.softwareReset (.fp4 id) key) s = s.becomes b ∧ b0.Refused b) ∧
  (∀ id key, b0.NotHolder id → ∃ b, exec (.softwareReset (.fp4 id) key) s = s.becomes b ∧ b0.Refused b) ∧
  (∀ k at_, b0.aon.start = some (k, at_) → let cause := if at_ = .s2 then 3 else 7
    (b0.aon.retried = false → ∃ b, exec .startTimeout s = s.becomes b ∧ cold b b0.aon.conv ∧ b.aon.retried = true ∧ b.aon.fail1 = cause) ∧
    (b0.aon.retried = true → ∃ b, exec .startTimeout s = s.becomes b ∧
      b.aon = { b0.aon with start := none, failed := true, fail2 := cause } ∧ b.pwr.regs.state = .off ∧
      b.pwr.seq.cwPstate = .off ∧ b.pwr.seq.clamp = true ∧ b.pwr.seq.hubReset = true ∧ b.ing.credit = [])) ∧
  (b0.aon.start = none → exec .startTimeout s = s.becomes b0) ∧
  (q.offReq = false → b0.pins.pg = true → ∃ b, exec .supplyLoss s = s.becomes b ∧ b.pins.pg = false ∧
    b.aon = { b0.aon with loss := true, start := none } ∧ b.pwr.seq.clamp = true ∧ b.pwr.seq.cwPstate = .off ∧
    b.pwr.seq.seq = .none ∧ b.pwr.seq.hubReset = true ∧ b.ops.busy = false ∧ b.dbg.tap.fails = b0.dbg.tap.fails) ∧
  (q.offReq = true ∨ b0.pins.pg = false → exec .supplyLoss s = s.becomes b0) ∧
  (b0.pins.pg = false →
    (b0.aon.loss = true → b0.aon.failed = false → (∀ d e v, q.seq ≠ .exit d e v) →
      ∃ b, exec .powerGoodReturn s = s.becomes b ∧ cold b 3 ∧ b.pins.pg = true) ∧
    (∀ e v, q.seq = .exit .off e v → ∃ b, exec .powerGoodReturn s = s.becomes b ∧ b.pins.pg = true ∧
      b.pwr.seq.avs = some (.exitOff, saved) ∧ b.pwr.seq.seq = q.seq))

/-- At the lock of the IRQPLL a start fails on its BIST (a cold one), its ROM, its fuses or the Sequencer's RAM, in
that order, and a failed start is retried as a cold one; else a cold start reads its population and requests the
voltage of OP2. Further aging steps follow while the monitors want margin. With the offset measured and no link to
train, the start reaches RUN: clamps released, credits returned, internal sources mapped, domain 0 LIVE,
OPS.START_STAT written. A start leaving OFF whose Caldera image is invalid becomes cold with its cause.
(16_reset_start.md, 13_power.md, R25, R505, R512, R582, R583, R584, R589, Table 16-3) -/
def Obligations.StartsReachRunOrFail : Prop :=
∀ s : State,
  let b0 := s.blk
  let aon := b0.aon
  let fails (c : Instr) (cause : Nat) : Prop := aon.retried = false → ∃ b, exec c s = s.becomes b ∧
    b.aon = { aon with start := some (.cold, .s2), retried := true, fail1 := cause } ∧ b.sram = {}
  (∀ k, aon.start = some (k, .s2) → b0.clk.pllOn = true → b0.clk.lock = false →
    (k = .cold → b0.pins.bistOk = false → fails .pllLock 1) ∧
    (k ≠ .cold ∨ b0.pins.bistOk = true →
      (romOk = false → fails .pllLock 2) ∧
      (romOk = true → b0.pins.fuseAck = false → fails .pllLock 4) ∧
      (romOk = true → b0.pins.fuseAck = true →
        (b0.dbg.seqBad = true → fails .pllLock 5) ∧
        (b0.dbg.seqBad = false →
          (k = .cold → ∃ b, exec .pllLock s = s.becomes b ∧ b.aon = { aon with start := some (.cold, .s8) } ∧ b.clk.lock = true ∧
            b.pwr.seq.avs = some (.startAging, 580 + b0.pwr.cfg.offset.toNat) ∧ b.dbg.lc = b0.pins.lc ∧
            ∀ n < 16, setHas b.hctl.tilePop n = (tabGet 0 b0.pins.fuse 0).getLsbD n ∧ (b.link n).pop = setHas b.hctl.tilePop n) ∧
          (k = .off → b0.cal.valid = false → ∃ b, exec .pllLock s = s.becomes b ∧ b.aon.start = some (.cold, .s2) ∧
            b.aon.conv = 1 ∧ b.sram = {}))))) ∧
  (∀ v at_, aon.start = some (.cold, at_) → b0.pwr.seq.avs = some (.startAging, v) → b0.inj.arm = [] →
    let offset := b0.pwr.cfg.offset.toNat
    let now := if v = 580 + offset then offset else min 40 (offset + 5)
    (now < b0.pins.need → now < 40 → ∃ b, exec (.avsAck 0 true v) s = s.becomes b ∧ b.pwr.cfg.offset.toNat = now ∧
      b.pwr.seq.avs = some (.startAging, 580 + now + 5) ∧ b.aon.start = aon.start) ∧
    (b0.pins.need ≤ now ∨ 40 ≤ now → (∀ x ∈ b0.links, x.2.pop = false) → b0.pins.iso = false → (∀ i, b0.stt i = {}) →
      b0.ecc = {} → b0.ing.lanes = [] → b0.sram.doms = [] → b0.tim.armed = [] → b0.rings.mgr = [] → b0.pwr.seq.seq = .none →
      ∃ b, exec (.avsAck 0 true v) s = s.becomes b ∧ b.pwr.regs.state = .run ∧ b.pwr.seq.seq = .none ∧ b.pwr.seq.clamp = false ∧
        b.pwr.seq.hubReset = false ∧ b.pwr.seq.cwPstate = .run ∧ b.aon = { start := none } ∧
        b.pwr.cfg.measured = true ∧ b.pwr.cfg.offset.toNat = now ∧ b.clk.curOp = b0.clk.target ∧
        (b.dom 0).st = .live ∧ b.ss.kind = .cold ∧ b.ss.retried = aon.retried ∧ (∀ n < 96, tabGet 0 b.ing.credit n = 4) ∧
        ∀ k ∈ internalSources, (b.stt (1536 + k)).valid = true ∧ (b.stt (1536 + k)).kind = .internal ∧
          (b.stt (1536 + k)).vintid = BitVec.ofNat 24 (0xA00 + k)) ∧
    (fails .avsTimeout 6))

/-- A write of OPS.CTL.OP with code 1 to 4 by the holder of the Setup Lock starts that operation, unless one runs or a
power sequence is in progress, which sets REFUSED; from another agent it is refused and counted while none runs.
SPILL_ALL and RESTORE_ALL without a spill region, RESTORE_ALL on a block that is not empty, and SELFTEST while
admitted classes are live end at once with RESULT REFUSED and their DETAIL. SCRUB_ALL corrects every single-bit error
and reports their number. SPILL_ALL writes line 1 and, when that is acknowledged, the header. RESTORE_ALL with a sound
image sets the always-on flag, and at its end has the configuration of the image; a failed second check leaves the
block empty with ERROR 2. SELFTEST drains the clusters in turn; one that fails is DISABLED with every engine OFFLINE,
and the clause-fault source is raised. The end clears BUSY and sets DONE. (16_reset_start.md, 13_power.md, R499, R500,
R533, R535, R592, R594, R595, R598, Table 16-5) -/
def Obligations.LongOperations : Prop :=
∀ (s : State) (id : BitVec 8) (a : Nat),
  let b0 := s.blk
  let o := b0.ops
  let base := b0.spillBase / 64
  let ops : List (Nat × Instr) := [(1, .scrubAll (.fp4 id)), (2, .spillAll (.fp4 id)), (3, .restoreAll (.fp4 id)), (4, .selftest (.fp4 id) none)]
  let ended (o : Ops) (r d : Nat) : Ops := { o with busy := false, done := true, result := r, detail := d, progress := 0, prog := .none }
  let refusal (c : Instr) (op d : Nat) : Prop := ∃ b, exec c s = s.becomes b ∧ b.ops = ended { o with op := op } 2 d ∧
    { b with ops := o, arb := b0.arb } = b0
  let empty : Prop := (∀ x ∈ b0.sram.stt, (b0.stt x.1).valid = true → (b0.stt x.1).kind = .internal) ∧
    (∀ d ∈ b0.sram.doms, d.1 = 0 ∨ d.2.st = .absent) ∧ b0.adm = []
  (b0.Holder id a →
    (∀ x ∈ ops, o.busy = true ∨ b0.pwr.seq.seq ≠ .none →
      ∃ b, exec x.2 s = s.becomes b ∧ b = { b0 with ops := { o with refused := true } }) ∧
    (o.busy = false → b0.pwr.seq.seq = .none → b0.allExec = [] →
      (∃ b, exec (.scrubAll (.fp4 id)) s = s.becomes b ∧
        b = { b0 with ops := { o with busy := true, op := 1, progress := 0, prog := .scrub 0 } }) ∧
      (b0.spillEn = false → refusal (.spillAll (.fp4 id)) 2 1 ∧ refusal (.restoreAll (.fp4 id)) 3 1) ∧
      (b0.spillEn = true →
        (b0.inj.arm = [] → ∃ b, exec (.spillAll (.fp4 id)) s = s.becomes b ∧
          b.ops = { o with busy := true, op := 2, progress := 0, prog := .spill [base + 1] false false } ∧
          b.spill.seq = seqInc b0.spill.seq ∧ b.spill.bodies = b0.spill.bodies ++ [b0.spillBody] ∧
          (∃ w ∈ b.fp.out, w.kind = .spillImage ∧ w.line = base + 1) ∧ b.sram = b0.sram ∧ b.rings = b0.rings) ∧
        (¬ empty → refusal (.restoreAll (.fp4 id)) 3 2) ∧
        (empty → ∀ x, b0.spillImage s.mem = (some x, false) → lineWord (b0.hostLine s.mem base) 4 ≤ 1 →
          ∃ b, exec (.restoreAll (.fp4 id)) s = s.becomes b ∧ b.aon = { b0.aon with restoreAll := true } ∧ b.sram = b0.sram ∧
            b.ops = { o with busy := true, op := 3, progress := 0, prog := .restore (lineWord (b0.hostLine s.mem (base + 1)) 0).toNat })) ∧
      (b0.adm ≠ [] → refusal (.selftest (.fp4 id) none) 4 1) ∧
      (b0.adm = [] → ∀ f, (b0.cl 0).regs.st = .enabled → ∃ b, exec (.selftest (.fp4 id) f) s = s.becomes b ∧
        b.ops = { o with busy := true, op := 4, progress := 0, prog := .selftest f 0 } ∧ b.arb.mode = 0xFFFF ∧
        b.cl 0 = { b0.cl 0 with regs := { (b0.cl 0).regs with st := .busy } } ∧ ∀ c, c ≠ 0 → b.cl c = b0.cl c))) ∧
  (b0.NotHolder id → o.busy = false → ∀ x ∈ ops, ∃ b, exec x.2 s = s.becomes b ∧ b0.Refused b) ∧
  (∀ pre w post hdr, b0.fp.out = pre ++ w :: post → w.kind = .spillImage → (∀ y ∈ pre, y.line ≠ w.line) → b0.pwr.seq.seq = .none →
    b0.allExec = [] → b0.arb.stuck = [] → b0.inj.arm = [] → o.prog = .spill [w.line] hdr false →
    ∃ b, s.puts (exec (.lineWriteAck w.line) s) w.line w.data b ∧
      (hdr = true → b.ops = { o with prog := .ended 1 0 } ∧ b.fp.out = pre ++ post) ∧
      (hdr = false → b.ops = { o with prog := .spill [base] true false, progress := 128 } ∧
        ∃ d, b.fp.out = pre ++ post ++ [{ line := base, data := d, kind := .spillImage }] ∧ lineWord d 4 = 1)) ∧
  (b0.awake = true → b0.allExec = [] →
    (∀ r d, o.prog = .ended r d → ∃ b, exec .operationEnd s = s.becomes b ∧ b.ops = ended o r d ∧
      { b with ops := o, arb := b0.arb } = b0 ∧ b.arb = { b0.arb with mode := if o.op = 4 then 0 else b0.arb.mode }) ∧
    (∀ n, o.prog = .scrub n → o.op = 1 → b0.inj.arm = [] → b0.ecc.upsets = [] → ∃ b, exec .operationEnd s = s.becomes b ∧
      b.ops = ended o 1 (min 255 (b0.ecc.entryCe.length + b0.ecc.otherCe)) ∧ b.ecc.entryCe = [] ∧ b.ecc.otherCe = 0 ∧
      b.ecc.entryBad = b0.ecc.entryBad ∧ b.sram = b0.sram) ∧
    (∀ i, o.prog = .restore i → o.op = 3 → b0.sstEn = false → b0.inj.arm = [] → (∀ u ∈ b0.updates, u.kind.isWrite = false) →
      (∀ x, b0.spillImage s.mem = (some x, false) → ∃ b, exec .operationEnd s = s.becomes b ∧
        (let r := ((b0.writeSections x).zeroEntries s.mem).staging.checkAdmission.code
         (r = 0 → b.ops = ended o 1 0 ∧ b.sram.stt = x.sram.stt ∧ b.clk = { b0.clk with floorLive := b0.clk.floor }) ∧
         (r ≠ 0 → b.ops = ended o 4 r ∧ ∀ i, tabGet {} b.sram.stt i =
           let t := tabGet {} x.sram.stt i
           if 2 ≤ t.rank.cls then { t with rank := { t.rank with cls := 1 } } else t)) ∧
        b.aon = { b0.aon with restoreAll := false } ∧ b.sram.vct = x.sram.vct ∧
        (∀ d, (tabGet {} x.sram.doms d).st ≠ .absent → (b.dom d).st = .live ∧ (b.dom d).gen = 0 ∧ (b.dom d).pair.st = .disabled ∧
          (b.dom d).elq.st = .disabled ∧ (b.dom d).sh = (tabGet {} x.sram.doms d).sh) ∧
        (∀ c, c < 16 → (b.cl c).prog = (tabGet {} x.cls c).prog ∧ (b.cl c).data = (tabGet {} x.cls c).data ∧
          (b.cl c).regs = (b0.cl c).regs) ∧ b.tim.armed = []) ∧
      (∀ z, b0.spillImage s.mem = (none, z) → ∃ b, exec .operationEnd s = s.becomes b ∧ b.ops = ended o 3 2 ∧
        b.aon = { b0.aon with restoreAll := false } ∧ (∀ i, (tabGet {} b.sram.stt i).kind ≠ .internal → (tabGet {} b.sram.stt i).valid = false) ∧
        (∀ d, d ≠ 0 → (b.dom d).st = .absent) ∧ ∀ c, (b.cl c).prog = [] ∧ (b.cl c).data = [])) ∧
    (∀ n, o.prog = .settle n → (∀ x ∈ b0.mapped, x.2.res = true) → (∀ u ∈ b0.updates, u.kind ≠ .settle) → ∃ b, exec .operationEnd s = s.becomes b ∧ b.ops = ended o 1 0 ∧
      b.sram = b0.sram)) ∧
  (∀ f k, k < 16 → b0.awake = true → o.prog = .selftest f k → (b0.cl k).regs.st = .busy → b0.clusterQuiet k = true →
    ∃ b, exec (.clusterDrainEnd k) s = s.becomes b ∧
      (b.cl k).regs = (if f = some k then { (b0.cl k).regs with en := false, st := .disabled, offline := List.range 16 }
        else { (b0.cl k).regs with st := if (b0.cl k).regs.en then .enabled else .disabled }) ∧
      (f = some k → 0x08 ∈ (b.lane 24).reports) ∧
      (k = 15 → b.ops = { o with prog := match f with
        | some u => .ended 3 u
        | none => .ended 1 0 }) ∧
      (k < 15 → (b0.cl (k + 1)).regs.st = .enabled → (b.cl (k + 1)).regs = { (b0.cl (k + 1)).regs with st := .busy } ∧
        b.ops = { o with prog := .selftest f (k + 1), progress := 16 * (k + 1) }))

/-- At a scrub period each bank without other requests serves its waiting row and its next one, whose error is
corrected; a busy bank's row waits, and one still waiting is counted as late and reported. A scrubber corrects one
error of the other SRAMs, or finds a lost word, which is handled as Table 14-1 gives for its structure (a program
word: class SURPLUS, code 5). A rebuilt entry has PEND of its line's level, or 1, ACT and DLV as handles and proxies
name its index, SHR of that handle, and nothing held, and is offered if due. A revoked grant is counted and reported.
A Sequencer restart reports code 24, completes a COMMIT with CHECK, starts joins again, abandons a power entry. A
write of INJ.ARM arms the points whose gate Table 14-8 opens and records a refusal of the others; an armed point 22
withholds one acknowledgement. The index that code 24 captures is a free value (log entry 30). (14_faults_checking.md,
R515, R516, R518, R521, R531, R533, R535, R545, R546, Table 14-1, Table 14-8) -/
def Obligations.ErrorsAreRecovered : Prop :=
∀ s : State,
  let b0 := s.blk
  let arb := b0.arb
  let busy (k : Nat) : Prop := (∃ x ∈ arb.stuck, x.1 = k) ∨ ∃ l ∈ b0.ing.lanes, ∃ x ∈ l.2.hold, x.1 = k
  let row (k : Nat) : Nat := tabGet 0 arb.scrubRow k
  let late : List Nat := (List.range 16).filter (fun k => setHas arb.scrubPend k && b0.bankBusy k)
  let handle (i : Nat) (h : Handle) : Prop := h.stt = i ∧
    ((∃ l ∈ b0.links, ∃ x ∈ l.2.handles, x.2 = h ∧ h.prox = none) ∨ ∃ p ∈ b0.fed.peers, ∃ x ∈ p.2.proxies, x.2 = h)
  let rebuilt (i : Nat) (t : Stt) (used : Bool) (e : Entry) : Prop :=
    e.pend = (if t.kind = .level then setHas b0.ing.level i == t.pol else true) ∧ e.lvl = (decide (t.kind = .level) && e.pend) ∧
    (e.act = true ↔ ∃ h, handle i h ∧ h.st = .active) ∧ (e.dlv = true ↔ ∃ h, handle i h ∧ (h.st = .queued ∨ h.st = .standing)) ∧
    (e.dlv = false → e.shr = false) ∧ (∀ v : Bool, e.dlv = true → (∀ h, handle i h → (h.st = .queued ∨ h.st = .standing) → h.shr = v) → e.shr = v) ∧
    e.held = 0 ∧ e.defr = false ∧ e.rpt = false ∧ e.dem = false ∧ e.rtv = false ∧ e.used = used ∧ e.rclass = t.rank.cls ∧
    e.rprio = t.rank.prio ∧ e.gen = (b0.dom t.domid).gen ∧ e.stamp = b0.now.extractLsb' 6 14
  (b0.awake = true → b0.err.scrubEn = true → setHas b0.pwr.seq.stopped 46 = false → b0.inj.arm = [] →
    ∃ b, exec .scrubPeriod s = s.becomes b ∧
      (∀ k < 16, (setHas b.arb.scrubPend k = true ↔ busy k) ∧
        (busy k → tabGet 0 b.arb.scrubRow k = row k) ∧
        (¬ busy k → setHas b.ecc.entryCe (16 * row k + k) = false ∧
          tabGet 0 b.arb.scrubRow k = (row k + if setHas arb.scrubPend k then 2 else 1) % 16384)) ∧
      b.err.scrubLateCnt = late.foldl (fun c _ => satInc c) b0.err.scrubLateCnt ∧
      b.err.st.scrubLate = (b0.err.st.scrubLate || !late.isEmpty) ∧
      (late ≠ [] → 0x10 ∈ (b.lane 24).reports) ∧ b.sram = b0.sram ∧ b.ecc.entryBad = b0.ecc.entryBad) ∧
  (b0.awake = false ∨ b0.err.scrubEn = false ∨ setHas b0.pwr.seq.stopped 46 = true → exec .scrubPeriod s = s.becomes b0) ∧
  (b0.awake = true → b0.ecc.upsets = [] → ∀ n, b0.ecc.otherCe = n + 1 → ∃ b, exec .storeScrub s = s.becomes b ∧ b.ecc = { b0.ecc with otherCe := n } ∧
    b.err = { b0.err with ceCnt := satInc b0.err.ceCnt, st := { b0.err.st with ce := true } } ∧
    (b.lane 24).reports = (b0.lane 24).reports ++ [0x00]) ∧
  (b0.awake = true → b0.ecc.otherCe = 0 → ∀ c a rest, b0.ecc.upsets = .program c a :: rest → ∃ b, exec .storeScrub s = s.becomes b ∧
    b.ecc = { b0.ecc with upsets := rest } ∧ setHas (b.cl c).progBad a = true ∧ b.err.ueCnt = satInc b0.err.ueCnt ∧
    b.err.st.ueSur = true ∧ (b0.err.ueCap.valid = false → b.err.ueCap = { code := 5, cls := 2, index := a % 2 ^ 24, valid := true }) ∧
    (b.lane 24).reports = (b0.lane 24).reports ++ [0x02]) ∧
  (b0.awake = true → b0.inj.arm = [] → ∀ (i : Nat) (t : Stt), b0.stt i = t → t.valid = true →
    (b0.dom t.domid).still = false →
    (t.res = true → setHas b0.ecc.entryBad t.slot = true → (∀ x ∈ b0.rank.offers, x.1 ≠ t.slot % 16) →
      (∀ x ∈ b0.sram.stt, x.2.valid = true → x.2.res = true → x.2.slot = t.slot → x.1 = i) →
      ∃ b e, exec (.entryRebuild false t.slot) s = s.becomes b ∧ rebuilt i t true e ∧ b0.SettlesAt b i t e ∧
        setHas b.ecc.entryBad t.slot = false ∧ ∀ n, n ≠ t.slot → b.slot n = b0.slot n) ∧
    (t.res = false → setHas b0.ecc.spillBad i = true → (∀ x ∈ b0.rank.offers, x.1 ≠ 16) → b0.rings.session = none →
      b0.lc.st ≠ .disabled → (∀ k ∈ b0.lc.bufs, k.held = false) → ∀ l, b0.lc.find (b0.sstLine i) = some l →
      ∃ b e l', exec (.entryRebuild true i) s = s.becomes b ∧ rebuilt i t false e ∧ setHas b.ecc.spillBad i = false ∧
        b.lc.find (b0.sstLine i) = some l' ∧ l'.dirty = true ∧
        (let due : Bool := e.pend && !e.act && !e.dlv
         lineDword l'.data (i % 8) = encodeEntry { e with dlv := e.dlv || due } ∧
         b.rank.offers = if due then tabPut b0.rank.offers 16 (offerOf i t { e with dlv := true }) else b0.rank.offers))) ∧
  (∀ n, setHas b0.ecc.entryBad n = false → exec (.entryRebuild false n) s = s.becomes b0) ∧
  (∀ bank, b0.allExec = [] →
    ((∃ x ∈ arb.stuck, x.1 = bank) → ∃ b, exec (.grantRevoke bank) s = s.becomes b ∧
      b.arb = { arb with stuck := tabDel arb.stuck bank, revoke := satInc arb.revoke } ∧
      (b.lane 24).reports = (b0.lane 24).reports ++ [0x0A]) ∧
    ((∀ x ∈ arb.stuck, x.1 ≠ bank) → exec (.grantRevoke bank) s = s.becomes b0)) ∧
  (b0.up = true → b0.dbg.seqBad = false →
    let reports (b : Blk) : Prop := exec .sequencerRestart s = s.becomes b ∧ b.err.ueCnt = satInc b0.err.ueCnt ∧
      b.err.st.ueRec = true ∧ (b0.err.ueCap.valid = false → b.err.ueCap.code = 24 ∧ b.err.ueCap.cls = 1) ∧
      0x01 ∈ (b.lane 24).reports ∧ ∀ p, (b.peer p).joining = false
    (b0.allExec = [] → b0.pwr.seq.seq = .none → ∃ b, reports b ∧ b.sram = b0.sram ∧
      b.inj = if setHas b0.inj.arm 25 = true ∧ b0.inRun = true then { b0.inj with arm := setDel b0.inj.arm 25, fired := true, last := 25 }
        else b0.inj) ∧
    (b0.allExec = [] → ∀ t l h, b0.pwr.seq.seq = .save t l h → (∀ w, b0.pwr.seq.wake = some w → w.1 ≤ 9) → ∃ b, reports b ∧ b.pwr.seq.wake = b0.pwr.seq.wake.or (some (9, 0))) ∧
    (b0.awake = true → b0.pwr.seq.seq = .none → b0.Writes → ∀ k e x, k < 8 →
      b0.allExec = [(.mgr k, e)] → (b0.pair (.mgr k)).exec = [e] → e.wait = .commit x →
      ∃ b, reports b ∧ (b.pair (.mgr k)).exec = [] ∧ b0.Records b (.mgr k) e.seq (lineWord e.line 0 % 256).toNat
        ((lineWord e.line 0).toNat / 65536) 2 0 [])) ∧
  (b0.Port4 → ∀ (id : BitVec 8) (points : BitVec 28),
    let opens (p : Nat) : Prop := b0.dbg.lc = 0 ∨ b0.dbg.level = .invasive ∨
      (b0.dbg.level = .observe ∧ b0.dbg.lc ≠ 2 ∧ p ∉ [1, 3, 4, 6, 7, 15, 16, 19, 20, 22, 23, 25, 26, 27])
    ∃ b, exec (.injectionArm (.fp4 id) points) s = s.becomes b ∧ { b with inj := b0.inj } = b0 ∧
      { b.inj with arm := [], refused := false } = { b0.inj with arm := [], refused := false } ∧
      (∀ p, setHas b.inj.arm p = true ↔ setHas b0.inj.arm p = true ∨ (p < 28 ∧ points.getLsbD p = true ∧ opens p)) ∧
      (b.inj.refused = true ↔ b0.inj.refused = true ∨ ∃ p < 28, points.getLsbD p = true ∧ ¬ opens p)) ∧
  (b0.inRun = true → setHas b0.inj.arm 22 = true → ∀ x, b0.pwr.seq.avs = some x → ∃ b, exec (.avsAck 0 true x.2) s = s.becomes b ∧
    b = { b0.avsExchange x.2 0 with inj := { b0.inj with arm := setDel b0.inj.arm 22, fired := true, last := 22 } })

/-- LOCK.CTL from a source that no valid slot names is an access error of kind LOCK. From agent a, LEASE takes the
value written; ACQUIRE with a lease from 1 to 1,000 takes a free lock, is denied while another agent holds it, and
breaks and retakes a lock of its own; RENEW by the owner sets REMAIN; RELEASE by the owner frees the lock, or sets
REL_PEND while a session is open; BREAK by a breaker breaks a held lock; each other one sets DENIED. A break, also by
expiry of the lease, ends the session, completes a waiting COMMIT with LOCK, returns FLOOR, frees the lock, records
its cause and raises 0x70. A slot takes one write per start; another, or one that repeats the identifier of a valid
slot, is an access error. (14_faults_checking.md, 17_hub_registers.md, R536, R538, R539, R540, R541, R544, R605) -/
def Obligations.SetupLockIsLeased : Prop :=
∀ (s : State) (id : BitVec 8),
  let b0 := s.blk
  let k0 := b0.lock
  let rest (b : Blk) : Prop := { b with lock := k0 } = b0
  let cmds (n : BitVec 10) : List Instr := [.acquire (.fp4 id) n, .renew (.fp4 id) n, .release (.fp4 id) n, .breakLock (.fp4 id) n]
  let accessError (c : Instr) (off : Nat) : Prop := ∃ b, exec c s = s.becomes b ∧ b.err.accCnt = satInc b0.err.accCnt ∧
    b.err.st.access = true ∧ b.err.accCap = (if b0.err.accCap.valid then b0.err.accCap
      else { kind := 3, offset := off / 4, write := true, valid := true }) ∧
    (b.lane 24).reports = (b0.lane 24).reports ++ [0x06] ∧ { b with err := b0.err, ing := b0.ing } = b0
  let broken (c : Instr) (f : Lock → Lock) (cause : BitVec 2) : Prop :=
    (b0.allExec = [] → ∃ b, exec c s = s.becomes b ∧ b.rings.session = none ∧
      b.lock = f { k0 with held := false, relPend := false, remain := 0, broken := true, cause := cause } ∧
      b.clk = { b0.clk with floor := b0.clk.floorLive } ∧ 0x70 ∈ (b.lane 24).reports) ∧
    (b0.awake = true → b0.ops.prog.spilling = false → b0.Writes → ∀ r e x, b0.allExec = [(.mgr r, e)] → (b0.pair (.mgr r)).exec = [e] → e.wait = .commit x → ∃ b, exec c s = s.becomes b ∧
        b.rings.session = none ∧ (b.pair (.mgr r)).exec = [] ∧ 0x70 ∈ (b.lane 24).reports ∧
        b0.Records b (.mgr r) e.seq (lineWord e.line 0 % 256).toNat ((lineWord e.line 0).toNat / 65536) 7 0 [])
  (b0.Port4 →
    (∀ n, (∀ a < 16, (tabGet {} k0.agents a).valid = true → (tabGet {} k0.agents a).srcid ≠ id) → ∀ c ∈ cmds n, accessError c 0xB0000) ∧
    (∀ (a : Nat) (n : BitVec 10), a < 16 → (tabGet {} k0.agents a).valid = true → (tabGet {} k0.agents a).srcid = id →
      (∀ j < 16, (tabGet {} k0.agents j).valid = true → (tabGet {} k0.agents j).srcid = id → j = a) →
      let ok : Prop := 1 ≤ n.toNat ∧ n.toNat ≤ 1000
      let mine : Prop := k0.held = true ∧ k0.owner = a
      let denied (c : Instr) : Prop := ∃ b, exec c s = s.becomes b ∧ rest b ∧ b.lock = { k0 with lease := n.toNat, denied := true }
      (¬ ok ∨ (k0.held = true ∧ k0.owner ≠ a) → denied (.acquire (.fp4 id) n)) ∧
      (ok → k0.held = false → ∃ b, exec (.acquire (.fp4 id) n) s = s.becomes b ∧ rest b ∧
        b.lock = { k0 with lease := n.toNat, held := true, owner := a, remain := n.toNat }) ∧
      (ok → mine → broken (.acquire (.fp4 id) n) (fun k => { k with lease := n.toNat, held := true, owner := a, remain := n.toNat }) 2) ∧
      (ok → mine → ∃ b, exec (.renew (.fp4 id) n) s = s.becomes b ∧ rest b ∧
        b.lock = { k0 with lease := n.toNat, remain := n.toNat }) ∧
      (¬ ok ∨ ¬ mine → denied (.renew (.fp4 id) n)) ∧
      (mine → b0.rings.session = none → ∃ b, exec (.release (.fp4 id) n) s = s.becomes b ∧ rest b ∧
        b.lock = { k0 with lease := n.toNat, held := false, relPend := false, remain := 0 }) ∧
      (mine → ∀ ss, b0.rings.session = some ss → ∃ b, exec (.release (.fp4 id) n) s = s.becomes b ∧ rest b ∧
        b.lock = { k0 with lease := n.toNat, relPend := true }) ∧
      (¬ mine → denied (.release (.fp4 id) n)) ∧
      (k0.held = true → (tabGet {} k0.agents a).breaker = true →
        broken (.breakLock (.fp4 id) n) (fun k => { k with lease := n.toNat }) 1) ∧
      (k0.held = false ∨ (tabGet {} k0.agents a).breaker = false → denied (.breakLock (.fp4 id) n))) ∧
    (∀ (a : Nat) (sid : BitVec 8) (v br : Bool), a < 16 →
      let t := tabGet {} k0.agents a
      let again : Prop := v = true ∧ ∃ j < 16, j ≠ a ∧ (tabGet {} k0.agents j).valid = true ∧ (tabGet {} k0.agents j).srcid = sid
      (t.written = false → ¬ again → ∃ b, exec (.agentBind (.fp4 id) a sid v br) s = s.becomes b ∧ rest b ∧
        (∀ j, tabGet {} b.lock.agents j = if j = a then { srcid := sid, valid := v, breaker := br, written := true }
          else tabGet {} k0.agents j) ∧ { b.lock with agents := k0.agents } = k0) ∧
      (t.written = true ∨ again → accessError (.agentBind (.fp4 id) a sid v br) (0xB0040 + 4 * a)))) ∧
  (b0.up = true → k0.held = true → broken .leaseExpiry (fun k => k) 0) ∧
  (b0.up = true → b0.inRun = true → k0.held = true → setHas b0.inj.arm 21 = true → b0.allExec = [] → ∃ b, exec .leaseExpiry s = s.becomes b ∧
    b.inj = { b0.inj with arm := setDel b0.inj.arm 21, fired := true, last := 21 } ∧ b.lock.held = false ∧ b.lock.cause = 0) ∧
  (k0.held = false → exec .leaseExpiry s = s.becomes b0)

/-- An access at FP4 that is not an aligned 32-bit one, or whose header fails its parity, is an access error: counted,
captured unless a capture is held, reported as 0x06, without effect; such a read returns 0. A write of RW fields sets
them; of W1C bits clears those written 1 and keeps the others; of a counter clears it with 0 and is discarded
otherwise; of a read-only block is ignored; of an RWL field takes effect from the holder of the Setup Lock, is refused
from another agent, and does nothing with the current value. A read returns the register; of a LO half it also latches
the HI half, which the same agent's next read of HI returns whatever HI holds by then, and any other access releases.
(00_scope.md, 14_faults_checking.md, 17_hub_registers.md, R6, R8, R11, R12, R544, R601, R603, R606) -/
def Obligations.RegistersFollowTheirAccessCodes : Prop :=
∀ (s : State) (id : BitVec 8) (v : Word), s.blk.awake = true → setHas s.blk.fp.badIn 4 = false →
  let b0 := s.blk
  let e := b0.err
  let wr (off : Nat) : Instr := .registerWrite (.fp4 id) off 4 v false
  let rd (off : Nat) : Instr := .loHalfRead (.fp4 id) off 4 false
  let gives (off : Nat) (x : Word) (b : Blk) : Prop := exec (rd off) s = s.becomes b ∧ tabGet 0 b.dbg.rdata id.toNat = x ∧
    { b with dbg := b0.dbg } = b0
  let isErr (c : Instr) (kind off : Nat) (w : Bool) (b : Blk) : Prop := exec c s = s.becomes b ∧
    b.err = { e with accCnt := satInc e.accCnt, st := { e.st with access := true }, accCap := if e.accCap.valid then e.accCap
      else { kind := kind, offset := off / 4, write := w, valid := true } } ∧
    (b.lane 24).reports = (b0.lane 24).reports ++ [0x06] ∧ { b with err := e, ing := b0.ing, dbg := b0.dbg } = b0
  let wasLo (off : Nat) (hi : Word) (b : Blk) : Prop := tabGet (0, 0) b.dbg.hiLatch id.toNat = (off + 4, hi)
  (b0.dbg.hiLatch = [] → ∀ off size pe, off < 0x100000 → size ≠ 4 ∨ off % 4 ≠ 0 ∨ pe = true →
    (∃ b, isErr (.registerWrite (.fp4 id) off size v pe) (if pe then 2 else 1) off true b) ∧
    (∃ b, isErr (.loHalfRead (.fp4 id) off size pe) (if pe then 2 else 1) off false b ∧ tabGet 0 b.dbg.rdata id.toNat = 0)) ∧
  (b0.dbg.hiLatch = [] →
    (∃ b, exec (wr 0x70014) s = s.becomes b ∧ b = { b0 with err := { e with scrubPeriod := v.setWidth 8, scrubEn := v.getLsbD 8 } }) ∧
    (∃ b, exec (wr 0x70000) s = s.becomes b ∧ b = { b0 with err := { e with st := { e.st with
      ce := e.st.ce && !v.getLsbD 0, ueRec := e.st.ueRec && !v.getLsbD 1, ueSur := e.st.ueSur && !v.getLsbD 2,
      access := e.st.access && !v.getLsbD 4, fpFail := e.st.fpFail && !v.getLsbD 5, scrubLate := e.st.scrubLate && !v.getLsbD 6 } } }) ∧
    (∃ b, exec (wr 0x70020) s = s.becomes b ∧ b = if v = 0 then { b0 with err := { e with ceCnt := 0 } } else b0) ∧
    (∀ off, off < 0x10000 → off % 4 = 0 → exec (wr off) s = s.becomes b0) ∧
    (v &&& 0xFFFFF000 = b0.hctl.msiLo → exec (wr 0x10010) s = s.becomes b0)) ∧
  (∀ a, b0.Holder id a → ∃ b, exec (wr 0x10010) s = s.becomes b ∧ b = { b0 with hctl := { b0.hctl with msiLo := v &&& 0xFFFFF000 } }) ∧
  (b0.NotHolder id → v &&& 0xFFFFF000 ≠ b0.hctl.msiLo → ∃ b, exec (wr 0x10010) s = s.becomes b ∧ b0.Refused b) ∧
  (b0.dbg.hiLatch = [] →
    (∃ b, gives 0x70020 e.ceCnt b ∧ b.dbg.hiLatch = []) ∧ (∃ b, gives 0x10010 b0.hctl.msiLo b) ∧
    (∃ b, gives 0x90028 b0.dbg.mw.lo b ∧ wasLo 0x90028 b0.dbg.mw.hi b) ∧
    (∀ n < 16, ∃ b, gives (0xF0100 + 32 * n) ((b0.link n).live.setWidth 32) b ∧
      wasLo (0xF0100 + 32 * n) ((b0.link n).live.extractLsb' 32 32) b)) ∧
  (∀ hi, tabGet (0, 0) b0.dbg.hiLatch id.toNat = (0x9002C, hi) →
    (∃ b, gives 0x9002C hi b ∧ tabGet (0, 0) b.dbg.hiLatch id.toNat = (0, 0)) ∧
    (∃ b, gives 0x70020 e.ceCnt b ∧ tabGet (0, 0) b.dbg.hiLatch id.toNat = (0, 0)))

/-- FP4 opens a level at or below the current one, or OBSERVE; JTAG also the levels that Table 15-2 opens by a write;
others set LVL_REFUSED. A fall from INVASIVE ends halts and disarms points that the gates then refuse. At INVASIVE
only: halts are set, a step runs one instruction of a running engine of a halted cluster, and the window reads or
writes one word, a write taints, and an address outside its space, a write of the ROM, or an engine not halted sets
ERR. Trace rows empty the buffer, or take the oldest record. The TAP forms a challenge with a fresh free value where
Table 15-2 asks for a response and the key is valid; the response is compared, grants its level or counts a failure,
and 8 failures lock out. The debug agent reaches what its level reaches. (15_lifecycle_debug.md, R554, R555, R556,
R559, R560, R561, R562, R565, R566, R568, R574) -/
def Obligations.DebugLevelsHaltsAndWindow : Prop :=
∀ (s : State) (id : BitVec 8),
  let b0 := s.blk
  let d := b0.dbg
  let tap := d.tap
  let code (l : Level) : Nat := match l with
    | .none => 0
    | .observe => 1
    | .invasive => 2
  let lvl (l : BitVec 2) : Level := if l = 0 then .none else if l = 1 then .observe else .invasive
  let byWrite (l : BitVec 2) : Prop := l = 0 ∨ (l = 1 ∧ d.lc ≠ 2) ∨ (l = 2 ∧ d.lc = 0)
  let rkey : Prop := d.lc = 3
  let keyValid : Bool := (tabGet 0 b0.pins.fuse 0x40).getLsbD (if d.lc = 3 then 1 else 0)
  let takes (b : Blk) (l : BitVec 2) (jtag : Bool) : Prop := b.dbg.level = lvl l ∧ b.dbg.src = jtag ∧
    (d.level = .invasive ∧ l ≠ 2 → b.dbg.haltCl = [] ∧ b.dbg.haltSeq = false ∧ ∀ p, setHas b.inj.arm p = true ↔
      setHas b0.inj.arm p = true ∧ (d.lc = 0 ∨ (l = 1 ∧ d.lc ≠ 2 ∧ p ∉ [1, 3, 4, 6, 7, 15, 16, 19, 20, 22, 23, 25, 26, 27]))) ∧
    (d.level ≠ .invasive ∨ l = 2 → { b with dbg := d } = b0 ∧ b.dbg.haltCl = d.haltCl ∧ b.dbg.haltSeq = d.haltSeq)
  let sets (c : Instr) (x : Dbg) : Prop := ∃ b, exec c s = s.becomes b ∧ b = { b0 with dbg := x }
  let taps (c : Instr) (x : Tap) : Prop := sets c { d with tap := x }
  let step (c k : Nat) (r : Run) : Prop := exec (.debugStep (.fp4 id) c k) s = s.becomes (b0.modCl c (fun x =>
    { x with engines := tabMod {} x.engines k (fun e => { e with st := .running r }) }))
  (b0.Port4 → b0.allExec = [] →
    (∀ l, l ≠ 3 → l.toNat ≤ code d.level ∨ l = 1 → ∃ b, exec (.debugLevelWrite (.fp4 id) l) s = s.becomes b ∧ takes b l false) ∧
    (∀ l, l = 3 ∨ (code d.level < l.toNat ∧ l ≠ 1) → sets (.debugLevelWrite (.fp4 id) l) { d with lvlRefused := true }) ∧
    (∀ l, l ≠ 3 → l.toNat ≤ code d.level ∨ byWrite l → ∃ b, exec (.debugLevelWrite .debug l) s = s.becomes b ∧ takes b l true) ∧
    (∀ l, l = 3 ∨ (code d.level < l.toNat ∧ ¬ byWrite l) → ∃ b, exec (.debugLevelWrite .debug l) s = s.becomes b ∧
      b.dbg.lvlRefused = true ∧ b.dbg.level = d.level ∧ b.dbg.src = d.src) ∧
    (d.level ≠ .none → ∀ w, sets (.traceClear (.fp4 id) w) { d with trace := { wrap := w } }) ∧
    (d.level = .none → ∀ w, exec (.traceClear (.fp4 id) w) s = s.becomes b0) ∧
    (∀ x rest, d.trace.recs = x :: rest → ∃ b, exec (.traceRead (.fp4 id)) s = s.becomes b ∧
      b.dbg.trace = { d.trace with recs := rest } ∧ tabGet 0 b.dbg.rdata id.toNat = x.2) ∧
    (d.trace.recs = [] → ∃ b, exec (.traceRead (.fp4 id)) s = s.becomes b ∧ b.dbg.trace = d.trace ∧ tabGet 0 b.dbg.rdata id.toNat = 0) ∧
    (d.level ≠ .invasive → ∀ cl seq c k sp w, c < 16 → k < 16 → sp < 8 →
      exec (.debugHalt (.fp4 id) cl seq) s = s.becomes b0 ∧ exec (.debugStep (.fp4 id) c k) s = s.becomes b0 ∧
      sets (.memoryWindowOp (.fp4 id) sp w c k) { d with mw := { d.mw with err := true } }) ∧
    (d.level = .invasive → b0.pwr.seq.stopped = [] →
      (∀ (cl : BitVec 16) (seq : Bool), sets (.debugHalt (.fp4 id) cl seq)
        { d with haltCl := (List.range 16).filter (fun k => cl.getLsbD k), haltSeq := seq }) ∧
      (∀ c k r w, c < 16 → k < 16 → setHas d.haltCl c = true → ({ b0 with dbg := { d with haltCl := [] } }).AtInstr c k r w →
        (opOf w = 0x02 → step c k (r.wrote w ((w.extractLsb' 0 14).signExtend 24) r.f)) ∧
        (opOf w = 0x30 → fD w = 0 → step c k { r with steps := r.steps + 1, pc := BitVec.ofInt 13 (r.pc.toNat + 1 + (w.extractLsb' 0 14).toInt) })) ∧
      (∀ c k, c < 16 → k < 16 → setHas d.haltCl c = false → exec (.debugStep (.fp4 id) c k) s = s.becomes b0) ∧
      (∀ sp w c k, sp < 8 → c < 16 → k < 16 →
        let mw : MemWin := { d.mw with space := sp, write := w, cluster := c, engine := k, done := true, err := false, waits := false }
        let a := mw.addr
        let cmd : Instr := .memoryWindowOp (.fp4 id) sp w c k
        let reads (v : Dword) : Prop := sets cmd { d with mw := { mw with lo := v.extractLsb' 0 32, hi := v.extractLsb' 32 32 } }
        let wrote (f : Blk → Blk) : Prop := ∃ b, exec cmd s = s.becomes b ∧ b = f { b0 with dbg := { d with mw := mw, taint := true } }
        let size : Nat := match sp with
          | 0 => 262144
          | 1 => 8192
          | 2 => 4096
          | 3 => 19
          | 4 => 65536
          | 5 => 32768
          | _ => 0
        (size ≤ a ∨ (sp = 4 ∧ w = true) ∨ (sp = 3 ∧ setHas d.haltCl c = false) → sets cmd { d with mw := { mw with err := true } }) ∧
        (sp = 0 → a < size → b0.inj.arm = [] → setHas b0.ecc.entryBad a = false → setHas b0.ecc.entryCe a = false →
          (b0.bankBusy (a % 16) = true → sets cmd { d with mw := { mw with done := false, waits := true } }) ∧
          (b0.bankBusy (a % 16) = false → ∃ b, exec cmd s = s.becomes b ∧
            (w = false → b.dbg = { d with mw := { mw with lo := (encodeEntry (b0.slot a).entry).extractLsb' 0 32,
                                                          hi := (encodeEntry (b0.slot a).entry).extractLsb' 32 32 } } ∧ b.sram = b0.sram) ∧
            (w = true → b.dbg = { d with mw := mw, taint := true } ∧ (b.slot a).entry = decodeEntry (d.mw.hi ++ d.mw.lo) ∧
              ∀ n, n ≠ a → b.slot n = b0.slot n))) ∧
        (sp = 1 → a < size → (w = false → setHas (b0.cl c).progBad a = false → reads ((tabGet 0 (b0.cl c).prog a).setWidth 64)) ∧
          (w = true → wrote (fun b => b.modCl c (fun x => { x with prog := tabSet 0 x.prog a (d.mw.lo.setWidth 24), progBad := setDel x.progBad a })))) ∧
        (sp = 2 → a < size → (w = false → setHas (b0.cl c).dataBad a = false → b0.inj.arm = [] → reads ((tabGet 0 (b0.cl c).data a).setWidth 64)) ∧
          (w = true → wrote (fun b => b.modCl c (fun x => { x with data := tabSet 0 x.data a (d.mw.lo.setWidth 24), dataBad := setDel x.dataBad a })))) ∧
        (sp = 3 → setHas d.haltCl c = true → ∀ r, (tabGet {} (b0.cl c).engines k).st = .running r → w = false →
          (a < 16 → reads ((r.reg a).setWidth 64)) ∧ (a = 17 → reads (r.pc.setWidth 64)) ∧ (a = 18 → reads (BitVec.ofNat 64 r.steps))) ∧
        (sp = 4 → a < size → w = false → reads ((Config.romWord a).setWidth 64)) ∧
        (sp = 5 → a < size → (w = true → sets cmd { d with mw := mw, taint := true, seqRam := tabSet 0 d.seqRam a d.mw.lo }) ∧
          (w = false → b0.inj.arm = [] → d.seqBad = false → reads ((tabGet 0 d.seqRam a).setWidth 64)))))) ∧
  (taps .tapReset { tap with ir := 1 }) ∧ (∀ ir, taps (.tapInstructionUpdate ir) { tap with ir := ir }) ∧
  (b0.aon.failed = false → tap.ir = 0x20 → ∀ sh : BitVec 200,
    let req : BitVec 2 := sh.setWidth 2
    let no (st : BitVec 8) : Prop := taps (.dbgChal sh) { tap with chal := none, chalStatus := st }
    (b0.tapReady = false → taps (.dbgChal sh) { tap with chalStatus := 2 }) ∧
    (b0.tapReady = true →
      (tap.fails = 8 → no 3) ∧ (tap.fails ≠ 8 → req = 3 ∨ byWrite req → no 4) ∧
      (tap.fails ≠ 8 → req ≠ 3 → ¬ byWrite req → keyValid = false → no 5) ∧
      (tap.fails ≠ 8 → req ≠ 3 → ¬ byWrite req → keyValid = true → ∃ b n, exec (.dbgChal sh) s = s.becomes b ∧
        b = { b0 with free := b0.free + 1, dbg := { d with tap := { tap with chal := some (n, req, tap.fails), chalStatus := 0 } } }))) ∧
  (b0.aon.failed = false → tap.ir = 0x21 → ∀ sh : BitVec 264,
    (b0.tapReady = false → taps (.dbgResp sh) { tap with outcome := 4 }) ∧
    (b0.tapReady = true →
      (∀ x, tap.auth = some x → taps (.dbgResp sh) { tap with outcome := 3 }) ∧
      (tap.auth = none → tap.chal = none → taps (.dbgResp sh) { tap with outcome := 5 }) ∧
      (tap.auth = none → ∀ n req f, tap.chal = some (n, req, f) → taps (.dbgResp sh)
        { tap with chal := none, chalStatus := 1, auth := some (sh.setWidth 256, n, req, f) }))) ∧
  (∀ r n req f, tap.auth = some (r, n, req, f) → b0.allExec = [] → req ≠ 0 → req ≠ 3 →
    let base : Nat := if rkey then 0x38 else 0x30
    let key : List Byte := (List.range 32).map (fun i => (tabGet 0 b0.pins.fuse (base + i / 4)).extractLsb' (8 * (i % 4)) 8)
    let msg : List Byte := (List.range 16).map (fun i => n.extractLsb' (8 * i) 8) ++
      [req.setWidth 8, d.lc.setWidth 8, BitVec.ofNat 8 f, 0, 0x01, 0x02, 0, 0]
    let answer : List Byte := (List.range 32).map (fun i => r.extractLsb' (8 * i) 8)
    (¬ byWrite req → answer = hmacSha256 key msg → ∃ b, exec .responseCheckEnd s = s.becomes b ∧
      b.dbg.tap = { tap with auth := none, outcome := 1, fails := 0 } ∧ takes { b with dbg := { b.dbg with tap := tap } } req true) ∧
    (¬ byWrite req → answer ≠ hmacSha256 key msg → taps .responseCheckEnd
      { tap with auth := none, outcome := 2, fails := min 8 (tap.fails + 1) })) ∧
  (b0.aon.failed = false → tap.ir = 0x22 → ∀ (v : Word) (off : BitVec 18) (w : Bool) (top : BitVec 2),
    let cmd : Instr := .dbgReg (top ++ BitVec.ofBool w ++ off ++ v)
    let o : Nat := 4 * off.toNat
    (b0.tapReady = false → taps cmd { tap with status := 1 }) ∧
    (b0.awake = true → d.hiLatch = [] →
      (d.level = .none → (w = true ∧ o ≠ 0x90000) ∨ (w = false ∧ 0x10000 ≤ o ∧ (o < 0x90000 ∨ 0xA0000 ≤ o)) → taps cmd { tap with status := 2 }) ∧
      (d.level = .observe → w = true → o ≠ 0x90000 → ¬ (0x90030 ≤ o ∧ o < 0x9003C) → ¬ (0x90100 ≤ o ∧ o < 0x90140) →
        taps cmd { tap with status := 2 }) ∧
      (d.level ≠ .none → w = false → o = 0x70020 → taps cmd { tap with status := 0, data := b0.err.ceCnt }) ∧
      (d.level = .invasive → w = true → o = 0x70014 → ∃ b, exec cmd s = s.becomes b ∧ b.dbg.tap = { tap with status := 0 } ∧
        b.err = { b0.err with scrubPeriod := v.setWidth 8, scrubEn := v.getLsbD 8 }) ∧
      (d.level = .invasive → w = true → o = 0x10010 → v &&& 0xFFFFF000 ≠ b0.hctl.msiLo → b0.lock.held = false →
        ∃ b, exec cmd s = s.becomes b ∧ b.hctl = { b0.hctl with msiLo := v &&& 0xFFFFF000 } ∧ b.dbg.taint = true)))
end

