-- ==== Sys2Proof/Laws/Tab.lean ====
section
/-! SUPPORT. Reading a table, a set or a count after it is written. -/
namespace Sys2Proof.Machine
open Sys2Proof

@[simp] theorem tabGet_nil {α : Type} (d : α) (n : Nat) : tabGet d [] n = d := rfl

theorem tabGet_tabDel {α : Type} (d : α) (t : Tab α) (n m : Nat) :
    tabGet d (tabDel t n) m = if m = n then d else tabGet d t m := by
  induction t with
  | nil => simp [tabDel]
  | cons x t ih =>
    obtain ⟨k, w⟩ := x
    by_cases h : m = n
    · subst h
      by_cases hk : k = m <;> simp_all [tabDel, tabGet]
    · have h' : ¬ n = m := fun e => h e.symm
      by_cases hk : k = n <;> simp_all [tabDel, tabGet]

theorem tabGet_tabPut {α : Type} (d : α) (t : Tab α) (n m : Nat) (v : α) :
    tabGet d (tabPut t n v) m = if m = n then v else tabGet d t m := by
  induction t with
  | nil =>
    by_cases h : n = m
    · simp [tabPut, tabGet, h]
    · have h' : ¬ m = n := fun e => h e.symm
      simp [tabPut, tabGet, h, h']
  | cons x t ih =>
    obtain ⟨k, w⟩ := x
    by_cases h : m = n
    · subst h
      by_cases hl : m < k
      · simp [tabPut, tabGet, hl]
      · by_cases hk : k = m <;> simp [tabPut, tabGet, hl, hk, ih]
    · have h' : ¬ n = m := fun e => h e.symm
      by_cases hl : n < k
      · simp [tabPut, tabGet, hl, h, h', tabGet_tabDel]
      · by_cases hk : k = n <;> simp [tabPut, tabGet, hl, hk, h, h', ih, tabGet_tabDel]

/-- A table reads as written at the key, and as before elsewhere. -/
theorem tabGet_tabSet {α : Type} [DecidableEq α] (d : α) (t : Tab α) (n m : Nat) (v : α) :
    tabGet d (tabSet d t n v) m = if m = n then v else tabGet d t m := by
  unfold tabSet
  split
  · subst_vars; exact tabGet_tabDel ..
  · exact tabGet_tabPut ..

@[simp] theorem tabGet_tabSet_self {α : Type} [DecidableEq α] (d : α) (t : Tab α) (n : Nat) (v : α) :
    tabGet d (tabSet d t n v) n = v := by simp [tabGet_tabSet]

theorem tabGet_tabSet_ne {α : Type} [DecidableEq α] (d : α) (t : Tab α) {n m : Nat} (v : α) (h : m ≠ n) :
    tabGet d (tabSet d t n v) m = tabGet d t m := by simp [tabGet_tabSet, h]

/-- A changed entry reads as changed, every other entry as before. -/
theorem tabGet_tabMod {α : Type} [DecidableEq α] (d : α) (t : Tab α) (n m : Nat) (f : α → α) :
    tabGet d (tabMod d t n f) m = if m = n then f (tabGet d t n) else tabGet d t m := by
  simp [tabMod, tabGet_tabSet]

@[simp] theorem tabGet_tabMod_self {α : Type} [DecidableEq α] (d : α) (t : Tab α) (n : Nat) (f : α → α) :
    tabGet d (tabMod d t n f) n = f (tabGet d t n) := by simp [tabGet_tabMod]

theorem tabGet_tabMod_ne {α : Type} [DecidableEq α] (d : α) (t : Tab α) {n m : Nat} (f : α → α) (h : m ≠ n) :
    tabGet d (tabMod d t n f) m = tabGet d t m := by simp [tabGet_tabMod, h]

/-- Every entry of a mapped table reads as its image, whatever the table lists. -/
theorem tabGet_tabMap {α : Type} [DecidableEq α] (d : α) (f : Nat → α → α) (t : Tab α) (n : Nat) (h : f n d = d) :
    tabGet d (tabMap d f t) n = f n (tabGet d t n) := by
  induction t with
  | nil => simp [tabMap, h]
  | cons x t ih =>
    obtain ⟨k, v⟩ := x
    by_cases hk : k = n
    · subst hk; by_cases hd : f k v = d <;> simp [tabMap, tabGet, tabGet_tabDel, hd]
    · have hk' : n ≠ k := fun e => hk e.symm
      by_cases hd : f k v = d <;> simp [tabMap, tabGet, tabGet_tabDel, hd, hk, hk', ih]

theorem mem_setAdd (s : NSet) (n m : Nat) : m ∈ setAdd s n ↔ m = n ∨ m ∈ s := by
  induction s with
  | nil => simp [setAdd]
  | cons k t ih =>
    by_cases hl : n < k
    · simp [setAdd, hl]
    · by_cases hk : k = n
      · simp [setAdd, hk]
      · simp [setAdd, hl, hk, ih]; tauto

theorem mem_setDel (s : NSet) (n m : Nat) : m ∈ setDel s n ↔ m ≠ n ∧ m ∈ s := by
  induction s with
  | nil => simp [setDel]
  | cons k t ih =>
    by_cases hk : k = n
    · subst hk; simp only [setDel, if_true, ih, List.mem_cons]; tauto
    · simp only [setDel, hk, if_false, ih, List.mem_cons]
      constructor
      · rintro (h | h)
        · exact ⟨fun e => hk (h ▸ e), .inl h⟩
        · exact ⟨h.1, .inr h.2⟩
      · rintro ⟨h, h' | h'⟩
        · exact .inl h'
        · exact .inr ⟨h, h'⟩

theorem setHas_iff (s : NSet) (n : Nat) : setHas s n = true ↔ n ∈ s := by simp [setHas]

/-- A set holds what was put and lacks what was taken out; the rest stays. -/
theorem setHas_setPut (s : NSet) (n m : Nat) (p : Bool) :
    setHas (setPut s n p) m = if m = n then p else setHas s m := by
  rw [Bool.eq_iff_iff]
  cases p <;> by_cases h : m = n <;> simp [setPut, setHas_iff, mem_setAdd, mem_setDel, h]

/-- A saturating count never falls. -/
theorem satInc_le {w : Nat} (c : BitVec w) : c.toNat ≤ (satInc c).toNat := by
  unfold satInc
  split
  · exact le_refl _
  · rename_i h
    have h1 : c.toNat ≠ 2 ^ w - 1 := fun e => h (by apply BitVec.eq_of_toNat_eq; simpa using e)
    have h2 := c.isLt
    have h3 : (c + 1).toNat = (c.toNat + 1 % 2 ^ w) % 2 ^ w := by simp [BitVec.toNat_add]
    rcases w with _ | w
    · omega
    · have h4 : 1 < 2 ^ (w + 1) := Nat.one_lt_two_pow (by omega)
      rw [h3, Nat.mod_eq_of_lt h4, Nat.mod_eq_of_lt (by omega)]; omega

end Sys2Proof.Machine
end

