-- ==== Sys2Proof/Laws/State.lean ====
section
/-! SUPPORT. What each update of the block leaves as it was, field by field, and what it changes. -/
namespace Sys2Proof.Machine
open Sys2Proof

/-! ### Blk.modSlot -/

@[simp] theorem Blk.modSlot_pins (b : Blk) (n : Nat) (f : Slot → Slot) : (b.modSlot n f).pins = b.pins := rfl
@[simp] theorem Blk.modSlot_time (b : Blk) (n : Nat) (f : Slot → Slot) : (b.modSlot n f).time = b.time := rfl
@[simp] theorem Blk.modSlot_clk (b : Blk) (n : Nat) (f : Slot → Slot) : (b.modSlot n f).clk = b.clk := rfl
@[simp] theorem Blk.modSlot_pwr (b : Blk) (n : Nat) (f : Slot → Slot) : (b.modSlot n f).pwr = b.pwr := rfl
@[simp] theorem Blk.modSlot_ing (b : Blk) (n : Nat) (f : Slot → Slot) : (b.modSlot n f).ing = b.ing := rfl
@[simp] theorem Blk.modSlot_rank (b : Blk) (n : Nat) (f : Slot → Slot) : (b.modSlot n f).rank = b.rank := rfl
@[simp] theorem Blk.modSlot_ptrs (b : Blk) (n : Nat) (f : Slot → Slot) : (b.modSlot n f).ptrs = b.ptrs := rfl
@[simp] theorem Blk.modSlot_links (b : Blk) (n : Nat) (f : Slot → Slot) : (b.modSlot n f).links = b.links := rfl
@[simp] theorem Blk.modSlot_tas (b : Blk) (n : Nat) (f : Slot → Slot) : (b.modSlot n f).tas = b.tas := rfl
@[simp] theorem Blk.modSlot_cls (b : Blk) (n : Nat) (f : Slot → Slot) : (b.modSlot n f).cls = b.cls := rfl
@[simp] theorem Blk.modSlot_tim (b : Blk) (n : Nat) (f : Slot → Slot) : (b.modSlot n f).tim = b.tim := rfl
@[simp] theorem Blk.modSlot_rings (b : Blk) (n : Nat) (f : Slot → Slot) : (b.modSlot n f).rings = b.rings := rfl
@[simp] theorem Blk.modSlot_lc (b : Blk) (n : Nat) (f : Slot → Slot) : (b.modSlot n f).lc = b.lc := rfl
@[simp] theorem Blk.modSlot_fp (b : Blk) (n : Nat) (f : Slot → Slot) : (b.modSlot n f).fp = b.fp := rfl
@[simp] theorem Blk.modSlot_fed (b : Blk) (n : Nat) (f : Slot → Slot) : (b.modSlot n f).fed = b.fed := rfl
@[simp] theorem Blk.modSlot_err (b : Blk) (n : Nat) (f : Slot → Slot) : (b.modSlot n f).err = b.err := rfl
@[simp] theorem Blk.modSlot_arb (b : Blk) (n : Nat) (f : Slot → Slot) : (b.modSlot n f).arb = b.arb := rfl
@[simp] theorem Blk.modSlot_cvu (b : Blk) (n : Nat) (f : Slot → Slot) : (b.modSlot n f).cvu = b.cvu := rfl
@[simp] theorem Blk.modSlot_inj (b : Blk) (n : Nat) (f : Slot → Slot) : (b.modSlot n f).inj = b.inj := rfl
@[simp] theorem Blk.modSlot_ecc (b : Blk) (n : Nat) (f : Slot → Slot) : (b.modSlot n f).ecc = b.ecc := rfl
@[simp] theorem Blk.modSlot_lock (b : Blk) (n : Nat) (f : Slot → Slot) : (b.modSlot n f).lock = b.lock := rfl
@[simp] theorem Blk.modSlot_dbg (b : Blk) (n : Nat) (f : Slot → Slot) : (b.modSlot n f).dbg = b.dbg := rfl
@[simp] theorem Blk.modSlot_hctl (b : Blk) (n : Nat) (f : Slot → Slot) : (b.modSlot n f).hctl = b.hctl := rfl
@[simp] theorem Blk.modSlot_ops (b : Blk) (n : Nat) (f : Slot → Slot) : (b.modSlot n f).ops = b.ops := rfl
@[simp] theorem Blk.modSlot_ss (b : Blk) (n : Nat) (f : Slot → Slot) : (b.modSlot n f).ss = b.ss := rfl
@[simp] theorem Blk.modSlot_aon (b : Blk) (n : Nat) (f : Slot → Slot) : (b.modSlot n f).aon = b.aon := rfl
@[simp] theorem Blk.modSlot_cal (b : Blk) (n : Nat) (f : Slot → Slot) : (b.modSlot n f).cal = b.cal := rfl
@[simp] theorem Blk.modSlot_spill (b : Blk) (n : Nat) (f : Slot → Slot) : (b.modSlot n f).spill = b.spill := rfl
@[simp] theorem Blk.modSlot_free (b : Blk) (n : Nat) (f : Slot → Slot) : (b.modSlot n f).free = b.free := rfl

/-! ### Blk.modStt -/

@[simp] theorem Blk.modStt_pins (b : Blk) (i : Nat) (f : Stt → Stt) : (b.modStt i f).pins = b.pins := rfl
@[simp] theorem Blk.modStt_time (b : Blk) (i : Nat) (f : Stt → Stt) : (b.modStt i f).time = b.time := rfl
@[simp] theorem Blk.modStt_clk (b : Blk) (i : Nat) (f : Stt → Stt) : (b.modStt i f).clk = b.clk := rfl
@[simp] theorem Blk.modStt_pwr (b : Blk) (i : Nat) (f : Stt → Stt) : (b.modStt i f).pwr = b.pwr := rfl
@[simp] theorem Blk.modStt_ing (b : Blk) (i : Nat) (f : Stt → Stt) : (b.modStt i f).ing = b.ing := rfl
@[simp] theorem Blk.modStt_rank (b : Blk) (i : Nat) (f : Stt → Stt) : (b.modStt i f).rank = b.rank := rfl
@[simp] theorem Blk.modStt_ptrs (b : Blk) (i : Nat) (f : Stt → Stt) : (b.modStt i f).ptrs = b.ptrs := rfl
@[simp] theorem Blk.modStt_links (b : Blk) (i : Nat) (f : Stt → Stt) : (b.modStt i f).links = b.links := rfl
@[simp] theorem Blk.modStt_tas (b : Blk) (i : Nat) (f : Stt → Stt) : (b.modStt i f).tas = b.tas := rfl
@[simp] theorem Blk.modStt_cls (b : Blk) (i : Nat) (f : Stt → Stt) : (b.modStt i f).cls = b.cls := rfl
@[simp] theorem Blk.modStt_tim (b : Blk) (i : Nat) (f : Stt → Stt) : (b.modStt i f).tim = b.tim := rfl
@[simp] theorem Blk.modStt_rings (b : Blk) (i : Nat) (f : Stt → Stt) : (b.modStt i f).rings = b.rings := rfl
@[simp] theorem Blk.modStt_lc (b : Blk) (i : Nat) (f : Stt → Stt) : (b.modStt i f).lc = b.lc := rfl
@[simp] theorem Blk.modStt_fp (b : Blk) (i : Nat) (f : Stt → Stt) : (b.modStt i f).fp = b.fp := rfl
@[simp] theorem Blk.modStt_fed (b : Blk) (i : Nat) (f : Stt → Stt) : (b.modStt i f).fed = b.fed := rfl
@[simp] theorem Blk.modStt_err (b : Blk) (i : Nat) (f : Stt → Stt) : (b.modStt i f).err = b.err := rfl
@[simp] theorem Blk.modStt_arb (b : Blk) (i : Nat) (f : Stt → Stt) : (b.modStt i f).arb = b.arb := rfl
@[simp] theorem Blk.modStt_cvu (b : Blk) (i : Nat) (f : Stt → Stt) : (b.modStt i f).cvu = b.cvu := rfl
@[simp] theorem Blk.modStt_inj (b : Blk) (i : Nat) (f : Stt → Stt) : (b.modStt i f).inj = b.inj := rfl
@[simp] theorem Blk.modStt_ecc (b : Blk) (i : Nat) (f : Stt → Stt) : (b.modStt i f).ecc = b.ecc := rfl
@[simp] theorem Blk.modStt_lock (b : Blk) (i : Nat) (f : Stt → Stt) : (b.modStt i f).lock = b.lock := rfl
@[simp] theorem Blk.modStt_dbg (b : Blk) (i : Nat) (f : Stt → Stt) : (b.modStt i f).dbg = b.dbg := rfl
@[simp] theorem Blk.modStt_hctl (b : Blk) (i : Nat) (f : Stt → Stt) : (b.modStt i f).hctl = b.hctl := rfl
@[simp] theorem Blk.modStt_ops (b : Blk) (i : Nat) (f : Stt → Stt) : (b.modStt i f).ops = b.ops := rfl
@[simp] theorem Blk.modStt_ss (b : Blk) (i : Nat) (f : Stt → Stt) : (b.modStt i f).ss = b.ss := rfl
@[simp] theorem Blk.modStt_aon (b : Blk) (i : Nat) (f : Stt → Stt) : (b.modStt i f).aon = b.aon := rfl
@[simp] theorem Blk.modStt_cal (b : Blk) (i : Nat) (f : Stt → Stt) : (b.modStt i f).cal = b.cal := rfl
@[simp] theorem Blk.modStt_spill (b : Blk) (i : Nat) (f : Stt → Stt) : (b.modStt i f).spill = b.spill := rfl
@[simp] theorem Blk.modStt_free (b : Blk) (i : Nat) (f : Stt → Stt) : (b.modStt i f).free = b.free := rfl

/-! ### Blk.modDom -/

@[simp] theorem Blk.modDom_pins (b : Blk) (d : Nat) (f : Dom → Dom) : (b.modDom d f).pins = b.pins := rfl
@[simp] theorem Blk.modDom_time (b : Blk) (d : Nat) (f : Dom → Dom) : (b.modDom d f).time = b.time := rfl
@[simp] theorem Blk.modDom_clk (b : Blk) (d : Nat) (f : Dom → Dom) : (b.modDom d f).clk = b.clk := rfl
@[simp] theorem Blk.modDom_pwr (b : Blk) (d : Nat) (f : Dom → Dom) : (b.modDom d f).pwr = b.pwr := rfl
@[simp] theorem Blk.modDom_ing (b : Blk) (d : Nat) (f : Dom → Dom) : (b.modDom d f).ing = b.ing := rfl
@[simp] theorem Blk.modDom_rank (b : Blk) (d : Nat) (f : Dom → Dom) : (b.modDom d f).rank = b.rank := rfl
@[simp] theorem Blk.modDom_ptrs (b : Blk) (d : Nat) (f : Dom → Dom) : (b.modDom d f).ptrs = b.ptrs := rfl
@[simp] theorem Blk.modDom_links (b : Blk) (d : Nat) (f : Dom → Dom) : (b.modDom d f).links = b.links := rfl
@[simp] theorem Blk.modDom_tas (b : Blk) (d : Nat) (f : Dom → Dom) : (b.modDom d f).tas = b.tas := rfl
@[simp] theorem Blk.modDom_cls (b : Blk) (d : Nat) (f : Dom → Dom) : (b.modDom d f).cls = b.cls := rfl
@[simp] theorem Blk.modDom_tim (b : Blk) (d : Nat) (f : Dom → Dom) : (b.modDom d f).tim = b.tim := rfl
@[simp] theorem Blk.modDom_rings (b : Blk) (d : Nat) (f : Dom → Dom) : (b.modDom d f).rings = b.rings := rfl
@[simp] theorem Blk.modDom_lc (b : Blk) (d : Nat) (f : Dom → Dom) : (b.modDom d f).lc = b.lc := rfl
@[simp] theorem Blk.modDom_fp (b : Blk) (d : Nat) (f : Dom → Dom) : (b.modDom d f).fp = b.fp := rfl
@[simp] theorem Blk.modDom_fed (b : Blk) (d : Nat) (f : Dom → Dom) : (b.modDom d f).fed = b.fed := rfl
@[simp] theorem Blk.modDom_err (b : Blk) (d : Nat) (f : Dom → Dom) : (b.modDom d f).err = b.err := rfl
@[simp] theorem Blk.modDom_arb (b : Blk) (d : Nat) (f : Dom → Dom) : (b.modDom d f).arb = b.arb := rfl
@[simp] theorem Blk.modDom_cvu (b : Blk) (d : Nat) (f : Dom → Dom) : (b.modDom d f).cvu = b.cvu := rfl
@[simp] theorem Blk.modDom_inj (b : Blk) (d : Nat) (f : Dom → Dom) : (b.modDom d f).inj = b.inj := rfl
@[simp] theorem Blk.modDom_ecc (b : Blk) (d : Nat) (f : Dom → Dom) : (b.modDom d f).ecc = b.ecc := rfl
@[simp] theorem Blk.modDom_lock (b : Blk) (d : Nat) (f : Dom → Dom) : (b.modDom d f).lock = b.lock := rfl
@[simp] theorem Blk.modDom_dbg (b : Blk) (d : Nat) (f : Dom → Dom) : (b.modDom d f).dbg = b.dbg := rfl
@[simp] theorem Blk.modDom_hctl (b : Blk) (d : Nat) (f : Dom → Dom) : (b.modDom d f).hctl = b.hctl := rfl
@[simp] theorem Blk.modDom_ops (b : Blk) (d : Nat) (f : Dom → Dom) : (b.modDom d f).ops = b.ops := rfl
@[simp] theorem Blk.modDom_ss (b : Blk) (d : Nat) (f : Dom → Dom) : (b.modDom d f).ss = b.ss := rfl
@[simp] theorem Blk.modDom_aon (b : Blk) (d : Nat) (f : Dom → Dom) : (b.modDom d f).aon = b.aon := rfl
@[simp] theorem Blk.modDom_cal (b : Blk) (d : Nat) (f : Dom → Dom) : (b.modDom d f).cal = b.cal := rfl
@[simp] theorem Blk.modDom_spill (b : Blk) (d : Nat) (f : Dom → Dom) : (b.modDom d f).spill = b.spill := rfl
@[simp] theorem Blk.modDom_free (b : Blk) (d : Nat) (f : Dom → Dom) : (b.modDom d f).free = b.free := rfl

/-! ### Blk.modEnv -/

@[simp] theorem Blk.modEnv_pins (b : Blk) (n : Nat) (f : Envelope → Envelope) : (b.modEnv n f).pins = b.pins := rfl
@[simp] theorem Blk.modEnv_time (b : Blk) (n : Nat) (f : Envelope → Envelope) : (b.modEnv n f).time = b.time := rfl
@[simp] theorem Blk.modEnv_clk (b : Blk) (n : Nat) (f : Envelope → Envelope) : (b.modEnv n f).clk = b.clk := rfl
@[simp] theorem Blk.modEnv_pwr (b : Blk) (n : Nat) (f : Envelope → Envelope) : (b.modEnv n f).pwr = b.pwr := rfl
@[simp] theorem Blk.modEnv_ing (b : Blk) (n : Nat) (f : Envelope → Envelope) : (b.modEnv n f).ing = b.ing := rfl
@[simp] theorem Blk.modEnv_rank (b : Blk) (n : Nat) (f : Envelope → Envelope) : (b.modEnv n f).rank = b.rank := rfl
@[simp] theorem Blk.modEnv_ptrs (b : Blk) (n : Nat) (f : Envelope → Envelope) : (b.modEnv n f).ptrs = b.ptrs := rfl
@[simp] theorem Blk.modEnv_links (b : Blk) (n : Nat) (f : Envelope → Envelope) : (b.modEnv n f).links = b.links := rfl
@[simp] theorem Blk.modEnv_tas (b : Blk) (n : Nat) (f : Envelope → Envelope) : (b.modEnv n f).tas = b.tas := rfl
@[simp] theorem Blk.modEnv_cls (b : Blk) (n : Nat) (f : Envelope → Envelope) : (b.modEnv n f).cls = b.cls := rfl
@[simp] theorem Blk.modEnv_tim (b : Blk) (n : Nat) (f : Envelope → Envelope) : (b.modEnv n f).tim = b.tim := rfl
@[simp] theorem Blk.modEnv_rings (b : Blk) (n : Nat) (f : Envelope → Envelope) : (b.modEnv n f).rings = b.rings := rfl
@[simp] theorem Blk.modEnv_lc (b : Blk) (n : Nat) (f : Envelope → Envelope) : (b.modEnv n f).lc = b.lc := rfl
@[simp] theorem Blk.modEnv_fp (b : Blk) (n : Nat) (f : Envelope → Envelope) : (b.modEnv n f).fp = b.fp := rfl
@[simp] theorem Blk.modEnv_fed (b : Blk) (n : Nat) (f : Envelope → Envelope) : (b.modEnv n f).fed = b.fed := rfl
@[simp] theorem Blk.modEnv_err (b : Blk) (n : Nat) (f : Envelope → Envelope) : (b.modEnv n f).err = b.err := rfl
@[simp] theorem Blk.modEnv_arb (b : Blk) (n : Nat) (f : Envelope → Envelope) : (b.modEnv n f).arb = b.arb := rfl
@[simp] theorem Blk.modEnv_cvu (b : Blk) (n : Nat) (f : Envelope → Envelope) : (b.modEnv n f).cvu = b.cvu := rfl
@[simp] theorem Blk.modEnv_inj (b : Blk) (n : Nat) (f : Envelope → Envelope) : (b.modEnv n f).inj = b.inj := rfl
@[simp] theorem Blk.modEnv_ecc (b : Blk) (n : Nat) (f : Envelope → Envelope) : (b.modEnv n f).ecc = b.ecc := rfl
@[simp] theorem Blk.modEnv_lock (b : Blk) (n : Nat) (f : Envelope → Envelope) : (b.modEnv n f).lock = b.lock := rfl
@[simp] theorem Blk.modEnv_dbg (b : Blk) (n : Nat) (f : Envelope → Envelope) : (b.modEnv n f).dbg = b.dbg := rfl
@[simp] theorem Blk.modEnv_hctl (b : Blk) (n : Nat) (f : Envelope → Envelope) : (b.modEnv n f).hctl = b.hctl := rfl
@[simp] theorem Blk.modEnv_ops (b : Blk) (n : Nat) (f : Envelope → Envelope) : (b.modEnv n f).ops = b.ops := rfl
@[simp] theorem Blk.modEnv_ss (b : Blk) (n : Nat) (f : Envelope → Envelope) : (b.modEnv n f).ss = b.ss := rfl
@[simp] theorem Blk.modEnv_aon (b : Blk) (n : Nat) (f : Envelope → Envelope) : (b.modEnv n f).aon = b.aon := rfl
@[simp] theorem Blk.modEnv_cal (b : Blk) (n : Nat) (f : Envelope → Envelope) : (b.modEnv n f).cal = b.cal := rfl
@[simp] theorem Blk.modEnv_spill (b : Blk) (n : Nat) (f : Envelope → Envelope) : (b.modEnv n f).spill = b.spill := rfl
@[simp] theorem Blk.modEnv_free (b : Blk) (n : Nat) (f : Envelope → Envelope) : (b.modEnv n f).free = b.free := rfl

/-! ### Blk.modLink -/

@[simp] theorem Blk.modLink_pins (b : Blk) (n : Nat) (f : Link → Link) : (b.modLink n f).pins = b.pins := rfl
@[simp] theorem Blk.modLink_time (b : Blk) (n : Nat) (f : Link → Link) : (b.modLink n f).time = b.time := rfl
@[simp] theorem Blk.modLink_clk (b : Blk) (n : Nat) (f : Link → Link) : (b.modLink n f).clk = b.clk := rfl
@[simp] theorem Blk.modLink_pwr (b : Blk) (n : Nat) (f : Link → Link) : (b.modLink n f).pwr = b.pwr := rfl
@[simp] theorem Blk.modLink_ing (b : Blk) (n : Nat) (f : Link → Link) : (b.modLink n f).ing = b.ing := rfl
@[simp] theorem Blk.modLink_sram (b : Blk) (n : Nat) (f : Link → Link) : (b.modLink n f).sram = b.sram := rfl
@[simp] theorem Blk.modLink_rank (b : Blk) (n : Nat) (f : Link → Link) : (b.modLink n f).rank = b.rank := rfl
@[simp] theorem Blk.modLink_ptrs (b : Blk) (n : Nat) (f : Link → Link) : (b.modLink n f).ptrs = b.ptrs := rfl
@[simp] theorem Blk.modLink_tas (b : Blk) (n : Nat) (f : Link → Link) : (b.modLink n f).tas = b.tas := rfl
@[simp] theorem Blk.modLink_cls (b : Blk) (n : Nat) (f : Link → Link) : (b.modLink n f).cls = b.cls := rfl
@[simp] theorem Blk.modLink_tim (b : Blk) (n : Nat) (f : Link → Link) : (b.modLink n f).tim = b.tim := rfl
@[simp] theorem Blk.modLink_rings (b : Blk) (n : Nat) (f : Link → Link) : (b.modLink n f).rings = b.rings := rfl
@[simp] theorem Blk.modLink_lc (b : Blk) (n : Nat) (f : Link → Link) : (b.modLink n f).lc = b.lc := rfl
@[simp] theorem Blk.modLink_fp (b : Blk) (n : Nat) (f : Link → Link) : (b.modLink n f).fp = b.fp := rfl
@[simp] theorem Blk.modLink_fed (b : Blk) (n : Nat) (f : Link → Link) : (b.modLink n f).fed = b.fed := rfl
@[simp] theorem Blk.modLink_err (b : Blk) (n : Nat) (f : Link → Link) : (b.modLink n f).err = b.err := rfl
@[simp] theorem Blk.modLink_arb (b : Blk) (n : Nat) (f : Link → Link) : (b.modLink n f).arb = b.arb := rfl
@[simp] theorem Blk.modLink_cvu (b : Blk) (n : Nat) (f : Link → Link) : (b.modLink n f).cvu = b.cvu := rfl
@[simp] theorem Blk.modLink_inj (b : Blk) (n : Nat) (f : Link → Link) : (b.modLink n f).inj = b.inj := rfl
@[simp] theorem Blk.modLink_ecc (b : Blk) (n : Nat) (f : Link → Link) : (b.modLink n f).ecc = b.ecc := rfl
@[simp] theorem Blk.modLink_lock (b : Blk) (n : Nat) (f : Link → Link) : (b.modLink n f).lock = b.lock := rfl
@[simp] theorem Blk.modLink_dbg (b : Blk) (n : Nat) (f : Link → Link) : (b.modLink n f).dbg = b.dbg := rfl
@[simp] theorem Blk.modLink_hctl (b : Blk) (n : Nat) (f : Link → Link) : (b.modLink n f).hctl = b.hctl := rfl
@[simp] theorem Blk.modLink_ops (b : Blk) (n : Nat) (f : Link → Link) : (b.modLink n f).ops = b.ops := rfl
@[simp] theorem Blk.modLink_ss (b : Blk) (n : Nat) (f : Link → Link) : (b.modLink n f).ss = b.ss := rfl
@[simp] theorem Blk.modLink_aon (b : Blk) (n : Nat) (f : Link → Link) : (b.modLink n f).aon = b.aon := rfl
@[simp] theorem Blk.modLink_cal (b : Blk) (n : Nat) (f : Link → Link) : (b.modLink n f).cal = b.cal := rfl
@[simp] theorem Blk.modLink_spill (b : Blk) (n : Nat) (f : Link → Link) : (b.modLink n f).spill = b.spill := rfl
@[simp] theorem Blk.modLink_free (b : Blk) (n : Nat) (f : Link → Link) : (b.modLink n f).free = b.free := rfl

/-! ### Blk.modTa -/

@[simp] theorem Blk.modTa_pins (b : Blk) (n : Nat) (f : Agent → Agent) : (b.modTa n f).pins = b.pins := rfl
@[simp] theorem Blk.modTa_time (b : Blk) (n : Nat) (f : Agent → Agent) : (b.modTa n f).time = b.time := rfl
@[simp] theorem Blk.modTa_clk (b : Blk) (n : Nat) (f : Agent → Agent) : (b.modTa n f).clk = b.clk := rfl
@[simp] theorem Blk.modTa_pwr (b : Blk) (n : Nat) (f : Agent → Agent) : (b.modTa n f).pwr = b.pwr := rfl
@[simp] theorem Blk.modTa_ing (b : Blk) (n : Nat) (f : Agent → Agent) : (b.modTa n f).ing = b.ing := rfl
@[simp] theorem Blk.modTa_sram (b : Blk) (n : Nat) (f : Agent → Agent) : (b.modTa n f).sram = b.sram := rfl
@[simp] theorem Blk.modTa_rank (b : Blk) (n : Nat) (f : Agent → Agent) : (b.modTa n f).rank = b.rank := rfl
@[simp] theorem Blk.modTa_ptrs (b : Blk) (n : Nat) (f : Agent → Agent) : (b.modTa n f).ptrs = b.ptrs := rfl
@[simp] theorem Blk.modTa_links (b : Blk) (n : Nat) (f : Agent → Agent) : (b.modTa n f).links = b.links := rfl
@[simp] theorem Blk.modTa_cls (b : Blk) (n : Nat) (f : Agent → Agent) : (b.modTa n f).cls = b.cls := rfl
@[simp] theorem Blk.modTa_tim (b : Blk) (n : Nat) (f : Agent → Agent) : (b.modTa n f).tim = b.tim := rfl
@[simp] theorem Blk.modTa_rings (b : Blk) (n : Nat) (f : Agent → Agent) : (b.modTa n f).rings = b.rings := rfl
@[simp] theorem Blk.modTa_lc (b : Blk) (n : Nat) (f : Agent → Agent) : (b.modTa n f).lc = b.lc := rfl
@[simp] theorem Blk.modTa_fp (b : Blk) (n : Nat) (f : Agent → Agent) : (b.modTa n f).fp = b.fp := rfl
@[simp] theorem Blk.modTa_fed (b : Blk) (n : Nat) (f : Agent → Agent) : (b.modTa n f).fed = b.fed := rfl
@[simp] theorem Blk.modTa_err (b : Blk) (n : Nat) (f : Agent → Agent) : (b.modTa n f).err = b.err := rfl
@[simp] theorem Blk.modTa_arb (b : Blk) (n : Nat) (f : Agent → Agent) : (b.modTa n f).arb = b.arb := rfl
@[simp] theorem Blk.modTa_cvu (b : Blk) (n : Nat) (f : Agent → Agent) : (b.modTa n f).cvu = b.cvu := rfl
@[simp] theorem Blk.modTa_inj (b : Blk) (n : Nat) (f : Agent → Agent) : (b.modTa n f).inj = b.inj := rfl
@[simp] theorem Blk.modTa_ecc (b : Blk) (n : Nat) (f : Agent → Agent) : (b.modTa n f).ecc = b.ecc := rfl
@[simp] theorem Blk.modTa_lock (b : Blk) (n : Nat) (f : Agent → Agent) : (b.modTa n f).lock = b.lock := rfl
@[simp] theorem Blk.modTa_dbg (b : Blk) (n : Nat) (f : Agent → Agent) : (b.modTa n f).dbg = b.dbg := rfl
@[simp] theorem Blk.modTa_hctl (b : Blk) (n : Nat) (f : Agent → Agent) : (b.modTa n f).hctl = b.hctl := rfl
@[simp] theorem Blk.modTa_ops (b : Blk) (n : Nat) (f : Agent → Agent) : (b.modTa n f).ops = b.ops := rfl
@[simp] theorem Blk.modTa_ss (b : Blk) (n : Nat) (f : Agent → Agent) : (b.modTa n f).ss = b.ss := rfl
@[simp] theorem Blk.modTa_aon (b : Blk) (n : Nat) (f : Agent → Agent) : (b.modTa n f).aon = b.aon := rfl
@[simp] theorem Blk.modTa_cal (b : Blk) (n : Nat) (f : Agent → Agent) : (b.modTa n f).cal = b.cal := rfl
@[simp] theorem Blk.modTa_spill (b : Blk) (n : Nat) (f : Agent → Agent) : (b.modTa n f).spill = b.spill := rfl
@[simp] theorem Blk.modTa_free (b : Blk) (n : Nat) (f : Agent → Agent) : (b.modTa n f).free = b.free := rfl

/-! ### Blk.modCl -/

@[simp] theorem Blk.modCl_pins (b : Blk) (n : Nat) (f : Cluster → Cluster) : (b.modCl n f).pins = b.pins := rfl
@[simp] theorem Blk.modCl_time (b : Blk) (n : Nat) (f : Cluster → Cluster) : (b.modCl n f).time = b.time := rfl
@[simp] theorem Blk.modCl_clk (b : Blk) (n : Nat) (f : Cluster → Cluster) : (b.modCl n f).clk = b.clk := rfl
@[simp] theorem Blk.modCl_pwr (b : Blk) (n : Nat) (f : Cluster → Cluster) : (b.modCl n f).pwr = b.pwr := rfl
@[simp] theorem Blk.modCl_ing (b : Blk) (n : Nat) (f : Cluster → Cluster) : (b.modCl n f).ing = b.ing := rfl
@[simp] theorem Blk.modCl_sram (b : Blk) (n : Nat) (f : Cluster → Cluster) : (b.modCl n f).sram = b.sram := rfl
@[simp] theorem Blk.modCl_rank (b : Blk) (n : Nat) (f : Cluster → Cluster) : (b.modCl n f).rank = b.rank := rfl
@[simp] theorem Blk.modCl_ptrs (b : Blk) (n : Nat) (f : Cluster → Cluster) : (b.modCl n f).ptrs = b.ptrs := rfl
@[simp] theorem Blk.modCl_links (b : Blk) (n : Nat) (f : Cluster → Cluster) : (b.modCl n f).links = b.links := rfl
@[simp] theorem Blk.modCl_tas (b : Blk) (n : Nat) (f : Cluster → Cluster) : (b.modCl n f).tas = b.tas := rfl
@[simp] theorem Blk.modCl_tim (b : Blk) (n : Nat) (f : Cluster → Cluster) : (b.modCl n f).tim = b.tim := rfl
@[simp] theorem Blk.modCl_rings (b : Blk) (n : Nat) (f : Cluster → Cluster) : (b.modCl n f).rings = b.rings := rfl
@[simp] theorem Blk.modCl_lc (b : Blk) (n : Nat) (f : Cluster → Cluster) : (b.modCl n f).lc = b.lc := rfl
@[simp] theorem Blk.modCl_fp (b : Blk) (n : Nat) (f : Cluster → Cluster) : (b.modCl n f).fp = b.fp := rfl
@[simp] theorem Blk.modCl_fed (b : Blk) (n : Nat) (f : Cluster → Cluster) : (b.modCl n f).fed = b.fed := rfl
@[simp] theorem Blk.modCl_err (b : Blk) (n : Nat) (f : Cluster → Cluster) : (b.modCl n f).err = b.err := rfl
@[simp] theorem Blk.modCl_arb (b : Blk) (n : Nat) (f : Cluster → Cluster) : (b.modCl n f).arb = b.arb := rfl
@[simp] theorem Blk.modCl_cvu (b : Blk) (n : Nat) (f : Cluster → Cluster) : (b.modCl n f).cvu = b.cvu := rfl
@[simp] theorem Blk.modCl_inj (b : Blk) (n : Nat) (f : Cluster → Cluster) : (b.modCl n f).inj = b.inj := rfl
@[simp] theorem Blk.modCl_ecc (b : Blk) (n : Nat) (f : Cluster → Cluster) : (b.modCl n f).ecc = b.ecc := rfl
@[simp] theorem Blk.modCl_lock (b : Blk) (n : Nat) (f : Cluster → Cluster) : (b.modCl n f).lock = b.lock := rfl
@[simp] theorem Blk.modCl_dbg (b : Blk) (n : Nat) (f : Cluster → Cluster) : (b.modCl n f).dbg = b.dbg := rfl
@[simp] theorem Blk.modCl_hctl (b : Blk) (n : Nat) (f : Cluster → Cluster) : (b.modCl n f).hctl = b.hctl := rfl
@[simp] theorem Blk.modCl_ops (b : Blk) (n : Nat) (f : Cluster → Cluster) : (b.modCl n f).ops = b.ops := rfl
@[simp] theorem Blk.modCl_ss (b : Blk) (n : Nat) (f : Cluster → Cluster) : (b.modCl n f).ss = b.ss := rfl
@[simp] theorem Blk.modCl_aon (b : Blk) (n : Nat) (f : Cluster → Cluster) : (b.modCl n f).aon = b.aon := rfl
@[simp] theorem Blk.modCl_cal (b : Blk) (n : Nat) (f : Cluster → Cluster) : (b.modCl n f).cal = b.cal := rfl
@[simp] theorem Blk.modCl_spill (b : Blk) (n : Nat) (f : Cluster → Cluster) : (b.modCl n f).spill = b.spill := rfl
@[simp] theorem Blk.modCl_free (b : Blk) (n : Nat) (f : Cluster → Cluster) : (b.modCl n f).free = b.free := rfl

/-! ### Blk.modLane -/

@[simp] theorem Blk.modLane_pins (b : Blk) (n : Nat) (f : Lane → Lane) : (b.modLane n f).pins = b.pins := rfl
@[simp] theorem Blk.modLane_time (b : Blk) (n : Nat) (f : Lane → Lane) : (b.modLane n f).time = b.time := rfl
@[simp] theorem Blk.modLane_clk (b : Blk) (n : Nat) (f : Lane → Lane) : (b.modLane n f).clk = b.clk := rfl
@[simp] theorem Blk.modLane_pwr (b : Blk) (n : Nat) (f : Lane → Lane) : (b.modLane n f).pwr = b.pwr := rfl
@[simp] theorem Blk.modLane_sram (b : Blk) (n : Nat) (f : Lane → Lane) : (b.modLane n f).sram = b.sram := rfl
@[simp] theorem Blk.modLane_rank (b : Blk) (n : Nat) (f : Lane → Lane) : (b.modLane n f).rank = b.rank := rfl
@[simp] theorem Blk.modLane_ptrs (b : Blk) (n : Nat) (f : Lane → Lane) : (b.modLane n f).ptrs = b.ptrs := rfl
@[simp] theorem Blk.modLane_links (b : Blk) (n : Nat) (f : Lane → Lane) : (b.modLane n f).links = b.links := rfl
@[simp] theorem Blk.modLane_tas (b : Blk) (n : Nat) (f : Lane → Lane) : (b.modLane n f).tas = b.tas := rfl
@[simp] theorem Blk.modLane_cls (b : Blk) (n : Nat) (f : Lane → Lane) : (b.modLane n f).cls = b.cls := rfl
@[simp] theorem Blk.modLane_tim (b : Blk) (n : Nat) (f : Lane → Lane) : (b.modLane n f).tim = b.tim := rfl
@[simp] theorem Blk.modLane_rings (b : Blk) (n : Nat) (f : Lane → Lane) : (b.modLane n f).rings = b.rings := rfl
@[simp] theorem Blk.modLane_lc (b : Blk) (n : Nat) (f : Lane → Lane) : (b.modLane n f).lc = b.lc := rfl
@[simp] theorem Blk.modLane_fp (b : Blk) (n : Nat) (f : Lane → Lane) : (b.modLane n f).fp = b.fp := rfl
@[simp] theorem Blk.modLane_fed (b : Blk) (n : Nat) (f : Lane → Lane) : (b.modLane n f).fed = b.fed := rfl
@[simp] theorem Blk.modLane_err (b : Blk) (n : Nat) (f : Lane → Lane) : (b.modLane n f).err = b.err := rfl
@[simp] theorem Blk.modLane_arb (b : Blk) (n : Nat) (f : Lane → Lane) : (b.modLane n f).arb = b.arb := rfl
@[simp] theorem Blk.modLane_cvu (b : Blk) (n : Nat) (f : Lane → Lane) : (b.modLane n f).cvu = b.cvu := rfl
@[simp] theorem Blk.modLane_inj (b : Blk) (n : Nat) (f : Lane → Lane) : (b.modLane n f).inj = b.inj := rfl
@[simp] theorem Blk.modLane_ecc (b : Blk) (n : Nat) (f : Lane → Lane) : (b.modLane n f).ecc = b.ecc := rfl
@[simp] theorem Blk.modLane_lock (b : Blk) (n : Nat) (f : Lane → Lane) : (b.modLane n f).lock = b.lock := rfl
@[simp] theorem Blk.modLane_dbg (b : Blk) (n : Nat) (f : Lane → Lane) : (b.modLane n f).dbg = b.dbg := rfl
@[simp] theorem Blk.modLane_hctl (b : Blk) (n : Nat) (f : Lane → Lane) : (b.modLane n f).hctl = b.hctl := rfl
@[simp] theorem Blk.modLane_ops (b : Blk) (n : Nat) (f : Lane → Lane) : (b.modLane n f).ops = b.ops := rfl
@[simp] theorem Blk.modLane_ss (b : Blk) (n : Nat) (f : Lane → Lane) : (b.modLane n f).ss = b.ss := rfl
@[simp] theorem Blk.modLane_aon (b : Blk) (n : Nat) (f : Lane → Lane) : (b.modLane n f).aon = b.aon := rfl
@[simp] theorem Blk.modLane_cal (b : Blk) (n : Nat) (f : Lane → Lane) : (b.modLane n f).cal = b.cal := rfl
@[simp] theorem Blk.modLane_spill (b : Blk) (n : Nat) (f : Lane → Lane) : (b.modLane n f).spill = b.spill := rfl
@[simp] theorem Blk.modLane_free (b : Blk) (n : Nat) (f : Lane → Lane) : (b.modLane n f).free = b.free := rfl

/-! ### Blk.modPeer -/

@[simp] theorem Blk.modPeer_pins (b : Blk) (n : Nat) (f : Peer → Peer) : (b.modPeer n f).pins = b.pins := rfl
@[simp] theorem Blk.modPeer_time (b : Blk) (n : Nat) (f : Peer → Peer) : (b.modPeer n f).time = b.time := rfl
@[simp] theorem Blk.modPeer_clk (b : Blk) (n : Nat) (f : Peer → Peer) : (b.modPeer n f).clk = b.clk := rfl
@[simp] theorem Blk.modPeer_pwr (b : Blk) (n : Nat) (f : Peer → Peer) : (b.modPeer n f).pwr = b.pwr := rfl
@[simp] theorem Blk.modPeer_ing (b : Blk) (n : Nat) (f : Peer → Peer) : (b.modPeer n f).ing = b.ing := rfl
@[simp] theorem Blk.modPeer_sram (b : Blk) (n : Nat) (f : Peer → Peer) : (b.modPeer n f).sram = b.sram := rfl
@[simp] theorem Blk.modPeer_rank (b : Blk) (n : Nat) (f : Peer → Peer) : (b.modPeer n f).rank = b.rank := rfl
@[simp] theorem Blk.modPeer_ptrs (b : Blk) (n : Nat) (f : Peer → Peer) : (b.modPeer n f).ptrs = b.ptrs := rfl
@[simp] theorem Blk.modPeer_links (b : Blk) (n : Nat) (f : Peer → Peer) : (b.modPeer n f).links = b.links := rfl
@[simp] theorem Blk.modPeer_tas (b : Blk) (n : Nat) (f : Peer → Peer) : (b.modPeer n f).tas = b.tas := rfl
@[simp] theorem Blk.modPeer_cls (b : Blk) (n : Nat) (f : Peer → Peer) : (b.modPeer n f).cls = b.cls := rfl
@[simp] theorem Blk.modPeer_tim (b : Blk) (n : Nat) (f : Peer → Peer) : (b.modPeer n f).tim = b.tim := rfl
@[simp] theorem Blk.modPeer_rings (b : Blk) (n : Nat) (f : Peer → Peer) : (b.modPeer n f).rings = b.rings := rfl
@[simp] theorem Blk.modPeer_lc (b : Blk) (n : Nat) (f : Peer → Peer) : (b.modPeer n f).lc = b.lc := rfl
@[simp] theorem Blk.modPeer_fp (b : Blk) (n : Nat) (f : Peer → Peer) : (b.modPeer n f).fp = b.fp := rfl
@[simp] theorem Blk.modPeer_err (b : Blk) (n : Nat) (f : Peer → Peer) : (b.modPeer n f).err = b.err := rfl
@[simp] theorem Blk.modPeer_arb (b : Blk) (n : Nat) (f : Peer → Peer) : (b.modPeer n f).arb = b.arb := rfl
@[simp] theorem Blk.modPeer_cvu (b : Blk) (n : Nat) (f : Peer → Peer) : (b.modPeer n f).cvu = b.cvu := rfl
@[simp] theorem Blk.modPeer_inj (b : Blk) (n : Nat) (f : Peer → Peer) : (b.modPeer n f).inj = b.inj := rfl
@[simp] theorem Blk.modPeer_ecc (b : Blk) (n : Nat) (f : Peer → Peer) : (b.modPeer n f).ecc = b.ecc := rfl
@[simp] theorem Blk.modPeer_lock (b : Blk) (n : Nat) (f : Peer → Peer) : (b.modPeer n f).lock = b.lock := rfl
@[simp] theorem Blk.modPeer_dbg (b : Blk) (n : Nat) (f : Peer → Peer) : (b.modPeer n f).dbg = b.dbg := rfl
@[simp] theorem Blk.modPeer_hctl (b : Blk) (n : Nat) (f : Peer → Peer) : (b.modPeer n f).hctl = b.hctl := rfl
@[simp] theorem Blk.modPeer_ops (b : Blk) (n : Nat) (f : Peer → Peer) : (b.modPeer n f).ops = b.ops := rfl
@[simp] theorem Blk.modPeer_ss (b : Blk) (n : Nat) (f : Peer → Peer) : (b.modPeer n f).ss = b.ss := rfl
@[simp] theorem Blk.modPeer_aon (b : Blk) (n : Nat) (f : Peer → Peer) : (b.modPeer n f).aon = b.aon := rfl
@[simp] theorem Blk.modPeer_cal (b : Blk) (n : Nat) (f : Peer → Peer) : (b.modPeer n f).cal = b.cal := rfl
@[simp] theorem Blk.modPeer_spill (b : Blk) (n : Nat) (f : Peer → Peer) : (b.modPeer n f).spill = b.spill := rfl
@[simp] theorem Blk.modPeer_free (b : Blk) (n : Nat) (f : Peer → Peer) : (b.modPeer n f).free = b.free := rfl

/-! ### Blk.modVctx -/

@[simp] theorem Blk.modVctx_pins (b : Blk) (d v : Nat) (f : VEntry → VEntry) : (b.modVctx d v f).pins = b.pins := rfl
@[simp] theorem Blk.modVctx_time (b : Blk) (d v : Nat) (f : VEntry → VEntry) : (b.modVctx d v f).time = b.time := rfl
@[simp] theorem Blk.modVctx_clk (b : Blk) (d v : Nat) (f : VEntry → VEntry) : (b.modVctx d v f).clk = b.clk := rfl
@[simp] theorem Blk.modVctx_pwr (b : Blk) (d v : Nat) (f : VEntry → VEntry) : (b.modVctx d v f).pwr = b.pwr := rfl
@[simp] theorem Blk.modVctx_ing (b : Blk) (d v : Nat) (f : VEntry → VEntry) : (b.modVctx d v f).ing = b.ing := rfl
@[simp] theorem Blk.modVctx_rank (b : Blk) (d v : Nat) (f : VEntry → VEntry) : (b.modVctx d v f).rank = b.rank := rfl
@[simp] theorem Blk.modVctx_ptrs (b : Blk) (d v : Nat) (f : VEntry → VEntry) : (b.modVctx d v f).ptrs = b.ptrs := rfl
@[simp] theorem Blk.modVctx_links (b : Blk) (d v : Nat) (f : VEntry → VEntry) : (b.modVctx d v f).links = b.links := rfl
@[simp] theorem Blk.modVctx_tas (b : Blk) (d v : Nat) (f : VEntry → VEntry) : (b.modVctx d v f).tas = b.tas := rfl
@[simp] theorem Blk.modVctx_cls (b : Blk) (d v : Nat) (f : VEntry → VEntry) : (b.modVctx d v f).cls = b.cls := rfl
@[simp] theorem Blk.modVctx_tim (b : Blk) (d v : Nat) (f : VEntry → VEntry) : (b.modVctx d v f).tim = b.tim := rfl
@[simp] theorem Blk.modVctx_rings (b : Blk) (d v : Nat) (f : VEntry → VEntry) : (b.modVctx d v f).rings = b.rings := rfl
@[simp] theorem Blk.modVctx_lc (b : Blk) (d v : Nat) (f : VEntry → VEntry) : (b.modVctx d v f).lc = b.lc := rfl
@[simp] theorem Blk.modVctx_fp (b : Blk) (d v : Nat) (f : VEntry → VEntry) : (b.modVctx d v f).fp = b.fp := rfl
@[simp] theorem Blk.modVctx_fed (b : Blk) (d v : Nat) (f : VEntry → VEntry) : (b.modVctx d v f).fed = b.fed := rfl
@[simp] theorem Blk.modVctx_err (b : Blk) (d v : Nat) (f : VEntry → VEntry) : (b.modVctx d v f).err = b.err := rfl
@[simp] theorem Blk.modVctx_arb (b : Blk) (d v : Nat) (f : VEntry → VEntry) : (b.modVctx d v f).arb = b.arb := rfl
@[simp] theorem Blk.modVctx_cvu (b : Blk) (d v : Nat) (f : VEntry → VEntry) : (b.modVctx d v f).cvu = b.cvu := rfl
@[simp] theorem Blk.modVctx_inj (b : Blk) (d v : Nat) (f : VEntry → VEntry) : (b.modVctx d v f).inj = b.inj := rfl
@[simp] theorem Blk.modVctx_ecc (b : Blk) (d v : Nat) (f : VEntry → VEntry) :
    (b.modVctx d v f).ecc = { b.ecc with vctBad := setDel b.ecc.vctBad ((b.dom d).sh.vbase + v) } := rfl
@[simp] theorem Blk.modVctx_lock (b : Blk) (d v : Nat) (f : VEntry → VEntry) : (b.modVctx d v f).lock = b.lock := rfl
@[simp] theorem Blk.modVctx_dbg (b : Blk) (d v : Nat) (f : VEntry → VEntry) : (b.modVctx d v f).dbg = b.dbg := rfl
@[simp] theorem Blk.modVctx_hctl (b : Blk) (d v : Nat) (f : VEntry → VEntry) : (b.modVctx d v f).hctl = b.hctl := rfl
@[simp] theorem Blk.modVctx_ops (b : Blk) (d v : Nat) (f : VEntry → VEntry) : (b.modVctx d v f).ops = b.ops := rfl
@[simp] theorem Blk.modVctx_ss (b : Blk) (d v : Nat) (f : VEntry → VEntry) : (b.modVctx d v f).ss = b.ss := rfl
@[simp] theorem Blk.modVctx_aon (b : Blk) (d v : Nat) (f : VEntry → VEntry) : (b.modVctx d v f).aon = b.aon := rfl
@[simp] theorem Blk.modVctx_cal (b : Blk) (d v : Nat) (f : VEntry → VEntry) : (b.modVctx d v f).cal = b.cal := rfl
@[simp] theorem Blk.modVctx_spill (b : Blk) (d v : Nat) (f : VEntry → VEntry) : (b.modVctx d v f).spill = b.spill := rfl
@[simp] theorem Blk.modVctx_free (b : Blk) (d v : Nat) (f : VEntry → VEntry) : (b.modVctx d v f).free = b.free := rfl

/-! ### Blk.modSeq -/

@[simp] theorem Blk.modSeq_pins (b : Blk) (f : PwrSeq → PwrSeq) : (b.modSeq f).pins = b.pins := rfl
@[simp] theorem Blk.modSeq_time (b : Blk) (f : PwrSeq → PwrSeq) : (b.modSeq f).time = b.time := rfl
@[simp] theorem Blk.modSeq_clk (b : Blk) (f : PwrSeq → PwrSeq) : (b.modSeq f).clk = b.clk := rfl
@[simp] theorem Blk.modSeq_ing (b : Blk) (f : PwrSeq → PwrSeq) : (b.modSeq f).ing = b.ing := rfl
@[simp] theorem Blk.modSeq_sram (b : Blk) (f : PwrSeq → PwrSeq) : (b.modSeq f).sram = b.sram := rfl
@[simp] theorem Blk.modSeq_rank (b : Blk) (f : PwrSeq → PwrSeq) : (b.modSeq f).rank = b.rank := rfl
@[simp] theorem Blk.modSeq_ptrs (b : Blk) (f : PwrSeq → PwrSeq) : (b.modSeq f).ptrs = b.ptrs := rfl
@[simp] theorem Blk.modSeq_links (b : Blk) (f : PwrSeq → PwrSeq) : (b.modSeq f).links = b.links := rfl
@[simp] theorem Blk.modSeq_tas (b : Blk) (f : PwrSeq → PwrSeq) : (b.modSeq f).tas = b.tas := rfl
@[simp] theorem Blk.modSeq_cls (b : Blk) (f : PwrSeq → PwrSeq) : (b.modSeq f).cls = b.cls := rfl
@[simp] theorem Blk.modSeq_tim (b : Blk) (f : PwrSeq → PwrSeq) : (b.modSeq f).tim = b.tim := rfl
@[simp] theorem Blk.modSeq_rings (b : Blk) (f : PwrSeq → PwrSeq) : (b.modSeq f).rings = b.rings := rfl
@[simp] theorem Blk.modSeq_lc (b : Blk) (f : PwrSeq → PwrSeq) : (b.modSeq f).lc = b.lc := rfl
@[simp] theorem Blk.modSeq_fp (b : Blk) (f : PwrSeq → PwrSeq) : (b.modSeq f).fp = b.fp := rfl
@[simp] theorem Blk.modSeq_fed (b : Blk) (f : PwrSeq → PwrSeq) : (b.modSeq f).fed = b.fed := rfl
@[simp] theorem Blk.modSeq_err (b : Blk) (f : PwrSeq → PwrSeq) : (b.modSeq f).err = b.err := rfl
@[simp] theorem Blk.modSeq_arb (b : Blk) (f : PwrSeq → PwrSeq) : (b.modSeq f).arb = b.arb := rfl
@[simp] theorem Blk.modSeq_cvu (b : Blk) (f : PwrSeq → PwrSeq) : (b.modSeq f).cvu = b.cvu := rfl
@[simp] theorem Blk.modSeq_inj (b : Blk) (f : PwrSeq → PwrSeq) : (b.modSeq f).inj = b.inj := rfl
@[simp] theorem Blk.modSeq_ecc (b : Blk) (f : PwrSeq → PwrSeq) : (b.modSeq f).ecc = b.ecc := rfl
@[simp] theorem Blk.modSeq_lock (b : Blk) (f : PwrSeq → PwrSeq) : (b.modSeq f).lock = b.lock := rfl
@[simp] theorem Blk.modSeq_dbg (b : Blk) (f : PwrSeq → PwrSeq) : (b.modSeq f).dbg = b.dbg := rfl
@[simp] theorem Blk.modSeq_hctl (b : Blk) (f : PwrSeq → PwrSeq) : (b.modSeq f).hctl = b.hctl := rfl
@[simp] theorem Blk.modSeq_ops (b : Blk) (f : PwrSeq → PwrSeq) : (b.modSeq f).ops = b.ops := rfl
@[simp] theorem Blk.modSeq_ss (b : Blk) (f : PwrSeq → PwrSeq) : (b.modSeq f).ss = b.ss := rfl
@[simp] theorem Blk.modSeq_aon (b : Blk) (f : PwrSeq → PwrSeq) : (b.modSeq f).aon = b.aon := rfl
@[simp] theorem Blk.modSeq_cal (b : Blk) (f : PwrSeq → PwrSeq) : (b.modSeq f).cal = b.cal := rfl
@[simp] theorem Blk.modSeq_spill (b : Blk) (f : PwrSeq → PwrSeq) : (b.modSeq f).spill = b.spill := rfl
@[simp] theorem Blk.modSeq_free (b : Blk) (f : PwrSeq → PwrSeq) : (b.modSeq f).free = b.free := rfl

/-! ### Blk.modPwr -/

@[simp] theorem Blk.modPwr_pins (b : Blk) (f : PwrRegs → PwrRegs) : (b.modPwr f).pins = b.pins := rfl
@[simp] theorem Blk.modPwr_time (b : Blk) (f : PwrRegs → PwrRegs) : (b.modPwr f).time = b.time := rfl
@[simp] theorem Blk.modPwr_clk (b : Blk) (f : PwrRegs → PwrRegs) : (b.modPwr f).clk = b.clk := rfl
@[simp] theorem Blk.modPwr_ing (b : Blk) (f : PwrRegs → PwrRegs) : (b.modPwr f).ing = b.ing := rfl
@[simp] theorem Blk.modPwr_sram (b : Blk) (f : PwrRegs → PwrRegs) : (b.modPwr f).sram = b.sram := rfl
@[simp] theorem Blk.modPwr_rank (b : Blk) (f : PwrRegs → PwrRegs) : (b.modPwr f).rank = b.rank := rfl
@[simp] theorem Blk.modPwr_ptrs (b : Blk) (f : PwrRegs → PwrRegs) : (b.modPwr f).ptrs = b.ptrs := rfl
@[simp] theorem Blk.modPwr_links (b : Blk) (f : PwrRegs → PwrRegs) : (b.modPwr f).links = b.links := rfl
@[simp] theorem Blk.modPwr_tas (b : Blk) (f : PwrRegs → PwrRegs) : (b.modPwr f).tas = b.tas := rfl
@[simp] theorem Blk.modPwr_cls (b : Blk) (f : PwrRegs → PwrRegs) : (b.modPwr f).cls = b.cls := rfl
@[simp] theorem Blk.modPwr_tim (b : Blk) (f : PwrRegs → PwrRegs) : (b.modPwr f).tim = b.tim := rfl
@[simp] theorem Blk.modPwr_rings (b : Blk) (f : PwrRegs → PwrRegs) : (b.modPwr f).rings = b.rings := rfl
@[simp] theorem Blk.modPwr_lc (b : Blk) (f : PwrRegs → PwrRegs) : (b.modPwr f).lc = b.lc := rfl
@[simp] theorem Blk.modPwr_fp (b : Blk) (f : PwrRegs → PwrRegs) : (b.modPwr f).fp = b.fp := rfl
@[simp] theorem Blk.modPwr_fed (b : Blk) (f : PwrRegs → PwrRegs) : (b.modPwr f).fed = b.fed := rfl
@[simp] theorem Blk.modPwr_err (b : Blk) (f : PwrRegs → PwrRegs) : (b.modPwr f).err = b.err := rfl
@[simp] theorem Blk.modPwr_arb (b : Blk) (f : PwrRegs → PwrRegs) : (b.modPwr f).arb = b.arb := rfl
@[simp] theorem Blk.modPwr_cvu (b : Blk) (f : PwrRegs → PwrRegs) : (b.modPwr f).cvu = b.cvu := rfl
@[simp] theorem Blk.modPwr_inj (b : Blk) (f : PwrRegs → PwrRegs) : (b.modPwr f).inj = b.inj := rfl
@[simp] theorem Blk.modPwr_ecc (b : Blk) (f : PwrRegs → PwrRegs) : (b.modPwr f).ecc = b.ecc := rfl
@[simp] theorem Blk.modPwr_lock (b : Blk) (f : PwrRegs → PwrRegs) : (b.modPwr f).lock = b.lock := rfl
@[simp] theorem Blk.modPwr_dbg (b : Blk) (f : PwrRegs → PwrRegs) : (b.modPwr f).dbg = b.dbg := rfl
@[simp] theorem Blk.modPwr_hctl (b : Blk) (f : PwrRegs → PwrRegs) : (b.modPwr f).hctl = b.hctl := rfl
@[simp] theorem Blk.modPwr_ops (b : Blk) (f : PwrRegs → PwrRegs) : (b.modPwr f).ops = b.ops := rfl
@[simp] theorem Blk.modPwr_ss (b : Blk) (f : PwrRegs → PwrRegs) : (b.modPwr f).ss = b.ss := rfl
@[simp] theorem Blk.modPwr_aon (b : Blk) (f : PwrRegs → PwrRegs) : (b.modPwr f).aon = b.aon := rfl
@[simp] theorem Blk.modPwr_cal (b : Blk) (f : PwrRegs → PwrRegs) : (b.modPwr f).cal = b.cal := rfl
@[simp] theorem Blk.modPwr_spill (b : Blk) (f : PwrRegs → PwrRegs) : (b.modPwr f).spill = b.spill := rfl
@[simp] theorem Blk.modPwr_free (b : Blk) (f : PwrRegs → PwrRegs) : (b.modPwr f).free = b.free := rfl

/-! ### Blk.modCfg -/

@[simp] theorem Blk.modCfg_pins (b : Blk) (f : PwrCfg → PwrCfg) : (b.modCfg f).pins = b.pins := rfl
@[simp] theorem Blk.modCfg_time (b : Blk) (f : PwrCfg → PwrCfg) : (b.modCfg f).time = b.time := rfl
@[simp] theorem Blk.modCfg_clk (b : Blk) (f : PwrCfg → PwrCfg) : (b.modCfg f).clk = b.clk := rfl
@[simp] theorem Blk.modCfg_ing (b : Blk) (f : PwrCfg → PwrCfg) : (b.modCfg f).ing = b.ing := rfl
@[simp] theorem Blk.modCfg_sram (b : Blk) (f : PwrCfg → PwrCfg) : (b.modCfg f).sram = b.sram := rfl
@[simp] theorem Blk.modCfg_rank (b : Blk) (f : PwrCfg → PwrCfg) : (b.modCfg f).rank = b.rank := rfl
@[simp] theorem Blk.modCfg_ptrs (b : Blk) (f : PwrCfg → PwrCfg) : (b.modCfg f).ptrs = b.ptrs := rfl
@[simp] theorem Blk.modCfg_links (b : Blk) (f : PwrCfg → PwrCfg) : (b.modCfg f).links = b.links := rfl
@[simp] theorem Blk.modCfg_tas (b : Blk) (f : PwrCfg → PwrCfg) : (b.modCfg f).tas = b.tas := rfl
@[simp] theorem Blk.modCfg_cls (b : Blk) (f : PwrCfg → PwrCfg) : (b.modCfg f).cls = b.cls := rfl
@[simp] theorem Blk.modCfg_tim (b : Blk) (f : PwrCfg → PwrCfg) : (b.modCfg f).tim = b.tim := rfl
@[simp] theorem Blk.modCfg_rings (b : Blk) (f : PwrCfg → PwrCfg) : (b.modCfg f).rings = b.rings := rfl
@[simp] theorem Blk.modCfg_lc (b : Blk) (f : PwrCfg → PwrCfg) : (b.modCfg f).lc = b.lc := rfl
@[simp] theorem Blk.modCfg_fp (b : Blk) (f : PwrCfg → PwrCfg) : (b.modCfg f).fp = b.fp := rfl
@[simp] theorem Blk.modCfg_fed (b : Blk) (f : PwrCfg → PwrCfg) : (b.modCfg f).fed = b.fed := rfl
@[simp] theorem Blk.modCfg_err (b : Blk) (f : PwrCfg → PwrCfg) : (b.modCfg f).err = b.err := rfl
@[simp] theorem Blk.modCfg_arb (b : Blk) (f : PwrCfg → PwrCfg) : (b.modCfg f).arb = b.arb := rfl
@[simp] theorem Blk.modCfg_cvu (b : Blk) (f : PwrCfg → PwrCfg) : (b.modCfg f).cvu = b.cvu := rfl
@[simp] theorem Blk.modCfg_inj (b : Blk) (f : PwrCfg → PwrCfg) : (b.modCfg f).inj = b.inj := rfl
@[simp] theorem Blk.modCfg_ecc (b : Blk) (f : PwrCfg → PwrCfg) : (b.modCfg f).ecc = b.ecc := rfl
@[simp] theorem Blk.modCfg_lock (b : Blk) (f : PwrCfg → PwrCfg) : (b.modCfg f).lock = b.lock := rfl
@[simp] theorem Blk.modCfg_dbg (b : Blk) (f : PwrCfg → PwrCfg) : (b.modCfg f).dbg = b.dbg := rfl
@[simp] theorem Blk.modCfg_hctl (b : Blk) (f : PwrCfg → PwrCfg) : (b.modCfg f).hctl = b.hctl := rfl
@[simp] theorem Blk.modCfg_ops (b : Blk) (f : PwrCfg → PwrCfg) : (b.modCfg f).ops = b.ops := rfl
@[simp] theorem Blk.modCfg_ss (b : Blk) (f : PwrCfg → PwrCfg) : (b.modCfg f).ss = b.ss := rfl
@[simp] theorem Blk.modCfg_aon (b : Blk) (f : PwrCfg → PwrCfg) : (b.modCfg f).aon = b.aon := rfl
@[simp] theorem Blk.modCfg_cal (b : Blk) (f : PwrCfg → PwrCfg) : (b.modCfg f).cal = b.cal := rfl
@[simp] theorem Blk.modCfg_spill (b : Blk) (f : PwrCfg → PwrCfg) : (b.modCfg f).spill = b.spill := rfl
@[simp] theorem Blk.modCfg_free (b : Blk) (f : PwrCfg → PwrCfg) : (b.modCfg f).free = b.free := rfl

/-! ### Blk.modBcast -/

@[simp] theorem Blk.modBcast_pins (b : Blk) (k : Nat) (f : Bcast → Bcast) : (b.modBcast k f).pins = b.pins := rfl
@[simp] theorem Blk.modBcast_time (b : Blk) (k : Nat) (f : Bcast → Bcast) : (b.modBcast k f).time = b.time := rfl
@[simp] theorem Blk.modBcast_clk (b : Blk) (k : Nat) (f : Bcast → Bcast) : (b.modBcast k f).clk = b.clk := rfl
@[simp] theorem Blk.modBcast_pwr (b : Blk) (k : Nat) (f : Bcast → Bcast) : (b.modBcast k f).pwr = b.pwr := rfl
@[simp] theorem Blk.modBcast_ing (b : Blk) (k : Nat) (f : Bcast → Bcast) : (b.modBcast k f).ing = b.ing := rfl
@[simp] theorem Blk.modBcast_sram (b : Blk) (k : Nat) (f : Bcast → Bcast) : (b.modBcast k f).sram = b.sram := rfl
@[simp] theorem Blk.modBcast_ptrs (b : Blk) (k : Nat) (f : Bcast → Bcast) : (b.modBcast k f).ptrs = b.ptrs := rfl
@[simp] theorem Blk.modBcast_links (b : Blk) (k : Nat) (f : Bcast → Bcast) : (b.modBcast k f).links = b.links := rfl
@[simp] theorem Blk.modBcast_tas (b : Blk) (k : Nat) (f : Bcast → Bcast) : (b.modBcast k f).tas = b.tas := rfl
@[simp] theorem Blk.modBcast_cls (b : Blk) (k : Nat) (f : Bcast → Bcast) : (b.modBcast k f).cls = b.cls := rfl
@[simp] theorem Blk.modBcast_tim (b : Blk) (k : Nat) (f : Bcast → Bcast) : (b.modBcast k f).tim = b.tim := rfl
@[simp] theorem Blk.modBcast_rings (b : Blk) (k : Nat) (f : Bcast → Bcast) : (b.modBcast k f).rings = b.rings := rfl
@[simp] theorem Blk.modBcast_lc (b : Blk) (k : Nat) (f : Bcast → Bcast) : (b.modBcast k f).lc = b.lc := rfl
@[simp] theorem Blk.modBcast_fp (b : Blk) (k : Nat) (f : Bcast → Bcast) : (b.modBcast k f).fp = b.fp := rfl
@[simp] theorem Blk.modBcast_fed (b : Blk) (k : Nat) (f : Bcast → Bcast) : (b.modBcast k f).fed = b.fed := rfl
@[simp] theorem Blk.modBcast_err (b : Blk) (k : Nat) (f : Bcast → Bcast) : (b.modBcast k f).err = b.err := rfl
@[simp] theorem Blk.modBcast_arb (b : Blk) (k : Nat) (f : Bcast → Bcast) : (b.modBcast k f).arb = b.arb := rfl
@[simp] theorem Blk.modBcast_cvu (b : Blk) (k : Nat) (f : Bcast → Bcast) : (b.modBcast k f).cvu = b.cvu := rfl
@[simp] theorem Blk.modBcast_inj (b : Blk) (k : Nat) (f : Bcast → Bcast) : (b.modBcast k f).inj = b.inj := rfl
@[simp] theorem Blk.modBcast_ecc (b : Blk) (k : Nat) (f : Bcast → Bcast) : (b.modBcast k f).ecc = b.ecc := rfl
@[simp] theorem Blk.modBcast_lock (b : Blk) (k : Nat) (f : Bcast → Bcast) : (b.modBcast k f).lock = b.lock := rfl
@[simp] theorem Blk.modBcast_dbg (b : Blk) (k : Nat) (f : Bcast → Bcast) : (b.modBcast k f).dbg = b.dbg := rfl
@[simp] theorem Blk.modBcast_hctl (b : Blk) (k : Nat) (f : Bcast → Bcast) : (b.modBcast k f).hctl = b.hctl := rfl
@[simp] theorem Blk.modBcast_ops (b : Blk) (k : Nat) (f : Bcast → Bcast) : (b.modBcast k f).ops = b.ops := rfl
@[simp] theorem Blk.modBcast_ss (b : Blk) (k : Nat) (f : Bcast → Bcast) : (b.modBcast k f).ss = b.ss := rfl
@[simp] theorem Blk.modBcast_aon (b : Blk) (k : Nat) (f : Bcast → Bcast) : (b.modBcast k f).aon = b.aon := rfl
@[simp] theorem Blk.modBcast_cal (b : Blk) (k : Nat) (f : Bcast → Bcast) : (b.modBcast k f).cal = b.cal := rfl
@[simp] theorem Blk.modBcast_spill (b : Blk) (k : Nat) (f : Bcast → Bcast) : (b.modBcast k f).spill = b.spill := rfl
@[simp] theorem Blk.modBcast_free (b : Blk) (k : Nat) (f : Bcast → Bcast) : (b.modBcast k f).free = b.free := rfl

/-! ### Blk.modDbg -/

@[simp] theorem Blk.modDbg_pins (b : Blk) (f : Dbg → Dbg) : (b.modDbg f).pins = b.pins := rfl
@[simp] theorem Blk.modDbg_time (b : Blk) (f : Dbg → Dbg) : (b.modDbg f).time = b.time := rfl
@[simp] theorem Blk.modDbg_clk (b : Blk) (f : Dbg → Dbg) : (b.modDbg f).clk = b.clk := rfl
@[simp] theorem Blk.modDbg_pwr (b : Blk) (f : Dbg → Dbg) : (b.modDbg f).pwr = b.pwr := rfl
@[simp] theorem Blk.modDbg_ing (b : Blk) (f : Dbg → Dbg) : (b.modDbg f).ing = b.ing := rfl
@[simp] theorem Blk.modDbg_sram (b : Blk) (f : Dbg → Dbg) : (b.modDbg f).sram = b.sram := rfl
@[simp] theorem Blk.modDbg_rank (b : Blk) (f : Dbg → Dbg) : (b.modDbg f).rank = b.rank := rfl
@[simp] theorem Blk.modDbg_ptrs (b : Blk) (f : Dbg → Dbg) : (b.modDbg f).ptrs = b.ptrs := rfl
@[simp] theorem Blk.modDbg_links (b : Blk) (f : Dbg → Dbg) : (b.modDbg f).links = b.links := rfl
@[simp] theorem Blk.modDbg_tas (b : Blk) (f : Dbg → Dbg) : (b.modDbg f).tas = b.tas := rfl
@[simp] theorem Blk.modDbg_cls (b : Blk) (f : Dbg → Dbg) : (b.modDbg f).cls = b.cls := rfl
@[simp] theorem Blk.modDbg_tim (b : Blk) (f : Dbg → Dbg) : (b.modDbg f).tim = b.tim := rfl
@[simp] theorem Blk.modDbg_rings (b : Blk) (f : Dbg → Dbg) : (b.modDbg f).rings = b.rings := rfl
@[simp] theorem Blk.modDbg_lc (b : Blk) (f : Dbg → Dbg) : (b.modDbg f).lc = b.lc := rfl
@[simp] theorem Blk.modDbg_fp (b : Blk) (f : Dbg → Dbg) : (b.modDbg f).fp = b.fp := rfl
@[simp] theorem Blk.modDbg_fed (b : Blk) (f : Dbg → Dbg) : (b.modDbg f).fed = b.fed := rfl
@[simp] theorem Blk.modDbg_err (b : Blk) (f : Dbg → Dbg) : (b.modDbg f).err = b.err := rfl
@[simp] theorem Blk.modDbg_arb (b : Blk) (f : Dbg → Dbg) : (b.modDbg f).arb = b.arb := rfl
@[simp] theorem Blk.modDbg_cvu (b : Blk) (f : Dbg → Dbg) : (b.modDbg f).cvu = b.cvu := rfl
@[simp] theorem Blk.modDbg_inj (b : Blk) (f : Dbg → Dbg) : (b.modDbg f).inj = b.inj := rfl
@[simp] theorem Blk.modDbg_ecc (b : Blk) (f : Dbg → Dbg) : (b.modDbg f).ecc = b.ecc := rfl
@[simp] theorem Blk.modDbg_lock (b : Blk) (f : Dbg → Dbg) : (b.modDbg f).lock = b.lock := rfl
@[simp] theorem Blk.modDbg_hctl (b : Blk) (f : Dbg → Dbg) : (b.modDbg f).hctl = b.hctl := rfl
@[simp] theorem Blk.modDbg_ops (b : Blk) (f : Dbg → Dbg) : (b.modDbg f).ops = b.ops := rfl
@[simp] theorem Blk.modDbg_ss (b : Blk) (f : Dbg → Dbg) : (b.modDbg f).ss = b.ss := rfl
@[simp] theorem Blk.modDbg_aon (b : Blk) (f : Dbg → Dbg) : (b.modDbg f).aon = b.aon := rfl
@[simp] theorem Blk.modDbg_cal (b : Blk) (f : Dbg → Dbg) : (b.modDbg f).cal = b.cal := rfl
@[simp] theorem Blk.modDbg_spill (b : Blk) (f : Dbg → Dbg) : (b.modDbg f).spill = b.spill := rfl
@[simp] theorem Blk.modDbg_free (b : Blk) (f : Dbg → Dbg) : (b.modDbg f).free = b.free := rfl

/-! ### Blk.modOps -/

@[simp] theorem Blk.modOps_pins (b : Blk) (f : Ops → Ops) : (b.modOps f).pins = b.pins := rfl
@[simp] theorem Blk.modOps_time (b : Blk) (f : Ops → Ops) : (b.modOps f).time = b.time := rfl
@[simp] theorem Blk.modOps_clk (b : Blk) (f : Ops → Ops) : (b.modOps f).clk = b.clk := rfl
@[simp] theorem Blk.modOps_pwr (b : Blk) (f : Ops → Ops) : (b.modOps f).pwr = b.pwr := rfl
@[simp] theorem Blk.modOps_ing (b : Blk) (f : Ops → Ops) : (b.modOps f).ing = b.ing := rfl
@[simp] theorem Blk.modOps_sram (b : Blk) (f : Ops → Ops) : (b.modOps f).sram = b.sram := rfl
@[simp] theorem Blk.modOps_rank (b : Blk) (f : Ops → Ops) : (b.modOps f).rank = b.rank := rfl
@[simp] theorem Blk.modOps_ptrs (b : Blk) (f : Ops → Ops) : (b.modOps f).ptrs = b.ptrs := rfl
@[simp] theorem Blk.modOps_links (b : Blk) (f : Ops → Ops) : (b.modOps f).links = b.links := rfl
@[simp] theorem Blk.modOps_tas (b : Blk) (f : Ops → Ops) : (b.modOps f).tas = b.tas := rfl
@[simp] theorem Blk.modOps_cls (b : Blk) (f : Ops → Ops) : (b.modOps f).cls = b.cls := rfl
@[simp] theorem Blk.modOps_tim (b : Blk) (f : Ops → Ops) : (b.modOps f).tim = b.tim := rfl
@[simp] theorem Blk.modOps_rings (b : Blk) (f : Ops → Ops) : (b.modOps f).rings = b.rings := rfl
@[simp] theorem Blk.modOps_lc (b : Blk) (f : Ops → Ops) : (b.modOps f).lc = b.lc := rfl
@[simp] theorem Blk.modOps_fp (b : Blk) (f : Ops → Ops) : (b.modOps f).fp = b.fp := rfl
@[simp] theorem Blk.modOps_fed (b : Blk) (f : Ops → Ops) : (b.modOps f).fed = b.fed := rfl
@[simp] theorem Blk.modOps_err (b : Blk) (f : Ops → Ops) : (b.modOps f).err = b.err := rfl
@[simp] theorem Blk.modOps_arb (b : Blk) (f : Ops → Ops) : (b.modOps f).arb = b.arb := rfl
@[simp] theorem Blk.modOps_cvu (b : Blk) (f : Ops → Ops) : (b.modOps f).cvu = b.cvu := rfl
@[simp] theorem Blk.modOps_inj (b : Blk) (f : Ops → Ops) : (b.modOps f).inj = b.inj := rfl
@[simp] theorem Blk.modOps_ecc (b : Blk) (f : Ops → Ops) : (b.modOps f).ecc = b.ecc := rfl
@[simp] theorem Blk.modOps_lock (b : Blk) (f : Ops → Ops) : (b.modOps f).lock = b.lock := rfl
@[simp] theorem Blk.modOps_dbg (b : Blk) (f : Ops → Ops) : (b.modOps f).dbg = b.dbg := rfl
@[simp] theorem Blk.modOps_hctl (b : Blk) (f : Ops → Ops) : (b.modOps f).hctl = b.hctl := rfl
@[simp] theorem Blk.modOps_ss (b : Blk) (f : Ops → Ops) : (b.modOps f).ss = b.ss := rfl
@[simp] theorem Blk.modOps_aon (b : Blk) (f : Ops → Ops) : (b.modOps f).aon = b.aon := rfl
@[simp] theorem Blk.modOps_cal (b : Blk) (f : Ops → Ops) : (b.modOps f).cal = b.cal := rfl
@[simp] theorem Blk.modOps_spill (b : Blk) (f : Ops → Ops) : (b.modOps f).spill = b.spill := rfl
@[simp] theorem Blk.modOps_free (b : Blk) (f : Ops → Ops) : (b.modOps f).free = b.free := rfl

/-! ### Blk.raise -/

@[simp] theorem Blk.raise_pins (b : Blk) (k : Nat) : (b.raise k).pins = b.pins := rfl
@[simp] theorem Blk.raise_time (b : Blk) (k : Nat) : (b.raise k).time = b.time := rfl
@[simp] theorem Blk.raise_clk (b : Blk) (k : Nat) : (b.raise k).clk = b.clk := rfl
@[simp] theorem Blk.raise_pwr (b : Blk) (k : Nat) : (b.raise k).pwr = b.pwr := rfl
@[simp] theorem Blk.raise_sram (b : Blk) (k : Nat) : (b.raise k).sram = b.sram := rfl
@[simp] theorem Blk.raise_rank (b : Blk) (k : Nat) : (b.raise k).rank = b.rank := rfl
@[simp] theorem Blk.raise_ptrs (b : Blk) (k : Nat) : (b.raise k).ptrs = b.ptrs := rfl
@[simp] theorem Blk.raise_links (b : Blk) (k : Nat) : (b.raise k).links = b.links := rfl
@[simp] theorem Blk.raise_tas (b : Blk) (k : Nat) : (b.raise k).tas = b.tas := rfl
@[simp] theorem Blk.raise_cls (b : Blk) (k : Nat) : (b.raise k).cls = b.cls := rfl
@[simp] theorem Blk.raise_tim (b : Blk) (k : Nat) : (b.raise k).tim = b.tim := rfl
@[simp] theorem Blk.raise_rings (b : Blk) (k : Nat) : (b.raise k).rings = b.rings := rfl
@[simp] theorem Blk.raise_lc (b : Blk) (k : Nat) : (b.raise k).lc = b.lc := rfl
@[simp] theorem Blk.raise_fp (b : Blk) (k : Nat) : (b.raise k).fp = b.fp := rfl
@[simp] theorem Blk.raise_fed (b : Blk) (k : Nat) : (b.raise k).fed = b.fed := rfl
@[simp] theorem Blk.raise_err (b : Blk) (k : Nat) : (b.raise k).err = b.err := rfl
@[simp] theorem Blk.raise_arb (b : Blk) (k : Nat) : (b.raise k).arb = b.arb := rfl
@[simp] theorem Blk.raise_cvu (b : Blk) (k : Nat) : (b.raise k).cvu = b.cvu := rfl
@[simp] theorem Blk.raise_inj (b : Blk) (k : Nat) : (b.raise k).inj = b.inj := rfl
@[simp] theorem Blk.raise_ecc (b : Blk) (k : Nat) : (b.raise k).ecc = b.ecc := rfl
@[simp] theorem Blk.raise_lock (b : Blk) (k : Nat) : (b.raise k).lock = b.lock := rfl
@[simp] theorem Blk.raise_dbg (b : Blk) (k : Nat) : (b.raise k).dbg = b.dbg := rfl
@[simp] theorem Blk.raise_hctl (b : Blk) (k : Nat) : (b.raise k).hctl = b.hctl := rfl
@[simp] theorem Blk.raise_ops (b : Blk) (k : Nat) : (b.raise k).ops = b.ops := rfl
@[simp] theorem Blk.raise_ss (b : Blk) (k : Nat) : (b.raise k).ss = b.ss := rfl
@[simp] theorem Blk.raise_aon (b : Blk) (k : Nat) : (b.raise k).aon = b.aon := rfl
@[simp] theorem Blk.raise_cal (b : Blk) (k : Nat) : (b.raise k).cal = b.cal := rfl
@[simp] theorem Blk.raise_spill (b : Blk) (k : Nat) : (b.raise k).spill = b.spill := rfl
@[simp] theorem Blk.raise_free (b : Blk) (k : Nat) : (b.raise k).free = b.free := rfl

/-! ### Entries after a change -/

theorem Blk.link_modLink (b : Blk) (n m : Nat) (f : Link → Link) :
    (b.modLink n f).link m = if m = n then f (b.link n) else b.link m := tabGet_tabMod ..
@[simp] theorem Blk.link_modLink_self (b : Blk) (n : Nat) (f : Link → Link) : (b.modLink n f).link n = f (b.link n) := by
  simp [Blk.link_modLink]

theorem Blk.ta_modTa (b : Blk) (n m : Nat) (f : Agent → Agent) :
    (b.modTa n f).ta m = if m = n then f (b.ta n) else b.ta m := tabGet_tabMod ..
@[simp] theorem Blk.ta_modTa_self (b : Blk) (n : Nat) (f : Agent → Agent) : (b.modTa n f).ta n = f (b.ta n) := by
  simp [Blk.ta_modTa]

theorem Blk.cl_modCl (b : Blk) (n m : Nat) (f : Cluster → Cluster) :
    (b.modCl n f).cl m = if m = n then f (b.cl n) else b.cl m := tabGet_tabMod ..
@[simp] theorem Blk.cl_modCl_self (b : Blk) (n : Nat) (f : Cluster → Cluster) : (b.modCl n f).cl n = f (b.cl n) := by
  simp [Blk.cl_modCl]

theorem Blk.lane_modLane (b : Blk) (n m : Nat) (f : Lane → Lane) :
    (b.modLane n f).lane m = if m = n then f (b.lane n) else b.lane m := tabGet_tabMod ..
@[simp] theorem Blk.lane_modLane_self (b : Blk) (n : Nat) (f : Lane → Lane) : (b.modLane n f).lane n = f (b.lane n) := by
  simp [Blk.lane_modLane]

theorem Blk.slot_modSlot (b : Blk) (n m : Nat) (f : Slot → Slot) :
    (b.modSlot n f).slot m = if m = n then f (b.slot n) else b.slot m := tabGet_tabMod ..
@[simp] theorem Blk.slot_modSlot_self (b : Blk) (n : Nat) (f : Slot → Slot) : (b.modSlot n f).slot n = f (b.slot n) := by
  simp [Blk.slot_modSlot]

theorem Blk.dom_modDom (b : Blk) (d e : Nat) (f : Dom → Dom) :
    (b.modDom d f).dom e = if e = d then f (b.dom d) else b.dom e := tabGet_tabMod ..
@[simp] theorem Blk.dom_modDom_self (b : Blk) (d : Nat) (f : Dom → Dom) : (b.modDom d f).dom d = f (b.dom d) := by
  simp [Blk.dom_modDom]

theorem Blk.env_modEnv (b : Blk) (n m : Nat) (f : Envelope → Envelope) :
    (b.modEnv n f).env m = if m = n then f (b.env n) else b.env m := tabGet_tabMod ..

theorem Blk.peer_modPeer (b : Blk) (n m : Nat) (f : Peer → Peer) :
    (b.modPeer n f).peer m = if m = n then f (b.peer n) else b.peer m := tabGet_tabMod ..
@[simp] theorem Blk.peer_modPeer_self (b : Blk) (n : Nat) (f : Peer → Peer) : (b.modPeer n f).peer n = f (b.peer n) := by
  simp [Blk.peer_modPeer]

theorem Agent.ctx_modCtx (a : Agent) (c d : Nat) (f : Ctx → Ctx) :
    (a.modCtx c f).ctx d = if d = c then f (a.ctx c) else a.ctx d := tabGet_tabMod ..
@[simp] theorem Agent.ctx_modCtx_self (a : Agent) (c : Nat) (f : Ctx → Ctx) : (a.modCtx c f).ctx c = f (a.ctx c) := by
  simp [Agent.ctx_modCtx]

theorem Link.handle_modHandle (l : Link) (h k : Nat) (f : Handle → Handle) :
    (l.modHandle h f).handle k = if k = h then f (l.handle h) else l.handle k := tabGet_tabMod ..
@[simp] theorem Link.handle_modHandle_self (l : Link) (h : Nat) (f : Handle → Handle) :
    (l.modHandle h f).handle h = f (l.handle h) := by simp [Link.handle_modHandle]

/-- A change of a manager ring pair, or of a guest's, read back. -/
@[simp] theorem Blk.pair_modPair_self (b : Blk) (r : RingId) (f : Pair → Pair) : (b.modPair r f).pair r = f (b.pair r) := by
  cases r <;> simp [Blk.modPair, Blk.pair]

/-! ### Outcomes -/

@[simp] theorem State.run_eq (s : State) (f : List Host.Cell → Blk → Blk) :
    s.run f = .next { s with blk := (f s.mem s.blk).afterCmd s.mem } := rfl
@[simp] theorem State.onBlk_eq (s : State) (f : Blk → Blk) : s.onBlk f = .next { s with blk := f s.blk } := rfl
@[simp] theorem Blk.when_true (b : Blk) (f : Blk → Blk) : b.when true f = f b := rfl
@[simp] theorem Blk.when_false (b : Blk) (f : Blk → Blk) : b.when false f = b := rfl

end Sys2Proof.Machine
end

