-- ==== Sys2Proof/Laws/Clause.lean ====
section
/-! SUPPORT. What an instruction row does at an instruction whose fetch meets no fault, and what a fault leaves. -/
namespace Sys2Proof.Machine
open Sys2Proof

theorem Blk.Running.runOf {b : Blk} {c k : Nat} {r : Run} (h : b.Running c k r) : b.runOf c k false = some r := by
  simp [Blk.runOf, h.awake, h.halted, h.running, h.sequencing]

/-- No injection armed: an instruction reads its data store word unharmed. -/
theorem Blk.dataFault_eq {b : Blk} {c : Nat} (h : b.injHit 6 c = false) (r : Run) (w : Word24) : b.dataFault c r w = b := by
  unfold Blk.dataFault; split <;> simp [h]

/-- The fetch at an instruction answers it. -/
theorem Blk.AtInstr.fetch {b : Blk} {c k : Nat} {r : Run} {w : Word24} (h : b.AtInstr c k r w) :
    (b.cl c).fetch r (b.injHit 7 c) = .inr w := by
  obtain ⟨h1, h2, h3⟩ := h.region
  have h4 : ¬ r.d.att.budget < r.steps + stepCost w := by have := h.budget; omega
  have hl := h.legal
  have hw := h.word
  subst hw
  simp only [Cluster.fetch, h1, h2, h3, h.noInject.2, h.sound, hl, h4]
  simp

/-- One row at its instruction: what the shared step makes of the cluster and the run. -/
theorem Blk.AtInstr.instr {b : Blk} {c k : Nat} {r : Run} {w : Word24} (h : b.AtInstr c k r w)
    (f : Cluster → Run → Word24 → StepRes) (op : Nat) (ho : opOf w = op) :
    b.instr c k op f false =
      match f (b.cl c) { r with steps := r.steps + stepCost w } w with
      | .fault cause => b.faultRun c k { r with steps := r.steps + stepCost w } cause
      | .ends r'' => b.setEngine c k (fun e => { e with st := .closing { d := r''.d, acts := r''.acts } r''.again })
      | .go cl r'' => b.modCl c (fun _ => cl.setEngine k (fun e => { e with st := .running r'' })) := by
  unfold Blk.instr
  simp only [h.runOf, h.word, ho, h.legal, h.fetch, Blk.dataFault_eq h.noInject.1, ne_eq, not_true_eq_false, false_or,
    Bool.not_true, Bool.false_eq_true, if_false]
  all_goals rfl

/-- A row whose shared step changes only the run leaves the engine running what it makes of it. -/
theorem Blk.AtInstr.isa_go {b : Blk} {c k : Nat} {r : Run} {w : Word24} (h : b.AtInstr c k r w) {op : Nat}
    (ho : opOf w = op) {r' : Run} (hf : opStep op (b.cl c) { r with steps := r.steps + stepCost w } w = .go (b.cl c) r') :
    b.isa c k op = b.modCl c (fun x =>
      { x with engines := tabMod {} x.engines k (fun e => { e with st := .running r' }) }) := by
  unfold Blk.isa; rw [h.instr _ _ ho, hf]; rfl

theorem Blk.probe_cls (b : Blk) (ev stt dom : Nat) (cls : BitVec 2) : (b.probe ev stt dom cls).cls = b.cls := by
  unfold Blk.probe; split <;> rfl

/-- A probe changes nothing but the debug unit. -/
theorem Blk.probe_eq (b : Blk) (ev stt dom : Nat) (cls : BitVec 2) :
    b.probe ev stt dom cls = { b with dbg := (b.probe ev stt dom cls).dbg } := by
  unfold Blk.probe; split <;> rfl

/-- A fault leaves what 07 R303 and R304 say, and nothing else. -/
theorem Blk.faultRun_leaves (b : Blk) (c k : Nat) (r : Run) (cause : Nat) :
    b.FaultLeaves (b.faultRun c k r cause) c k r cause := by
  refine ⟨?_, ?_, ?_, ?_⟩
  · simp [Blk.faultRun, Blk.cl, Blk.probe_cls, Blk.raise, Blk.modLane, Blk.setEngine, Blk.modCl, Cluster.setEngine]
    rfl
  · intro d hd
    simp [Blk.faultRun, Blk.cl, Blk.probe_cls, Blk.raise, Blk.modLane, Blk.setEngine, Blk.modCl, tabGet_tabMod, hd]
  · unfold Blk.faultRun; rw [Blk.probe_eq]
    simp [Blk.lane, Blk.raise, Blk.modLane, Blk.setEngine, Blk.modCl]
  · unfold Blk.faultRun; rw [Blk.probe_eq]
    simp [Blk.raise, Blk.modLane, Blk.setEngine, Blk.modCl]

/-- A fault of an instruction's own table leaves what a fault leaves. -/
theorem Blk.AtInstr.isa_fault {b : Blk} {c k : Nat} {r : Run} {w : Word24} (h : b.AtInstr c k r w) {op : Nat}
    (ho : opOf w = op) {cause : Nat}
    (hf : opStep op (b.cl c) { r with steps := r.steps + stepCost w } w = .fault cause) :
    b.FaultLeaves (b.isa c k op) c k r cause := by
  unfold Blk.isa; rw [h.instr _ _ ho, hf]
  have h := Blk.faultRun_leaves b c k { r with steps := r.steps + stepCost w } cause
  exact h

end Sys2Proof.Machine
end

