-- ==== Sys2Proof/Laws/Memory.lean ====
section
/-! SUPPORT. Host memory: reads after writes, and the canonical form that every write keeps. -/
namespace Sys2Proof.Machine
open Sys2Proof

/-- A byte reads as written; every other byte reads as before. -/
theorem memRead_memWrite (m : List Host.Cell) (a c : Nat) (v : Byte) :
    memRead (memWrite m a v) c = if c = a then v else memRead m c := tabGet_tabSet ..

/-- A fold that writes consecutive bytes, read back. -/
theorem memRead_writes (d : Nat → Byte) (base n : Nat) (m : List Host.Cell) (c : Nat) :
    memRead ((List.range n).foldl (fun a k => memWrite a (base + k) (d k)) m) c =
      if base ≤ c ∧ c < base + n then d (c - base) else memRead m c := by
  induction n with
  | zero => simp
  | succ n ih =>
    rw [List.range_succ, List.foldl_append]
    simp only [List.foldl_cons, List.foldl_nil, memRead_memWrite, ih]
    by_cases h : c = base + n
    · subst h; simp
    · have : (base ≤ c ∧ c < base + (n + 1)) ↔ (base ≤ c ∧ c < base + n) := by omega
      simp [h, this]

/-- A whole-line write replaces the 64 bytes of its line and no other byte (02 R72). -/
theorem memRead_memWriteLine (m : List Host.Cell) (line : Nat) (d : BitVec 512) (c : Nat) :
    memRead (memWriteLine m line d) c =
      if c / 64 = line then d.extractLsb' (8 * (c - 64 * line)) 8 else memRead m c := by
  unfold memWriteLine
  rw [memRead_writes (fun k => d.extractLsb' (8 * k) 8)]
  have : (64 * line ≤ c ∧ c < 64 * line + 64) ↔ c / 64 = line := by omega
  simp [this]

/-! ## The canonical form -/

/-- The form, cell by cell: every address of the rest lies above the first, no byte is 0. -/
theorem wf_cons (a : Nat) (v : Byte) (t : List Host.Cell) :
    Memory.wf ((a, v) :: t) = true ↔ v ≠ 0 ∧ (∀ x ∈ t, a < x.1) ∧ Memory.wf t = true := by
  induction t generalizing a v with
  | nil => simp [Memory.wf]
  | cons y t ih =>
    obtain ⟨b, w⟩ := y
    have h := ih b w
    simp only [Memory.wf, Bool.and_eq_true, decide_eq_true_eq, List.forall_mem_cons]
    constructor
    · rintro ⟨⟨h1, h2⟩, h3⟩
      have h4 := h.1 h3
      exact ⟨h1, ⟨h2, fun x hx => lt_trans h2 (h4.2.1 x hx)⟩, h3⟩
    · rintro ⟨h1, ⟨h2, _⟩, h3⟩
      exact ⟨⟨h1, h2⟩, h3⟩

theorem mem_tabDel (t : List Host.Cell) (n : Nat) (x : Host.Cell) (h : x ∈ tabDel t n) : x ∈ t := by
  induction t with
  | nil => simp [tabDel] at h
  | cons y t ih =>
    obtain ⟨k, w⟩ := y
    simp only [tabDel] at h
    split at h
    · exact List.mem_cons_of_mem _ (ih h)
    · rcases List.mem_cons.1 h with h | h
      · simp [h]
      · exact List.mem_cons_of_mem _ (ih h)

theorem mem_tabPut (t : List Host.Cell) (n : Nat) (v : Byte) (x : Host.Cell) (h : x ∈ tabPut t n v) :
    x = (n, v) ∨ x ∈ t := by
  induction t with
  | nil => simpa [tabPut] using h
  | cons y t ih =>
    obtain ⟨k, w⟩ := y
    have hd := fun z (hz : z ∈ tabDel t n) => mem_tabDel t n z hz
    simp only [tabPut] at h
    split at h
    · rcases List.mem_cons.1 h with h | h
      · exact .inl h
      · rcases List.mem_cons.1 h with h | h
        · exact .inr (by simp [h])
        · exact .inr (List.mem_cons_of_mem _ (hd x h))
    · split at h
      · rcases List.mem_cons.1 h with h | h
        · exact .inl h
        · exact .inr (List.mem_cons_of_mem _ (hd x h))
      · rcases List.mem_cons.1 h with h | h
        · exact .inr (by simp [h])
        · rcases ih h with h | h
          · exact .inl h
          · exact .inr (List.mem_cons_of_mem _ h)

theorem wf_tabDel (t : List Host.Cell) (n : Nat) (h : Memory.wf t = true) : Memory.wf (tabDel t n) = true := by
  induction t with
  | nil => exact h
  | cons y t ih =>
    obtain ⟨k, w⟩ := y
    have h' := (wf_cons ..).1 h
    simp only [tabDel]
    split
    · exact ih h'.2.2
    · exact (wf_cons ..).2 ⟨h'.1, fun x hx => h'.2.1 x (mem_tabDel t n x hx), ih h'.2.2⟩

theorem wf_tabPut (t : List Host.Cell) (n : Nat) (v : Byte) (hv : v ≠ 0) (h : Memory.wf t = true) :
    Memory.wf (tabPut t n v) = true := by
  induction t with
  | nil => simpa [tabPut, Memory.wf] using hv
  | cons y t ih =>
    obtain ⟨k, w⟩ := y
    have h' := (wf_cons ..).1 h
    have hd := wf_tabDel t n h'.2.2
    have hm := fun x (hx : x ∈ tabDel t n) => h'.2.1 x (mem_tabDel t n x hx)
    simp only [tabPut]
    split
    · rename_i hn
      refine (wf_cons ..).2 ⟨hv, ?_, (wf_cons ..).2 ⟨h'.1, hm, hd⟩⟩
      intro x hx
      rcases List.mem_cons.1 hx with hx | hx
      · simpa [hx] using hn
      · exact lt_trans hn (hm x hx)
    · split
      · rename_i hk
        subst hk
        exact (wf_cons ..).2 ⟨hv, hm, hd⟩
      · rename_i hn hk
        refine (wf_cons ..).2 ⟨h'.1, ?_, ih h'.2.2⟩
        intro x hx
        rcases mem_tabPut t n v x hx with hx | hx
        · subst hx; show k < n; omega
        · exact h'.2.1 x hx

/-- A byte write keeps the canonical form. -/
theorem wf_memWrite (m : List Host.Cell) (a : Nat) (v : Byte) (h : Memory.wf m = true) :
    Memory.wf (memWrite m a v) = true := by
  unfold memWrite tabSet
  split
  · exact wf_tabDel m a h
  · exact wf_tabPut m a v (by assumption) h

/-- A whole-line write keeps the canonical form. -/
theorem wf_memWriteLine (m : List Host.Cell) (line : Nat) (d : BitVec 512) (h : Memory.wf m = true) :
    Memory.wf (memWriteLine m line d) = true := by
  unfold memWriteLine
  generalize List.range 64 = l
  induction l generalizing m with
  | nil => exact h
  | cons k l ih => exact ih _ (wf_memWrite _ _ _ h)

end Sys2Proof.Machine
end

