-- ==== Sys2Proof/Laws/Lines.lean ====
section
/-! SUPPORT. Lines of 64 bytes: their words, and reads of a line after a write of one. -/
namespace Sys2Proof.Machine
open Sys2Proof

/-- A line from its words, one word at a time. -/
theorem lineOfWords_cons (w : Word) (ws : List Word) :
    lineOfWords (w :: ws) = (lineOfWords ws <<< 32) ||| w.setWidth 512 := by simp [lineOfWords, List.foldl_append]
/-- A line built from words reads back word by word; a word beyond the list reads 0. -/
theorem lineWord_ofWords (ws : List Word) (k : Nat) (hk : k < 16) : lineWord (lineOfWords ws) k = ws.getD k 0 := by
  induction ws generalizing k with
  | nil => simp [lineOfWords, lineWord]
  | cons w ws ih =>
    rw [lineOfWords_cons]
    cases k with
    | zero =>
      apply BitVec.eq_of_getLsbD_eq; intro i hi
      simp [lineWord, hi]; omega
    | succ k =>
      have := ih k (by omega)
      rw [List.getD_cons_succ, ← this]
      apply BitVec.eq_of_getLsbD_eq; intro i hi
      simp only [lineWord, BitVec.getLsbD_extractLsb', hi, BitVec.getLsbD_or, BitVec.getLsbD_shiftLeft, BitVec.getLsbD_setWidth]
      rw [BitVec.getLsbD_of_ge w _ (by omega)]
      simp [show ¬ 32 * (k + 1) + i < 32 by omega, show 32 * (k + 1) + i - 32 = 32 * k + i by omega]
      omega
/-- The upper bytes of a line, gathered byte by byte. -/
theorem memLine_aux (d : BitVec 512) (n k : Nat) (h : n + k = 64) :
    (List.range' k n).foldr (fun j (a : BitVec 512) => (a <<< 8) ||| (d.extractLsb' (8 * j) 8).setWidth 512) 0 = d >>> (8 * k) := by
  induction n generalizing k with
  | zero => obtain rfl : k = 64 := by omega
            exact (BitVec.ushiftRight_eq_zero (by omega)).symm
  | succ n ih =>
    rw [List.range'_succ, List.foldr_cons, ih (k + 1) (by omega)]
    apply BitVec.eq_of_getLsbD_eq; intro i hi
    by_cases h8 : i < 8
    · simp [h8, hi]
    · simp [h8, hi, show 8 * (k + 1) + (i - 8) = 8 * k + i by omega]
/-- A line reads as it was written. -/
theorem memLine_write (m : List Host.Cell) (L : Nat) (d : BitVec 512) : memLine (memWriteLine m L d) L = d := by
  have h : memLine (memWriteLine m L d) L =
      (List.range 64).foldr (fun j (a : BitVec 512) => (a <<< 8) ||| (d.extractLsb' (8 * j) 8).setWidth 512) 0 := by
    refine List.foldr_ext _ _ _ (fun k hk a => ?_)
    have := List.mem_range.1 hk
    rw [memRead_memWriteLine]; simp [show (64 * L + k) / 64 = L by omega]
  rw [h, List.range_eq_range', memLine_aux d 64 0 rfl]; simp
/-- A whole-line write leaves every other line. -/
theorem memLine_write_ne (m : List Host.Cell) (L l : Nat) (d : BitVec 512) (h : l ≠ L) : memLine (memWriteLine m L d) l = memLine m l := by
  refine List.foldr_ext _ _ _ (fun k hk a => ?_)
  have := List.mem_range.1 hk
  rw [memRead_memWriteLine]; simp [show (64 * l + k) / 64 = l by omega, h]

end Sys2Proof.Machine
end

