-- ==== Sys2Proof/WellFormed.lean ====
section
/-! DEFINITION. Which commands are well formed: every operand names something the block has (00 R14; 02 Tables 2-1 and
2-2; 06 Table 6-1; 07 R261; 10 Table 10-1; 12 R452; 17 R603). A command that is not well formed names no port, unit or
entry of the block. -/
namespace Sys2Proof

/-- A ring pair of a manager 0 to 7, or of a guest domain 1 to 4,095 (10 Table 10-1). -/
def RingId.wf : RingId → Bool
  | .mgr m => m < 8
  | .guest d => 1 ≤ d && d < 4096

/-- A ring pair, or the Event Log Queue of a domain 0 to 4,095 (10 Table 10-1). -/
def RingSel.wf : RingSel → Bool
  | .pair r => r.wf
  | .elq d => d < 4096

/-- A bit of a beat (02 R50). -/
def BeatEcc.wf : BeatEcc → Bool
  | .clean | .double => true
  | .single k => k < 32

/-- Eight beats, their four check fields and four code outcomes (02 R44, R50). -/
def MsgRec.wf (m : MsgRec) : Bool :=
  m.beats.length = 8 && m.chk.length ≤ 4 && m.ecc.length ≤ 4 && m.ecc.all BeatEcc.wf

/-- Fields of a FWD message in their widths (12 Table 12-1). -/
def FwdMsg.wf (m : FwdMsg) : Bool := m.stt < 524288 && m.domid < 4096 && m.v < 1024 && m.proxy < 1024

/-- A domain and a virtual context of it (11 R406, R416). -/
def OwnBody.wf : OwnBody → Bool
  | .runs dom v _ => dom < 4096 && v < 1024
  | .offset _ => true

/-- A cluster and one of its engines (07 R261). -/
def engineWf (cluster engine : Nat) : Bool := cluster < 16 && engine < 16

/-- An access size in bytes. -/
def sizeWf (size : Nat) : Bool := size = 1 || size = 2 || size = 4 || size = 8

/-- Every operand of a command is in its range. -/
def Instr.wf : Instr → Bool
  | .messageRecord mip msg => mip < 96 && msg.wf
  | .wiredLineChange wlp line _ samples => wlp < 24 && line < 64 && samples < 256
  | .wiredLaneTurn group => group < 12
  | .internalReport k => k < 256
  | .arrivalStateUpdate bank => bank < 16
  | .spillPathUpdate => true
  | .spillBitmapTake => true
  | .runStart cluster => cluster < 16
  | .clMov cluster engine => engineWf cluster engine
  | .clLdi cluster engine => engineWf cluster engine
  | .clLuh cluster engine => engineWf cluster engine
  | .clAdd cluster engine => engineWf cluster engine
  | .clSub cluster engine => engineWf cluster engine
  | .clAddi cluster engine => engineWf cluster engine
  | .clCmp cluster engine => engineWf cluster engine
  | .clCmpi cluster engine => engineWf cluster engine
  | .clAnd cluster engine => engineWf cluster engine
  | .clOr cluster engine => engineWf cluster engine
  | .clXor cluster engine => engineWf cluster engine
  | .clAndi cluster engine => engineWf cluster engine
  | .clOri cluster engine => engineWf cluster engine
  | .clShl cluster engine => engineWf cluster engine
  | .clShr cluster engine => engineWf cluster engine
  | .clSar cluster engine => engineWf cluster engine
  | .clMulu cluster engine => engineWf cluster engine
  | .clMuls cluster engine => engineWf cluster engine
  | .clDivu cluster engine => engineWf cluster engine
  | .clAbs cluster engine => engineWf cluster engine
  | .clMins cluster engine => engineWf cluster engine
  | .clMaxs cluster engine => engineWf cluster engine
  | .clMinu cluster engine => engineWf cluster engine
  | .clMaxu cluster engine => engineWf cluster engine
  | .clExtu cluster engine => engineWf cluster engine
  | .clLdh cluster engine => engineWf cluster engine
  | .clLdhx cluster engine => engineWf cluster engine
  | .clSth cluster engine => engineWf cluster engine
  | .clSthx cluster engine => engineWf cluster engine
  | .clLdt cluster engine => engineWf cluster engine
  | .clLdtx cluster engine => engineWf cluster engine
  | .clCmpt cluster engine => engineWf cluster engine
  | .clXchh cluster engine => engineWf cluster engine
  | .clAddh cluster engine => engineWf cluster engine
  | .clBand cluster engine => engineWf cluster engine
  | .clB cluster engine => engineWf cluster engine
  | .clBbs cluster engine => engineWf cluster engine
  | .clBbc cluster engine => engineWf cluster engine
  | .clEmit cluster engine => engineWf cluster engine
  | .clEmitr cluster engine => engineWf cluster engine
  | .clCoalesce cluster engine => engineWf cluster engine
  | .clSuppress cluster engine => engineWf cluster engine
  | .clLog cluster engine => engineWf cluster engine
  | .clTimer cluster engine => engineWf cluster engine
  | .clEnd cluster engine => engineWf cluster engine
  | .closing cluster engine => cluster < 16 && engine ≤ 16
  | .watchdogExpiry cluster engine => engineWf cluster engine
  | .sourceTimerExpiry cluster aidx => cluster < 16 && aidx < 1024
  | .geyserFire channel => channel < 16
  | .offerRanking => true
  | .reOfferRequest => true
  | .parkedRescan => true
  | .postedRescan => true
  | .routeResync => true
  | .slotFill link => link < 16
  | .candidateFlit link _ => link < 16
  | .nak link _ _ => link < 16
  | .nakRepeat link _ => link < 16
  | .replayWaitTimeout link _ => link < 16
  | .wdraw link _ => link < 16
  | .won link _ => link < 16
  | .lost link _ => link < 16
  | .pause link _ => link < 16
  | .pauseAck link _ => link < 16
  | .quiesce link _ => link < 16
  | .qack link _ => link < 16
  | .resyncReq link _ => link < 16
  | .rsync link _ => link < 16
  | .rsyncEnd link _ => link < 16
  | .clear link _ => link < 16
  | .drop link _ => link < 16
  | .trained link _ => link < 16
  | .trainingTimeout link => link < 16
  | .released link _ => link < 16
  | .claimed link _ => link < 16
  | .claimReq link _ => link < 16
  | .completeNotice link _ => link < 16
  | .vctxSwitchEnd m => m < 8
  | .ctxstat link _ => link < 16
  | .cfault link _ => link < 16
  | .unpop link _ => link < 16
  | .claimRead ctx off size => ctx < 1024 && off < 0x1000 && sizeWf size
  | .completeWrite ctx off size _ => ctx < 1024 && off < 0x1000 && sizeWf size
  | .floorWrite ctx size _ => ctx < 1024 && sizeWf size
  | .wakePattern link _ => link < 16
  | .wakePatternRepeat link => link < 16
  | .tileLoss link => link < 16
  | .hubResetDetect tile => tile < 16
  | .mapSource ring => ring.wf
  | .unmapSource ring => ring.wf
  | .setRoute ring => ring.wf
  | .setClass ring => ring.wf
  | .setEnvelope ring => ring.wf
  | .loadClause ring => ring.wf
  | .attachClause ring => ring.wf
  | .reserveSlots ring => ring.wf
  | .slotTableLive link => link < 16
  | .setResidency ring => ring.wf
  | .setTimer ring => ring.wf
  | .setShare ring => ring.wf
  | .stageBegin ring => ring.wf
  | .commit ring => ring.wf
  | .commitSwitch => true
  | .abandon ring => ring.wf
  | .fence ring => ring.wf
  | .freezeDomain ring => ring.wf
  | .freezeBoundary dom => dom < 4096
  | .snapshotDomain ring => ring.wf
  | .restoreDomain ring => ring.wf
  | .thawDomain ring => ring.wf
  | .resetDomain ring => ring.wf
  | .sendCoreMsg ring => ring.wf
  | .queryState ring => ring.wf
  | .cacheFlush ring => ring.wf
  | .cacheInvalidate ring => ring.wf
  | .gcmdPseq dom size _ _ => dom < 4096 && sizeWf size
  | .gcplCseq dom size _ _ => dom < 4096 && sizeWf size
  | .elqCseq dom size _ _ => dom < 4096 && sizeWf size
  | .mcmdPseq m size _ _ => m < 8 && sizeWf size
  | .mcplCseq m size _ _ => m < 8 && sizeWf size
  | .ringEnable _ m agent => m < 8 && agent < 16
  | .ringDisable _ m agent => m < 8 && agent < 16
  | .ringDrainEnd r => r.wf
  | .cacheEnable _ => true
  | .cacheDisable _ => true
  | .cacheDrainEnd => true
  | .lineFill line => line < 2 ^ 58
  | .lineWritebackAck line => line < 2 ^ 58
  | .hostAccessRetry line => line < 2 ^ 58
  | .clusterDisable _ cluster rsv => cluster < 16 && rsv < 16
  | .clusterEnable _ cluster rsv => cluster < 16 && rsv < 16
  | .clusterDrainEnd cluster => cluster < 16
  | .engineRevive _ cluster _ => cluster < 16
  | .opctlTargetWrite _ _ _ => true
  | .opSwitch => true
  | .avsAck crcErrors _ readBack => crcErrors < 16 && readBack < 65536
  | .avsTimeout => true
  | .pllLockLoss => true
  | .bypassRelockAttempt => true
  | .pllLock => true
  | .timeBaseInvalid => true
  | .agingMonitorRead _ => true
  | .powerReqIdle _ _ _ => true
  | .powerReqSleep _ _ _ => true
  | .powerReqDeep _ _ _ => true
  | .powerReqOff _ _ _ => true
  | .autoIdleRequest => true
  | .clientPoll => true
  | .delayTimeout => true
  | .offAcknowledge => true
  | .pgIrqTimeout => true
  | .supplyLoss => true
  | .powerGoodReturn => true
  | .wakePin pin _ => pin < 8
  | .wakeAlarm => true
  | .mipHeld mip _ => mip < 96
  | .isoRequest => true
  | .packageColdReset _ _ _ => true
  | .startTimeout => true
  | .hubWarmReset => true
  | .softwareReset _ _ => true
  | .tileAgentReset tile _ => tile < 16
  | .scrubAll _ => true
  | .spillAll _ => true
  | .restoreAll _ => true
  | .selftest _ failing => failing.all (· < 16)
  | .operationEnd => true
  | .scrubPeriod => true
  | .storeScrub => true
  | .entryRebuild _ n => n < 524288
  | .sequencerRestart => true
  | .grantRevoke bank => bank < 16
  | .acquire _ _ => true
  | .renew _ _ => true
  | .release _ _ => true
  | .breakLock _ _ => true
  | .leaseExpiry => true
  | .agentBind _ agent _ _ _ => agent < 16
  | .injectionArm _ _ => true
  | .debugLevelWrite _ _ => true
  | .debugHalt _ _ _ => true
  | .debugStep _ cluster engine => engineWf cluster engine
  | .memoryWindowOp _ space _ cluster engine => space < 8 && engineWf cluster engine
  | .traceClear _ _ => true
  | .traceRead _ => true
  | .dbgChal _ => true
  | .dbgResp _ => true
  | .dbgReg _ => true
  | .tapReset => true
  | .fedReload _ _ hubid => hubid < 4
  | .fedEnableWrite _ _ hubid => hubid < 4
  | .helloTimer => true
  | .hello peer seq proto fwver hubid fedid _ => peer < 4 && seq < 16777216 && proto < 256 && fwver < 65536 && hubid < 4 && fedid < 65536
  | .helloAck peer seq proto fwver hubid fedid _ => peer < 4 && seq < 16777216 && proto < 256 && fwver < 65536 && hubid < 4 && fedid < 65536
  | .timeMeasureTimer => true
  | .timeReq peer seq _ => peer < 4 && seq < 16777216
  | .timeRsp peer seq _ _ _ => peer < 4 && seq < 16777216
  | .own peer seq body => peer < 4 && seq < 16777216 && body.wf
  | .leave peer seq cause => peer < 4 && seq < 16777216 && cause < 256
  | .zblAck peer _ seq => peer < 4 && seq < 16777216
  | .zblResend peer _ => peer < 4
  | .peerLost peer => peer < 4
  | .fwd peer seq m => peer < 4 && seq < 16777216 && m.wf
  | .zblWdraw peer seq proxy => peer < 4 && seq < 16777216 && proxy < 1024
  | .zblReleased peer seq proxy _ => peer < 4 && seq < 16777216 && proxy < 1024
  | .zblClaimed peer seq proxy _ => peer < 4 && seq < 16777216 && proxy < 1024
  | .zblComplete peer seq proxy _ => peer < 4 && seq < 16777216 && proxy < 1024
  | .linkQuiesce _ link _ => link < 16
  | .linkService _ link _ => link < 16
  | .linkRetrain _ link _ => link < 16
  | .registerWrite _ off size _ _ => off < 0x100000 && sizeWf size
  | .fetchFault cluster engine => engineWf cluster engine
  | .timeBaseValid _ => true
  | .isoRequestFall => true
  | .tileFrameAlign link => link < 16
  | .upstreamFramesPassed link => link < 16
  | .timeMeasurementTimeout peer => peer < 4
  | .responseCheckEnd => true
  | .loHalfRead _ off size _ => off < 0x100000 && sizeWf size
  | .tapInstructionUpdate _ => true
  | .lineWriteAck line => line < 2 ^ 58

end Sys2Proof
end

