-- ==== Sys2Proof/Tests/Slice0.lean ====
section
/-! SUPPORT. Tests of the model on small states, and a witness for the hypotheses of each statement. -/
namespace Sys2Proof.Tests
open Sys2Proof Sys2Proof.Machine

/-! ## Ill-formed commands, one for each check -/

theorem test_wf_ring : (Instr.fence (.mgr 7)).wf = true ∧ (Instr.fence (.mgr 8)).wf = false ∧
    (Instr.fence (.guest 0)).wf = false ∧ (Instr.fence (.guest 4095)).wf = true := by decide
theorem test_wf_engine : (Instr.clAdd 15 15).wf = true ∧ (Instr.clAdd 16 0).wf = false ∧ (Instr.clAdd 0 16).wf = false := by
  decide
theorem test_wf_line : (Instr.wiredLineChange 23 63 true 5).wf = true ∧ (Instr.wiredLineChange 24 0 true 5).wf = false ∧
    (Instr.wiredLineChange 0 64 true 5).wf = false := by decide
theorem test_wf_context : (Instr.claimRead 1023 0 4).wf = true ∧ (Instr.claimRead 1024 0 4).wf = false ∧
    (Instr.claimRead 0 0x1000 4).wf = false ∧ (Instr.claimRead 0 0 3).wf = false := by decide
theorem test_wf_peer : (Instr.peerLost 3).wf = true ∧ (Instr.peerLost 4).wf = false := by decide
theorem test_wf_register : (Instr.registerWrite .debug 0xFFFFC 4 0 false).wf = true ∧
    (Instr.registerWrite .debug 0x100000 4 0 false).wf = false := by decide
theorem test_wf_record : (Instr.messageRecord 0 { beats := [0, 0, 0, 0, 0, 0, 0, 0] }).wf = true ∧
    (Instr.messageRecord 96 { beats := [0, 0, 0, 0, 0, 0, 0, 0] }).wf = false ∧
    (Instr.messageRecord 0 { beats := [0] }).wf = false := by decide

/-! ## States in RUN -/

/-- The block in RUN, nothing configured. -/
def up : Blk := { aon := { start := none }, pwr := { seq := { hubReset := false } } }
/-- A state with this block. -/
def st (b : Blk) : State := { blk := b }

theorem up_awake : up.awake = true := by decide

/-! ## Clause Engines -/

/-- A dispatch record of source 5 with an attachment at program address 16 of a region that holds words 16 to 31. -/
def disp : Dispatch :=
  { stt := 5, mapgen := 1, domid := 2, vintid := 0x123, gen := 3, rank := { cls := 1, prio := 0x40 }, dcls := 1,
    cause := .arrival, exc := false, pl := { ns := 2, seq := 7, chan := 9, samples := [11, 22] }, time := 0x123456789ABC,
    clus := 0, aidx := 4,
    att := { valid := true, paddr := 16, region := 1, budget := 40, hbase := 100, hlen := 8, tbase := 200, tlen := 4,
             param := 77, ten := true, owner := 5, tmin := 1 } }
/-- A run at word 16 with G2 = 5 and G3 = 0xFFFFFE. -/
def run : Run := { d := disp, g := [(2, 5), (3, 0xFFFFFE)], pc := 16 }
/-- Engine 0 of cluster 0 at the instruction `w`. -/
def atW (w : Word24) (r : Run) (bad : NSet := []) : State :=
  st { up with cls := [(0, { prog := [(16, w)], data := [(100, 7), (200, 3), (201, 6)], dataBad := bad,
                             regions := [(1, { valid := true, pbase := 16, plen := 16 })],
                             engines := [(0, { st := .running r })] })] }

/-- An instruction word from its opcode and its low 18 bits. -/
def word (op low : Nat) : Word24 := BitVec.ofNat 24 (op * 2 ^ 18 + low)
/-- Low bits of a REG form: RD, RA and RB. -/
def reg (d a b : Nat) : Nat := d * 2 ^ 14 + a * 2 ^ 10 + b * 2 ^ 6

theorem atW_at (w : Word24) (bad : NSet) (r : Run) (hr : r.pc = 16 ∧ r.stuck = false ∧ r.d.att.region = 1)
    (h : legalWord w = true) (hb : r.steps + stepCost w ≤ r.d.att.budget) : (atW w r bad).blk.AtInstr 0 0 r w := by
  obtain ⟨h1, h2, h3⟩ := hr
  by_cases hw : w = 0
  · subst hw; simp [legalWord, opOf, bits] at h
  exact { awake := rfl, halted := rfl, running := rfl, sequencing := h2, noInject := ⟨rfl, rfl⟩,
          region := by simp [Blk.InRegion, h3, h1, atW, st, Blk.cl, tabGet],
          sound := by simp [h1, atW, st, Blk.cl, tabGet, setHas], word := by simp [h1, atW, st, Blk.cl, tabGet],
          legal := h, budget := hb }

/-! ## Sources -/

/-- Source 5 of live domain 2, resident in slot 3, with this entry and these attachments. -/
def sttEntry : Stt :=
  { valid := true, kind := .data, mapgen := 1, domid := 2, vintid := 0x123, res := true, slot := 3,
    rank := { cls := 1, prio := 0x40 }, clause := { cv := true, clus := 0, aidx := 4 } }
def src (t : Stt) (e : Entry) (b : Blk := up) : Blk :=
  { b with time := { b.time with tb := 0x123456789ABC, valid := true },
           sram := { b.sram with stt := [(5, t)], slots := [(3, { entry := { e with used := true }, owner := 5 })],
                                 doms := [(2, { st := .live, gen := 3 })] } }
theorem src_at (e : Entry) (t : Stt) (h : t.valid = true ∧ t.res = true ∧ t.slot = 3 ∧ t.domid = 2) (b : Blk)
    (hb : b.inj.arm = [] ∧ b.ecc = {} ∧ b.rank.offers = []) (hn : b.noticesHeld = false) : (src t e b).AtSlot 5 t := by
  obtain ⟨h1, h2, h3, h4⟩ := h
  obtain ⟨g1, g2, g3⟩ := hb
  exact { stt := rfl, mapped := ⟨h1, h2⟩, noInject := g1, readable := by simp [src, g2, setHas],
          noOffer := by simp [src, g3], noNotice := hn, acts := by simp [src, h4, Blk.dom, tabGet, Dom.still] }

/-! ## Ingress -/

/-- The block in RUN with a valid time base, an MSI window, one credit and two envelopes. -/
def ingress (stt : Tab Stt) : Blk :=
  { up with time := { tb := 5000, valid := true }, hctl := { msiLo := 0xFEE00000 },
            ing := { credit := [(9, 4)] }, rings := {},
            sram := { req := [(0x21, { valid := true, mbase := 64, mcount := 4, cbase := 200, ccount := 4 }),
                              (0x22, { valid := true, pmode := true, pcount := 2, mbase := 64, mcount := 4 })],
                      env := [(1, { p := 100, b := 3, tat := 5200 }), (2, { p := 100, b := 3, tat := 5201 })], stt := stt } }
/-- A memory write of vector `v` by requester 0x21, with its address. -/
def msi (v : Nat) (addr : Word := 0xFEE00000) : MsgRec := { beats := [0x00100021, 0, addr, 0, BitVec.ofNat 32 v, 0, 0, 0] }
/-- A data-bearing message of channel `c` with one sample. -/
def dataMsg (c : Nat) : MsgRec := { beats := [0x00120021, 0, 0x1C5E, BitVec.ofNat 32 (0x11070000 + c), 0x000ABCDE, 0, 0, 0] }
def msiSrc (res : Bool) (env : Nat) (cls : BitVec 2 := 2) : Tab Stt :=
  [(65, { valid := true, kind := .msi, mapgen := 4, domid := 1, res := res, slot := 19, rank := { cls := cls },
          env := { envv := 0 < env, env := env } }), (203, { valid := true, kind := .data, res := true, slot := 3 })]

theorem witness_AcceptedRecordBecomesEvent :
    (∀ b ∈ [ingress (msiSrc true 0), ingress (msiSrc true 1), ingress (msiSrc true 2), ingress (msiSrc false 2)],
      tabGet 0 b.ing.credit 9 ≠ 0 ∧ b.awake = true ∧ setHas b.pwr.seq.stopped 1 = false ∧ b.inj.arm = [] ∧
      tabGet .between b.ing.frame 9 = .between ∧ b.ing.voids = [] ∧ setHas b.ecc.reqBad 0x21 = false ∧ b.ecc.envBad = [] ∧
      (b.lane 1).stall = none ∧ (b.lane 1).rx = [] ∧ (b.lane 1).hold = [] ∧ (tabGet {} b.sram.req 0x21).pmode = false ∧
      (tabGet {} b.sram.stt 65).valid = true ∧ setHas b.ecc.sttBad 65 = false ∧ b.rings.spillq.length < 64 ∧
      (decodeMsg (msi 1)).addr.toNat / 4096 = b.hctl.msiHi.toNat * 2 ^ 20 + b.hctl.msiLo.toNat / 4096) ∧
    malformed (msi 1) false false = none ∧ (decodeMsg (msi 1)).reqid = 0x21 ∧ (decodeMsg (msi 1)).vector = 1 ∧
    malformed (dataMsg 3) false false = none ∧ (decodeMsg (dataMsg 3)).channel = 3 := by decide

theorem witness_BadRecordIsDiscarded :
    malformed { beats := [0, 0, 0, 0, 0, 0, 0] } false false = some 1 ∧ msgFramed { beats := [0x00100021, 0, 0, 0, 0, 0, 0, 0], chk := [0, 0, 0, 0] } = true ∧
    malformed { beats := [0x00100021, 0, 0, 0, 0, 0, 0, 0], chk := [0, 0, 0, 0] } false false = some 2 ∧
    ({ msi 1 with vld := 255 - 1#8 <<< 3 } : MsgRec).som = 1 ∧ (msi 1).beats.length = 8 ∧ (tabGet {} (ingress []).sram.req 0x20).valid = false ∧
    (tabGet {} (ingress []).sram.req 0x22).pmode = true ∧ (decodeMsg (msi 4)).vector = 4 ∧
    (tabGet {} (ingress []).sram.stt 65).valid = false ∧
    (∀ x ∈ [ingress (msiSrc true 0), ingress [(65, { valid := true, kind := .data })]], (x.stt 65).valid = true) ∧
    (decodeMsg (msi 1 0xFEC00000)).addr.toNat / 4096 ≠ (ingress []).hctl.msiLo.toNat / 4096 := by decide

/-- The latch of line 5 full; line 5 and internal source 0x88 mapped. -/
def wired (kind : SrcKind) (edge : Bool) : Blk :=
  { up with ing := { latch := [(5, { full := true, level := true, edge := edge, time := 9 })] },
            sram := { stt := [(5, { valid := true, kind := kind, pol := true, res := true, slot := 35 }),
                              (1672, { valid := true, kind := .internal, res := true, slot := 1672 })] } }

theorem witness_WiredAndInternalEvents :
    (∀ b ∈ [wired .edge true, wired .edge false, wired .level false], b.awake = true ∧ b.inj.arm = [] ∧
      true ≠ setHas b.ing.level 5 ∧ tabGet 0 b.ing.sync 5 = 0#5 ∧ (b.stt 5).valid = true ∧ (b.stt 5).res = true ∧ (b.stt 5).env.envv = false ∧
      (b.lane 12).stall = none ∧ (b.lane 12).hold = [] ∧ b.latchOrder 0 = [5] ∧
      (b.stt 1672).valid = true ∧ (b.stt 1672).res = true ∧ (b.lane 24).stall = none ∧ (b.lane 24).hold = []) ∧
    (wired .edge true).pwr.seq.stopped = [] ∧ (wired .edge true).latchOrder 0 = [5] ∧
    ({ wired .edge true with sram := {} }).latchOrder 0 = [5] := by decide

/-- One event of source 5 in the holding register of bank 3. -/
def held (kind : EventKind) (exc : Bool := false) : Event :=
  { stt := 5, mapgen := 1, gen := 3, kind := kind, time := 77, exc := exc, pl := { ns := 1, samples := [9] } }
def arriving (t : Stt) (e : Entry) (ev : Event) (q : Nat := 1) : Blk := src t e { up with ing := { lanes := [(q, { hold := [(3, ev)] })] } }

theorem witness_ArrivalUpdatesEntry :
    (∀ x ∈ [(arriving { sttEntry with clause := {} } { gen := 3 } (held .arrival)),
            (arriving { sttEntry with clause := {} } { gen := 3, act := true } (held .arrival)),
            (arriving sttEntry { gen := 3, held := 14 } (held .arrival)), (arriving sttEntry { gen := 3, held := 15 } (held .arrival)),
            (arriving { sttEntry with kind := .level } { gen := 3, act := true } (held (.level true))),
            (arriving { sttEntry with kind := .level } { gen := 3, pend := true } (held (.level false)))],
      x.awake = true ∧ (∀ p < 25, p ≠ 1 → (x.lane p).hold = []) ∧ (x.lane 1).stall = none ∧ (x.lane 1).rx = [] ∧
      (x.lane 1).hold.length = 1 ∧ (x.cl 0).regs.st = .enabled ∧ (x.cl 0).queue = [] ∧ (x.cl 0).regs.offline = [] ∧
      (x.dom 2).gen = 3 ∧ (x.entry sttEntry).gen = 3 ∧ x.ecc = {}) ∧
    ({ sttEntry with clause := {} } : Stt).kind ≠ .level ∧ sttEntry.clause.cv = true := by decide
theorem witness_ArrivalUpdatesEntry_slot (e : Entry) (ev : Event) : (arriving sttEntry e ev).AtSlot 5 sttEntry :=
  src_at e sttEntry ⟨rfl, rfl, rfl, rfl⟩ _ ⟨rfl, rfl, rfl⟩ rfl

/-- Source 40 spilled, an arrival of it at the head of the queue. -/
def spilled (lines : List CLine) : Blk :=
  { up with sram := { stt := [(40, { valid := true, mapgen := 2, domid := 1, rank := { cls := 1, prio := 9 } })],
                      doms := [(1, { st := .live, gen := 6 })] },
            hctl := { sstLo := 0x00008001 }, lc := { en := true, st := .enabled, lines := lines },
            rings := { spillq := [{ stt := 40, mapgen := 2, kind := .event { stt := 40, mapgen := 2, gen := 6 } }],
                       spillBits := [40, 50] } }
/-- The line of the Spill State Table with the entry of source 40, active. -/
def sstOf40 : CLine := { line := 0x205, data := (encodeEntry { act := true, gen := 6 }).setWidth 512 }

theorem witness_SpillPathServesHead :
    (∀ b ∈ [spilled [sstOf40], spilled []], b.awake = true ∧ setHas b.pwr.seq.stopped 28 = false ∧ b.inj.arm = [] ∧
      b.rings.spillw = [] ∧ (tabGet {} b.sram.stt 40).valid = true ∧ (b.dom 1).gen = 6 ∧ b.rank.offers = [] ∧
      b.lc.st = .enabled ∧ b.lc.bufs = [] ∧ b.lc.fills = [] ∧ b.fp.out = [] ∧ b.ecc = {} ∧ (b.dom 1).still = false ∧
      b.preparedSlot 40 = none ∧ (tabGet {} b.sram.stt 40).kind ≠ .level ∧ (tabGet {} b.sram.stt 40).clause.cv = false ∧
      (b.hctl.sstHi.toNat * 2 ^ 32 + b.hctl.sstLo.toNat / 4096 * 4096 + 8 * 40) / 64 = 0x205) ∧
    (decodeEntry (lineDword sstOf40.data 0)).act = true ∧ (decodeEntry (lineDword sstOf40.data 0)).dlv = false ∧
    (decodeEntry (lineDword sstOf40.data 0)).gen = 6 := by decide

/-! ## Ranking and routes -/

/-- A table that holds `x` at every place of `l`. -/
theorem tab_all {α : Type} (d x : α) (l : List Nat) (j : Nat) :
    tabGet d (l.map (fun k => (k, x))) j = if j ∈ l then x else d := by
  induction l with
  | nil => rfl
  | cons a l ih =>
    by_cases h : a = j
    · subst h; simp [tabGet]
    · simp [tabGet, h, ih, Ne.symm h]

/-- Source 65 of domain 1, its route entry 7, its offer in register 3, context 2 of the domain on physical context 70. -/
def offSt (rv : Bool) (cls : BitVec 2) : Stt :=
  { valid := true, mapgen := 4, domid := 1, vintid := 0x99, res := true, slot := 19, rank := { cls := cls, prio := 0x40 },
    route := { rv := rv, ridx := 7 } }
def off (gen : BitVec 8) : Offer :=
  { stt := 65, mapgen := 4, gen := gen, rclass := 3, rprio := 0x55, dem := false, rtv := false, rtgt := 0, stamp := 3 }
def offBlk (gen : BitVec 8) (rv : Bool) (cls : BitVec 2) (valid : Bool) (link : LState) (period : BitVec 16) (run : Bool)
    (handles : Tab Handle := []) : Blk :=
  { up with sram := { stt := [(65, offSt rv cls)], doms := [(1, { st := .live, gen := 6, sh := { vbase := 100, cmcount := 3 } })],
                      vct := [(102, { run := run, pctx := 70 })] },
            links := [(1, { st := link, handles := handles })],
            rank := { offers := [(3, off gen)], geysers := [(5, { period := period })],
                      copy0 := { routes := [(7, { valid := valid, domid := 1, target := 2, gch := 5 })] } } }
theorem witness_OfferOutcomes (gen : BitVec 8) (rv valid run : Bool) (cls : BitVec 2) (link : LState) (period : BitVec 16)
    (handles : Tab Handle) : (offBlk gen rv cls valid link period run handles).Offers 3 (off gen) (offSt rv cls) :=
  ⟨rfl, rfl, rfl, rfl, ⟨rfl, rfl, rfl⟩, rfl, rfl⟩
theorem witness_OfferOutcomes_clauses :
    (let b := offBlk 6 true 0 true .up 9 true
     (off 5).gen ≠ (b.dom 1).gen ∧ (off 6).gen = (b.dom 1).gen ∧ (b.liveRoute 7).valid = true ∧ (b.liveRoute 7).kind = 0 ∧
     setHas b.ecc.routeBad 7 = false ∧ (b.rankKey (off 6) (offSt true 0)).1 = 0 ∧ (b.rankKey (off 6) (offSt true 3)).1 = 3 ∧
     (tabGet {} b.rank.geysers 5).period ≠ 0 ∧ (off 6).geyser = false ∧ (tabGet {} b.sram.vct 102).run = true ∧
     (tabGet {} b.links 1).st = .up ∧ (tabGet {} b.links 1).outq = []) ∧
    ((offBlk 6 true 0 false .up 0 true).liveRoute 7).valid = false ∧
    (tabGet {} (offBlk 6 true 3 true .quiesced 0 true).links 1).st ≠ .up ∧
    (tabGet {} (offBlk 6 true 3 true .up 0 false).sram.vct 102).run = false := by decide
theorem witness_OfferOutcomes_last_handle :
    let l : Link := { st := .up, handles := (List.range 1023).map (fun k => (k, { st := .standing })) }
    (l.handle 1023).st = .free ∧ ∀ j < 1023, (l.handle j).st ≠ .free := by
  refine ⟨by simp [Link.handle, tab_all], fun j hj => ?_⟩
  simp [Link.handle, tab_all, hj]

/-- An offer of a source of domain 0 to a group of three contexts after whose pointer the next is `9`, or the first. -/
def robinBlk (ptr : Nat) : Blk :=
  { up with sram := { stt := [(65, { offSt true 2 with domid := 0 })], doms := [(0, { st := .live })] },
            links := [(0, { st := .up }), (1, { st := .up })],
            rank := { offers := [(16, off 0)], rot := [(2047, ptr)],
                      copy0 := { routes := [(7, { valid := true, kind := 2, group := 2047, gch := 5 })],
                                 groups := [(2047, { members := [3, 9, 70] })] } } }
theorem witness_RoundRobinTurnsPointer (ptr : Nat) :
    (robinBlk ptr).Offers 16 (off 0) { offSt true 2 with domid := 0 } := ⟨rfl, rfl, rfl, rfl, ⟨rfl, rfl, rfl⟩, rfl, rfl⟩
theorem witness_RoundRobinTurnsPointer_clauses :
    (let b := robinBlk 3
     (off 0).gen = (b.dom 0).gen ∧ (b.liveRoute 7).kind = 2 ∧ (b.liveRoute 7).group = 2047 ∧ b.sram.vct = [] ∧
     (∀ m ∈ [3, 9, 70], (b.link (m / 64)).st = .up ∧ (b.link (m / 64)).outq.length < 64) ∧
     (b.rankKey (off 0) (offSt true 2)).1 ≠ 0) ∧
    [3, 9, 70].Pairwise (· < ·) ∧ (3 < 9 ∧ ∀ m ∈ [3, 9, 70], 3 < m → 9 ≤ m) ∧
    (∀ m ∈ [3, 9, 70], m ≤ 70) ∧ ∀ m ∈ [3, 9, 70], 3 ≤ m := by decide

/-- A re-offer request of MAPGEN `g` for source 5, whose entry is `e`. -/
def reoffer (g : BitVec 8) (e : Entry) : Blk :=
  src sttEntry e { up with rank := { reoffers := [{ stt := 5, mapgen := g, kind := .reoffer .parked 3 }] } }
theorem witness_ReoffersAndRescans (g : BitVec 8) (e : Entry) : (reoffer g e).AtSlot 5 sttEntry :=
  ⟨rfl, ⟨rfl, rfl⟩, rfl, ⟨rfl, rfl, rfl⟩, by simp [reoffer, src], rfl, rfl⟩
/-- Sources of the first and the last word parked and posted, both rescans at position `p`. -/
def rescans (p : Nat) (again : Bool) : Blk :=
  { up with rank := { parked := [0, 63, 64, 524287], posted := [5, 524224], rescan := some p, postScan := some p,
                      rescanAgain := again, postAgain := again } }
theorem witness_ReoffersAndRescans_clauses :
    (∀ b ∈ [reoffer 1 { gen := 3, pend := true, dlv := true }, reoffer 1 { gen := 3, act := true, dlv := true },
            reoffer 2 {}, rescans 0 false, rescans 524224 true, rescans 524224 false],
      b.awake = true ∧ setHas b.pwr.seq.stopped 29 = false) ∧
    ((reoffer 1 {}).hasCopies 5 1 = false ∧ (reoffer 2 {}).hasCopies 5 1 = false) ∧ (reoffer 1 {}).arb.turn5 = [] ∧ 524224 + 64 = 524288 := by decide

/-- Route 8191 and group 2047 written before the last flip and not yet resynchronised. -/
def resyncs (routes groups : NSet) : Blk :=
  { up with rank := { resync := true, epoch := true, dirtyR := routes, dirtyG := groups,
                      copy1 := { routes := [(8191, { valid := true, target := 7 })],
                                 groups := [(2047, { members := [1023] })] } } }
theorem witness_ResyncCopiesLiveToShadow :
    (∀ b ∈ [resyncs [8191] [2047], resyncs [8191] [], resyncs [] [2047]], b.awake = true ∧ b.rank.resync = true ∧ b.oldCnt = 0) ∧
    (let b := resyncs [8191] []
     { b with rings := { b.rings with spillq := [{ stt := 5, mapgen := 1, kind := .bcast (off 6) 0 false 0 0 [3] }] } : Blk }.oldCnt = 1) ∧
    (resyncs [8191] []).rank.dirtyR = 8191 :: [] ∧ (resyncs [] [2047]).rank.dirtyR = [] := by decide

/-- Channel 15 with period 100 and a burst of two, three instances held by it and one by channel 0. -/
def geyserBlk (resume : Option Nat) (tb : Dword := 99500) : Blk :=
  { up with time := { tb := tb, valid := true },
            rank := { geyserBits := [(4, some 15), (5, some 0), (9, some 15), (11, some 15)],
                      geysers := [(15, { period := 100, burst := 1, phase := 99, cfgW := 0x10064, phaseW := 99, resume := resume })] } }
theorem witness_GeyserFiringTakesBurst :
    ∀ x ∈ [(geyserBlk none 199000, true), (geyserBlk (some 4) 99000, true), (geyserBlk none 98999, false), (geyserBlk none 99500, false)],
      let b := x.1
      let g := tabGet {} b.rank.geysers 15
      b.awake = true ∧ b.pwr.seq.seq = .none ∧ g.cfgW = BitVec.ofNat 32 (g.period.toNat + 2 ^ 16 * g.burst.toNat) ∧
      g.phaseW = g.phase.setWidth 32 ∧ g.phase.toNat < g.period.toNat ∧ b.time.valid = true ∧
      (b.rank.geyserBits.map (·.1)).Pairwise (· < ·) ∧
      ((b.time.tb.toNat / 1000 + g.period.toNat - g.phase.toNat) % g.period.toNat = 0 ∧
        6 * (b.time.tb.toNat % 1000) + b.time.sixths < b.clk.period ↔ x.2 = true) := by decide

/-! ## Tile Links -/

/-- Link 15 of a populated tile whose context 63 is populated, with its Tile Agent. -/
def linkBlk (l : Link) (a : Agent) (hclk : Nat := 0) : Blk :=
  { up with time := { hclk := hclk }, links := [(15, { l with clkOn := true, pop := true })], tas := [(15, a)], hctl := { ctxPop := [1023], tilePop := [15] } }
def toTile (l : Link) (a : Agent) (r : Word24) : Blk := linkBlk { l with e := { l.e with wire := [mkFlit a.e.rxExp r 0 0] } } a
def toHub (l : Link) (a : Agent) (r : Word24) : Blk := linkBlk l { a with e := { a.e with wire := [mkFlit l.e.rxExp r 0 0] } }
/-- Conditions of a link that runs. -/
def runsIf (l : Link) (a : Agent) : Prop :=
  (l.st = .up ∨ l.st = .training ∨ l.st = .retrain ∨ l.st = .quiescing) ∧ l.ph ≠ .pausing ∧ a.inReset = false
theorem linkBlk_runs {l : Link} {a : Agent} (h : runsIf l a) : (linkBlk l a).LinkRuns 15 := by
  obtain ⟨h1, h2, h3⟩ := h
  refine ⟨by decide, rfl, ?_, h2, rfl, h3⟩
  rcases h1 with h | h | h | h <;> simp [Blk.link, linkBlk, tabGet, Link.driven, h]
theorem toTile_at {l : Link} {a : Agent} (r : Word24) (h : runsIf l a) (hi : a.e.inbox = []) : (toTile l a r).ToTile 15 r [] :=
  { linkBlk_runs (l := { l with e := { l.e with wire := [mkFlit a.e.rxExp r 0 0] } }) (a := a) h with inbox := hi, wire := rfl }
theorem toHub_at {l : Link} {a : Agent} (r : Word24) (h : runsIf l a) (hi : l.e.inbox = []) : (toHub l a r).ToHub 15 r [] :=
  { linkBlk_runs (l := l) (a := { a with e := { a.e with wire := [mkFlit l.e.rxExp r 0 0] } }) h with inbox := hi, wire := rfl }

def cand (h : Nat) (key : Word24) : Cand := { shared := false, ctx := 63, handle := h, intid := 0x99, key := key, qkey := key }
/-- Link 15 UP with these records and candidates, its next slot reserved. -/
def slotLink (ctl : List Word24) (outq : List Cand) (e : LinkEnd := {}) : Link :=
  { st := .up, live := 2, ctl := ctl, outq := outq, handles := [(1023, { st := .queued })], e := e }
theorem witness_SlotCarriesFirstOfWhatExists (ctl : List Word24) (outq : List Cand) (e : LinkEnd) :
    (linkBlk (slotLink ctl outq e) {}).LinkRuns 15 := linkBlk_runs ⟨.inl rfl, nofun, rfl⟩
theorem witness_SlotCarriesFirstOfWhatExists_replay :
    (slotLink [] [] { resend := [⟨7, mkFlit 7 0 0 0, 0⟩] }).e.resend = ⟨7, mkFlit 7 0 0 0, 0⟩ :: [] := rfl
theorem witness_SlotCarriesFirstOfWhatExists_clauses :
    (slotLink [] [] { nakDue := true }).e.nakDue = true ∧
    (let b := linkBlk (slotLink [1, 2, 3, 4] [cand 1023 0xC00001]) {} 3
     b.time.hclk % 4 = 3 ∧ setHas b.time.filled 15 = false ∧ (b.slotTable 15).getLsbD ((b.time.hclk / 4 + 1) % 64) = true ∧ keyClass (cand 1023 0xC00001).qkey = 3 ∧
     ((b.link 15).handle 1023).prox = none) ∧
    keyClass (cand 1023 0x800001).qkey ≠ 3 ∧ (slotLink [] []).e.nakDue = false ∧ (linkBlk {} {}).time.hclk % 4 ≠ 3 ∧
    recType (recHC 4 1023 63) = 4 := by decide

def copy (h : Nat) (key : Word24) (shared : Bool := false) : Copy := { shared := shared, handle := h, intid := 0x99, key := key }
/-- Link 15 UP with this flit on its way to a tile whose context 63 holds copies of keys 9, 9, 5 and 4. -/
def flitBlk (f : Flit) (wait : Bool := false) : Blk :=
  linkBlk { st := .up, e := { wire := [f] } }
    { ctxs := [(63, { ready := [copy 1 9, copy 2 9, copy 3 5, copy 4 4] })], e := { nakWait := wait } }
theorem witness_CandidateFlitAtTileAgent (f : Flit) (wait : Bool) :
    (flitBlk f wait).LinkRuns 15 ∧ ((flitBlk f wait).ta 15).e.inbox = [] := ⟨linkBlk_runs ⟨.inl rfl, nofun, rfl⟩, rfl⟩
theorem witness_CandidateFlitAtTileAgent_clauses :
    (∀ x ∈ [copy 1 9, copy 2 9], (copy 1023 9).key ≤ x.key) ∧ (∀ x ∈ [copy 3 5, copy 4 4], x.key < (copy 1023 9).key) ∧
    (recType 0x100400 = 1 ∧ bits (0x100400 : Word24).toNat 13 10 ≠ 0) ∧
    recType 0x202000 = 2 ∧ bits (0x202000 : Word24).toNat 13 10 ≠ 0 := by decide
theorem witness_CandidateFlitAtTileAgent_error (b1 b2 : Word24) :
    let f := mkFlit 0 0x1FC3FF b1 b2
    let err : BitVec 96 := 0x1000000000000000000
    f.isCand = true ∧ crc24 0 (f.b0 ^^^ err.extractLsb' 0 24) (f.b1 ^^^ err.extractLsb' 24 24) (f.b2 ^^^ err.extractLsb' 48 24) ≠
      f.crc ^^^ err.extractLsb' 72 24 := by
  refine ⟨by simp [Flit.isCand, mkFlit]; decide, fun h => ?_⟩
  simp [mkFlit] at h
  have := congrArg (crc24 0 0x1FC3FF b1 b2 ^^^ ·) h
  simp at this

/-- An end that has sent flits 254, 255 and 0 and comes to 1, of which a replay from `last` began. -/
def sentEnd (last : Option (BitVec 8 × Nat)) : LinkEnd :=
  { txSeq := 1, replay := [⟨254, mkFlit 254 1 0 0, 0⟩, ⟨255, mkFlit 255 2 0 0, 0⟩, ⟨0, mkFlit 0 3 0 0, 0⟩], lastReplay := last, nakWait := true }
theorem witness_NakStartsReplay (q : BitVec 8) (last : Option (BitVec 8 × Nat)) :
    (toHub { st := .up, e := sentEnd last } {} (rec24 6 q.toNat)).ToHub 15 (rec24 6 q.toNat) [] ∧
    (toTile { st := .up } { e := sentEnd last } (rec24 6 q.toNat)).ToTile 15 (rec24 6 q.toNat) [] ∧
    (linkBlk { st := .up, e := sentEnd last } { e := sentEnd last }).LinkRuns 15 :=
  ⟨toHub_at _ ⟨.inl rfl, nofun, rfl⟩ rfl, toTile_at _ ⟨.inl rfl, nofun, rfl⟩ rfl, linkBlk_runs ⟨.inl rfl, nofun, rfl⟩⟩
theorem witness_NakStartsReplay_clauses :
    (1 = (sentEnd none).txSeq ∧ (sentEnd (some (255, 0))).lastReplay = some (255, 0) ∧ up.time.since 0 < 128 ∧
      (sentEnd none).nakWait = true ∧ ({ up.time with hclk := 128 } : Time).since 0 = 128) ∧
    (sentEnd none).replay = [⟨254, mkFlit 254 1 0 0, 0⟩] ++ ⟨255, mkFlit 255 2 0 0, 0⟩ :: [⟨0, mkFlit 0 3 0 0, 0⟩] ∧
    (∀ z ∈ [Sent.mk 254 (mkFlit 254 1 0 0) 0], z.seq ≠ 255) ∧
    (∀ z ∈ (sentEnd none).replay, up.time.since z.time ≤ 260) ∧ 260 < ({ up.time with frames := 1, hclk := 5 } : Time).since 0 ∧
    (∀ z ∈ (sentEnd none).replay, z.seq ≠ 200) ∧ (mkFlit 0 0 0 0).isIdle = true ∧ (mkFlit 0 1 0 0).isIdle = false :=
  ⟨⟨rfl, rfl, by decide, rfl, by decide⟩, rfl, by simp, by simp [sentEnd]; decide, by decide, by simp [sentEnd], by decide, by decide⟩

/-- Handle 1023 of link 15 in this state naming source 5 with this entry; a record on its way to the Hub. -/
def named (hs : HState) (t : Stt) (e : Entry) (r : Word24) (shr : Bool := false) : Blk :=
  src t e (toHub { st := .up, handles := [(1023, { st := hs, stt := 5, mapgen := 1, gen := 3, shr := shr })] } {} r)
theorem named_at (hs : HState) (t : Stt) (e : Entry) (r : Word24) (shr : Bool) : (named hs t e r shr).ToHub 15 r [] :=
  let h := toHub_at (l := { st := .up, handles := [(1023, { st := hs, stt := 5, mapgen := 1, gen := 3, shr := shr })] }) (a := {}) r
    ⟨.inl rfl, nofun, rfl⟩ rfl
  { link := h.link, awake := h.awake, driven := h.driven, steady := h.steady, noInject := h.noInject, tile := h.tile,
    inbox := rfl, wire := h.wire }
theorem single_at {b : Blk} {n h : Nat} (h1 : ((b.link n).handle h).ans = none) (h2 : b.rings = {}) (h3 : b.ecc = {}) : b.Single n h :=
  { unanswered := h1, unspilled := by simp [h2], sound := by simp [Blk.lostHandle, h3, setHas] }
theorem names_at (hs : HState) (t : Stt) (e : Entry) (r : Word24)
    (h : t.valid = true ∧ t.res = true ∧ t.slot = 3 ∧ t.domid = 2 ∧ t.mapgen = 1) : (named hs t e r).Names 15 1023 hs t := by
  obtain ⟨h1, h2, h3, h4, h5⟩ := h
  exact ⟨single_at rfl rfl rfl, ⟨rfl, rfl, rfl⟩, src_at e t ⟨h1, h2, h3, h4⟩ _ ⟨rfl, rfl, rfl⟩ rfl, ⟨h5.symm, by rw [h4]; rfl⟩⟩
theorem witness_ExclusiveNotices (k : SrcKind) (e : Entry) :
    (named .standing { sttEntry with kind := k } e (recHC 3 1023 0)).Names 15 1023 .standing { sttEntry with kind := k } ∧
    (named .standing { sttEntry with kind := k } e (recHC 4 1023 63)).Names 15 1023 .standing { sttEntry with kind := k } ∧
    (named .active { sttEntry with kind := k } e (recHC 7 1023 63)).Names 15 1023 .active { sttEntry with kind := k } ∧
    ∀ hs r, ((named hs { sttEntry with kind := k } e r).link 15).st = .up :=
  ⟨names_at _ _ _ _ ⟨rfl, rfl, rfl, rfl, rfl⟩, names_at _ _ _ _ ⟨rfl, rfl, rfl, rfl, rfl⟩,
    names_at _ _ _ _ ⟨rfl, rfl, rfl, rfl, rfl⟩, fun _ _ => rfl⟩

/-- A claim request of handle 1023 of a shared instance whose other copy stands on link 3. -/
def sharedBlk (e : Entry) (won : Bool) : Blk :=
  let b := named .standing sttEntry e (recHC 5 1023 63) true
  { b with links := (3, { st := .up, handles := [(4, { st := .standing, stt := 5, mapgen := 1, gen := 3, shr := true })] }) :: b.links,
           rank := { bcast := [(255, { stt := 5, mapgen := 1, gen := 3, tiles := [3, 15], won := won })] } }
theorem witness_SharedClaimRequests (e : Entry) (won : Bool) :
    (sharedBlk e won).ToHub 15 (recHC 5 1023 63) [] ∧ (sharedBlk e won).Single 15 1023 ∧ (sharedBlk e won).AtSlot 5 sttEntry := by
  have h := named_at .standing sttEntry e (recHC 5 1023 63) true
  refine ⟨{ link := h.link, awake := h.awake, driven := ?_, steady := ?_, noInject := h.noInject, tile := h.tile,
            inbox := rfl, wire := ?_ },
    single_at rfl rfl rfl, ⟨rfl, ⟨rfl, rfl⟩, rfl, ⟨rfl, rfl, rfl⟩, by simp [sharedBlk], rfl, rfl⟩⟩
  · exact h.driven
  · exact h.steady
  · exact h.wire
/-- A claim read held on handle 1023 at context 63, other copies waiting there. -/
def heldAgent (ready : List Copy) : Agent := { ctxs := [(63, { ready := ready, held := some (copy 1023 7 true) })] }
theorem witness_SharedClaimRequests_clauses :
    (∀ e ∈ [({ pend := true, dlv := true } : Entry), { act := true }],
      let b := sharedBlk e false
      b.trackOf 5 1 3 = some (255, { stt := 5, mapgen := 1, gen := 3, tiles := [3, 15], won := false }) ∧
      (∃ k ∈ [3, 15], k ≠ 15) ∧ ((b.link 15).handle 1023).shr = true ∧
      ∀ k < 16, k ≠ 15 → ∀ z ∈ (b.link k).copiesOf 5 1, z.2.st = .standing ∧ (b.link k).handle z.1 = z.2) ∧
    ((sharedBlk {} true).link 3).copiesOf 5 1 = [(4, { st := .standing, stt := 5, mapgen := 1, gen := 3, shr := true })] ∧
    (let a := heldAgent [copy 1023 7 true, copy 2 0xC00000]
     a.heldOn 1023 = [63] ∧ ({ a.ctx 63 with ready := without 1023 (a.ctx 63).ready, held := none } : Ctx).claimReady = some (copy 2 0xC00000)) ∧
    ({ (heldAgent []).ctx 63 with ready := [], held := none } : Ctx).claimReady = none := by decide
theorem witness_SharedClaimRequests_tile (ready : List Copy) (r : Word24) :
    (toTile { st := .up } (heldAgent ready) r).ToTile 15 r [] ∧ (heldAgent ready).Quiet :=
  ⟨toTile_at _ ⟨.inl rfl, nofun, rfl⟩ rfl, by simp [Agent.Quiet, heldAgent]⟩

/-- Two copies of handle 1023 and one of handle 2 at a tile, one INTID active. -/
def tileLists : Agent :=
  { ctxs := [(0, { ready := [copy 1023 9], stack := [copy 5 8] }), (63, { ready := [copy 2 9, copy 1023 3], pf := 4 })] }
theorem witness_RecordsAtTheTileAgent (ready : List Copy) (r : Word24) :
    (toTile { st := .up } tileLists r).ToTile 15 r [] ∧ (toTile { st := .retrain } tileLists r).ToTile 15 r [] ∧
    (toTile { st := .up } (heldAgent ready) r).ToTile 15 r [] ∧ tileLists.Quiet :=
  ⟨toTile_at _ ⟨.inl rfl, nofun, rfl⟩ rfl, toTile_at _ ⟨.inr (.inr (.inl rfl)), nofun, rfl⟩ rfl,
    toTile_at _ ⟨.inl rfl, nofun, rfl⟩ rfl, by simp [Agent.Quiet, tileLists]⟩
theorem witness_RecordsAtTheTileAgent_clauses :
    tileLists.heldOn 1023 = [] ∧ tileLists.hasCopy 1023 = true ∧ tileLists.hasCopy 7 = false ∧
    ((heldAgent []).ctx 63).held = some (copy 1023 7 true) ∧ ∀ x ∈ tileLists.ctxs, x.2.held = none := by decide

/-- Link 15 in training with its Tile Agent's lists, in this phase, with these handles and reports. -/
def trainBlk (ph : LPhase) (tab : Bool) (tries : Nat) : Blk := linkBlk { st := .training, ph := ph, hasTab := tab, tries := tries } tileLists
def rsyncBlk (hs : Option HState) (reports : List (Nat × Nat × Bool)) (r : Word24) : Blk :=
  src sttEntry { act := true, dlv := true, gen := 3 }
    (toHub { st := .retrain, ph := .asked, hasTab := true, reports := reports,
             handles := match hs with | none => [] | some x => [(1023, { st := x, stt := 5, mapgen := 1, gen := 3 })] } {} r)
theorem witness_TrainingBringsLinkUp (ph : LPhase) (tab : Bool) (tries : Nat) (hs : Option HState) (rs : List (Nat × Nat × Bool))
    (hp : ph ≠ .pausing) (r : Word24) :
    (trainBlk ph tab tries).LinkRuns 15 ∧ (rsyncBlk hs rs r).LinkRuns 15 ∧ (rsyncBlk hs rs r).ToHub 15 r [] ∧
    (toTile { st := .training } (heldAgent []) r).ToTile 15 r [] := by
  have h := toHub_at (l := { st := .retrain, ph := .asked, hasTab := true, reports := rs, handles := match hs with
      | none => [] | some x => [(1023, { st := x, stt := 5, mapgen := 1, gen := 3 })] }) (a := {}) r ⟨.inr (.inr (.inl rfl)), nofun, rfl⟩ rfl
  exact ⟨linkBlk_runs ⟨.inr (.inl rfl), hp, rfl⟩, ⟨h.link, h.awake, h.driven, h.steady, h.noInject, h.tile⟩,
    ⟨⟨h.link, h.awake, h.driven, h.steady, h.noInject, h.tile⟩, rfl, h.wire⟩, toTile_at _ ⟨.inr (.inl rfl), nofun, rfl⟩ rfl⟩
theorem witness_TrainingBringsLinkUp_names (rs : List (Nat × Nat × Bool)) (r : Word24) :
    (rsyncBlk (some .standing) rs r).Names 15 1023 .standing sttEntry ∧
    (src sttEntry { act := true, dlv := true, gen := 3 } (linkBlk { st := .up, handles := [(1023, { st := .standing, stt := 5, mapgen := 1, gen := 3 })] }
      tileLists)).Names 15 1023 .standing sttEntry :=
  ⟨⟨single_at rfl rfl rfl, ⟨rfl, rfl, rfl⟩, src_at _ _ ⟨rfl, rfl, rfl, rfl⟩ _ ⟨rfl, rfl, rfl⟩ rfl, ⟨rfl, rfl⟩⟩,
   ⟨single_at rfl rfl rfl, ⟨rfl, rfl, rfl⟩, src_at _ _ ⟨rfl, rfl, rfl, rfl⟩ _ ⟨rfl, rfl, rfl⟩ rfl, ⟨rfl, rfl⟩⟩⟩
theorem witness_TrainingBringsLinkUp_clauses :
    (∀ act, HState.standing = (if act then HState.active else .standing) ↔ act = false) ∧ (2 < 3 ∧ 3 = 3) ∧
    ((trainBlk .idling false 3).link 15).tries = 3 ∧
    ((rsyncBlk (some .standing) [] 0).entry sttEntry).act = true ∧ ((rsyncBlk none [] 0).link 15).ph = .asked ∧
    (∀ ph ∈ [LPhase.idling, .aligned], ((trainBlk ph true 0).link 15).ph = ph) ∧ tileLists.Quiet ∧ (heldAgent []).Quiet := by
  refine ⟨?_, ?_, rfl, rfl, rfl, ?_, ?_, ?_⟩ <;> first | decide | (simp [Agent.Quiet, tileLists, heldAgent])

/-- A CRITICAL instance of domain 0 parked for context 1023, whose link is QUIESCED. -/
def wakingBlk : Blk :=
  { linkBlk { st := .quiesced, wakeEn := true, waking := true } { wake := true } with
    rank := { parked := [5], copy0 := { routes := [(7, { valid := true, target := 1023 })] } },
    sram := { stt := [(5, { valid := true, rank := { cls := 3 }, res := true, slot := 3, route := { rv := true, ridx := 7 } })],
              doms := [(0, { st := .live })], slots := [(3, { entry := { pend := true, rclass := 3 }, owner := 5 })] } }
theorem witness_PauseQuiesceWake :
    (let b := linkBlk { st := .up, ph := .pausing } { e := { wire := [mkFlit 0 (rec24 8 0) 0 0] } }
     b.awake = true ∧ (b.link 15).driven = true ∧ (b.ta 15).inReset = false ∧ b.inj.arm = [] ∧ (b.ta 15).upq = [] ∧
     (b.ta 15).e.resend = [] ∧ (b.link 15).ctl = [] ∧ (b.link 15).outq = [] ∧ (b.link 15).e.resend = [] ∧ (b.link 15).e.inbox = []) ∧
    (let b := wakingBlk
     b.criticalWaits [] 15 = true ∧ (b.link 15).st = .quiesced ∧ (b.link 15).wakeEn = true ∧ (b.link 15).waking = true ∧ b.awake = true ∧
     b.pwr.seq.seq = .none ∧ b.pwr.seq.offReq = false ∧ (b.ta 15).wake = true ∧ (b.link 15).pop = true) ∧
    (({ pop := true } : Link).clkOn = false ∧ ({ pop := true } : Link).st = .down) ∧ ({ inReset := true } : Agent).inReset = true := by
  decide
theorem witness_PauseQuiesceWake_qack (sv : Bool) :
    (let b := linkBlk { st := .up, ph := .pausing } { e := { wire := [mkFlit 0 (rec24 8 0) 0 0] } }
     (b.ta 15).e.wire = mkFlit (b.link 15).e.rxExp (rec24 8 0) 0 0 :: []) ∧
    (toHub { st := .quiescing, service := sv } {} (rec24 9 0)).ToHub 15 (rec24 9 0) [] :=
  ⟨rfl, toHub_at _ ⟨.inr (.inr (.inr rfl)), nofun, rfl⟩ rfl⟩

/-- Context 63 of tile 15 with this Ready List and this active stack. -/
def claimBlk (ready stack : List Copy) : Blk := linkBlk { st := .up } { ctxs := [(63, { ready := ready, stack := stack, pf := 0x20 })] }
theorem witness_ClaimReadTakesHighestCopy :
    (let b := claimBlk [copy 1 0x800000, copy 2 0x810000 true] []
     (b.ta 15).inReset = false ∧ ((b.ta 15).ctx 63).held = none ∧ ((b.ta 15).ctx 63).waiting = [] ∧ (b.ta 15).hold = false ∧
     max 0x20 0 ≤ keyLevel (copy 1 0x800000).key ∧ keyLevel (copy 1 0x004000).key < 0x20) ∧
    (let x := (claimBlk [copy 1 0x800000] ((List.range 8).map (fun k => copy k 0))).ta 15 |>.ctx 63
     8 ≤ x.stack.length ∧ ∀ y ∈ x.ready, keyLevel y.key < 0x401) ∧
    (let x := (claimBlk [copy 1 0x800000, copy 2 0x810000 true] [copy 3 0x804000]).ta 15 |>.ctx 63
     x.ready = [copy 1 0x800000] ++ copy 2 0x810000 true :: [] ∧
     (∀ y ∈ [copy 1 0x800000], keyLevel y.key < max 0x20 (keyLevel (copy 3 0x804000).key + 1)) ∧
     max 0x20 (keyLevel (copy 3 0x804000).key + 1) ≤ keyLevel (copy 2 0x810000 true).key) := by decide

theorem witness_CompletionsAndFloors :
    (let b := claimBlk [] [{ copy 1 9 with intid := 7 }, copy 1023 5]
     (b.ta 15).inReset = false ∧ ((b.ta 15).ctx 63).held = none ∧ ((b.ta 15).ctx 63).waiting = [] ∧ (b.ta 15).hold = false ∧
     ((b.ta 15).ctx 63).stack = [{ copy 1 9 with intid := 7 }] ++ copy 1023 5 :: [] ∧
     (∀ y ∈ [{ copy 1 9 with intid := 7 }], y.intid ≠ (copy 1023 5).intid) ∧ (copy 1023 5).intid ≠ 0xFFFFFF ∧
     ∀ y ∈ ((b.ta 15).ctx 63).stack, y.intid.setWidth 32 ≠ (0xFF000099 : Word)) ∧
    ((0x800 ≤ 0xFFF ∧ 0xFFF < 0x1000 ∧ 0xFFF % 4 ≠ 0) ∧ (4095 % 4 ≠ 0)) := by decide
theorem witness_CompletionsAndFloors_hub (r : Word24) : (toHub { st := .up } {} r).ToHub 15 r [] :=
  toHub_at r ⟨.inl rfl, nofun, rfl⟩ rfl

/-! ## Clause Engines: dispatch and closing -/

/-- The run's record with this class and domain. -/
def rec' (dcls : BitVec 2) (domid : Nat := 2) (seq : BitVec 8 := 7) : Dispatch :=
  { disp with dcls := dcls, domid := domid, pl := { disp.pl with seq := seq } }
def clBlk (x : Cluster) : Blk := { up with cls := [(15, x)] }
/-- Engines 0 and 1 busy, 2 to 15 idle. -/
def busy2 : Tab Engine := [(0, { st := .running run }), (1, { st := .closing { d := disp, acts := {} } false })]
theorem witness_RunStartsOnLowestIdleEngine :
    (let x : Cluster := { queue := [rec' 1, rec' 2, rec' 3], engines := busy2, rerun := [(2, rec' 0)] }
     (clBlk x).awake = true ∧ setHas (clBlk x).dbg.haltCl 15 = false ∧ (clBlk x).injHit 19 15 = false ∧
     ((clBlk x).cl 15).Free 3 ∧ (3 ≠ 2) ∧ ∀ j < 3, j = 2 ∨ ¬ ((clBlk x).cl 15).Free j) ∧
    (let x : Cluster := { queue := [rec' 1, rec' 2, rec' 3], engines := busy2 }
     x.queue = [rec' 1, rec' 2] ++ rec' 3 :: [] ∧ (∀ y ∈ x.queue, y.rank.ord = false) ∧ x.Free 2 ∧ (∀ j < 2, ¬ x.Free j) ∧
     ∀ y ∈ [rec' 1, rec' 2], y.dcls ≠ 3) ∧
    (let x : Cluster := { queue := [rec' 1, rec' 2], engines := busy2 }
     x.queue = [rec' 1] ++ rec' 2 :: [] ∧ (∀ y ∈ [rec' 1], y.dcls ≠ 2) ∧ ∀ y ∈ x.queue, y.dcls ≠ 3) ∧
    (let x : Cluster := { queue := [rec' 1, rec' 0], engines := busy2, regs := { rsv := 14 } }
     (∀ y ∈ x.queue, y.dcls.toNat < 2 ∧ y.domid = 2) ∧
     ((List.range 16).filter (fun k => (tabGet {} x.engines k).st = .idle && !setHas x.regs.offline k)).length = 14) := by
  simp only [Cluster.Free]; decide

/-- Engine 15 of cluster 15 at the closing of a run of source 5, whose entry has this HELD and PEND. -/
def closingBlk (acts : Acts) (gen : BitVec 8) (held : BitVec 4) (pend : Bool) (exc : Bool := false) : Blk :=
  src sttEntry { gen := 3, held := held, pend := pend, stamp := 1, rtgt := 9 }
    (clBlk { engines := [(15, { st := .closing { d := { disp with gen := gen, exc := exc, rank := { cls := 2 } }, acts := acts } false })] })
theorem witness_ClosingAppliesResult (acts : Acts) (gen : BitVec 8) (held : BitVec 4) (pend exc : Bool) :
    (closingBlk acts gen held pend exc).AtSlot 5 sttEntry ∧ ((closingBlk acts gen held pend exc).entry sttEntry).act = false ∧
    ((closingBlk acts gen held pend exc).entry sttEntry).dlv = false ∧ (closingBlk acts gen held pend exc).awake = true ∧
    (tabGet {} ((closingBlk acts gen held pend exc).cl 15).engines 15).st =
      .closing { d := { disp with gen := gen, exc := exc, rank := { cls := 2 } }, acts := acts } false ∧
    ((closingBlk acts gen held pend exc).dom 2).gen = 3 ∧
    (closingBlk acts gen held pend exc).rank.reoffers = [] :=
  ⟨src_at _ _ ⟨rfl, rfl, rfl, rfl⟩ _ ⟨rfl, rfl, rfl⟩ rfl, rfl, rfl, rfl, rfl, rfl, rfl⟩

/-- Engine 15 running, after `wd` an earlier expiry, 14 engines out of service. -/
def wdBlk (wd again cap : Bool) : Blk :=
  clBlk { engines := [(15, { st := .running { run with again := again }, wd := wd })], queue := [rec' 1],
          regs := { offline := List.range 14, fcap := { valid := cap } } }
theorem witness_WatchdogRevokesEngine (wd again cap : Bool) :
    (wdBlk wd again cap).awake = true ∧ setHas (wdBlk wd again cap).dbg.haltCl 15 = false ∧
    (tabGet {} ((wdBlk wd again cap).cl 15).engines 15).st = .running { run with again := again } ∧
    (setAdd ((wdBlk wd again cap).cl 15).regs.offline 15).length < 16 := ⟨rfl, rfl, rfl, show (setAdd (List.range 14) 15).length < 16 by decide⟩

/-- Timer 1023 of cluster 15 falls due; its owner's entry is `e`, its cluster's queue full but for one place. -/
def timerBlk (t : Stt) (e : Entry) : Blk :=
  src t e { clBlk { att := [(1023, disp.att)], queue := (List.range 47).map (fun _ => rec' 1) } with
            tim := { armed := [(16383, 12)], tick := 12 } }
def timerStt (cv : Bool) (cls : BitVec 2) : Stt := { sttEntry with clause := if cv then { cv := true, clus := 15, aidx := 1023 } else {}, rank := { cls := cls } }
theorem witness_SourceTimerExpiryDispatches (cv : Bool) (cls : BitVec 2) (e : Entry) :
    (timerBlk (timerStt cv cls) e).AtSlot (tabGet {} ((timerBlk (timerStt cv cls) e).cl 15).att 1023).owner (timerStt cv cls) :=
  src_at _ _ ⟨rfl, rfl, rfl, rfl⟩ _ ⟨rfl, rfl, rfl⟩ rfl
theorem witness_SourceTimerExpiryDispatches_clauses :
    (∀ e ∈ [({ defr := true, held := 14, dlv := true, gen := 3 } : Entry), { act := true, gen := 3 }, { gen := 3 }],
      let b := timerBlk (timerStt true 1) e
      b.awake = true ∧ b.pwr.seq.seq = .none ∧ b.tim.waiting.find? (fun x => x.1 == 1024 * 15 + 1023) = none ∧
      b.tim.armed.find? (fun x => x.1 == 1024 * 15 + 1023) = some (16383, 12) ∧ e.held ≠ 15 ∧
      (e.act = true ∨ e.dlv = true ∨ e.defr = false ∧ e.pend = false) ∧ (b.cl 15).regs.st = .enabled ∧
      (b.cl 15).regs.offline.length < 16 ∧ (b.cl 15).queue.length < 48 ∧ b.rank.reoffers = []) ∧
    (timerStt true 1).clause = { cv := true, clus := 15, aidx := 1023 } ∧ (timerStt false 3).clause.cv = false := by decide

/-! ## Clause Engines: instructions -/

/-- One legal word for each opcode: mostly RD = G1, RA = G2 (5), RB = G3 (0xFFFFFE). -/
def clauseWords : List Word24 :=
  [word 1 (reg 1 2 0), word 2 (reg 1 0 0 + 0x3FFF), word 3 (reg 2 0 0 + 0x2AA), word 4 (reg 1 2 3), word 5 (reg 1 2 3),
   word 6 (reg 1 2 0 + 0x3FF), word 7 (reg 0 2 3), word 8 (reg 0 2 0 + 5), word 9 (reg 1 2 3), word 10 (reg 1 2 3),
   word 11 (reg 1 2 3), word 12 (reg 1 2 0 + 0x3FC), word 13 (reg 1 2 0 + 0x300), word 14 (reg 1 3 0 + 23),
   word 15 (reg 1 3 0 + 4), word 16 (reg 1 3 0 + 23), word 17 (reg 1 2 3), word 18 (reg 1 2 3), word 19 (reg 1 3 2),
   word 20 (reg 1 3 0), word 21 (reg 1 2 3), word 22 (reg 1 2 3), word 23 (reg 1 2 3), word 24 (reg 1 2 3),
   word 25 (reg 1 3 0 + 32 + 22), word 0x20 (reg 1 0 0), word 0x21 (reg 1 2 0 + 2), word 0x22 (reg 2 0 0 + 7),
   word 0x23 (reg 3 2 0 + 2), word 0x24 (reg 1 0 0 + 1), word 0x25 (reg 1 0 0 + 3), word 0x26 (reg 2 0 0 + 1),
   word 0x27 (reg 2 0 0), word 0x28 (reg 1 2 0), word 0x29 (reg 1 2 0 + 8 * 3), word 0x30 (reg 2 0 0 + 0x3FFF),
   word 0x31 (reg 2 0 0 + 2 * 512 + 0x1FF), word 0x32 (reg 3 0 0 + 0 * 512 + 0xFF),
   word 0x38 (0x10000 + 0x3000 + 0x8000 + 0xAB0 + 0x4000 + 2), word 0x39 (0x20000 + 0x4000 + 0x20 + 3), word 0x3A 0, word 0x3B 0x20000,
   word 0x3C (0x30000 + 0x5500 + 0xF0), word 0x3D (reg 2 0 0), word 0x3E 0]
theorem clauseWords_legal (w : Word24) (h : w ∈ clauseWords) :
    legalWord w = true ∧ run.steps + stepCost w ≤ run.d.att.budget := by
  simp only [clauseWords, List.mem_cons, List.not_mem_nil, or_false] at h
  rcases h with h | h | h | h | h | h | h | h | h | h | h | h | h | h | h | h | h | h | h | h | h | h | h | h | h | h | h | h | h |
    h | h | h | h | h | h | h | h | h | h | h | h | h | h | h | h <;> (subst h; decide)
/-- The clause statements' premise, for the word of each opcode. -/
theorem witness_ClauseInstructions (w : Word24) (h : w ∈ clauseWords) (bad : NSet) : (atW w run bad).blk.AtInstr 0 0 run w :=
  atW_at w bad run ⟨rfl, rfl, rfl⟩ (clauseWords_legal w h).1 (clauseWords_legal w h).2

/-- G1 and the flags after the instruction. -/
def after (w : Word24) (i : Instr) (bad : NSet := []) : Option (Word24 × Flags) :=
  match exec i (atW w run bad) with
  | .next t => match (tabGet {} (t.blk.cl 0).engines 0).st with
    | .running r => some (r.reg 1, r.f)
    | _ => none
  | _ => none
def fl (z n c v : Bool) : Flags := { z := z, n := n, c := c, v := v }

/-! Results by hand from Tables 8-4 and 8-5, with G2 = 5 and G3 = -2. -/
set_option maxRecDepth 8192

theorem test_cl_moves :
    after (word 1 (reg 1 2 0)) (.clMov 0 0) = some (5, fl false false false false) ∧
    after (word 2 (reg 1 0 0 + 0x3FFF)) (.clLdi 0 0) = some (0xFFFFFF, fl false false false false) ∧
    after (word 3 (reg 1 0 0 + 0x2AA)) (.clLuh 0 0) = some (0xAA8000, fl false false false false) := by decide
theorem test_cl_add_sub :
    after (word 4 (reg 1 2 3)) (.clAdd 0 0) = some (3, fl false false true false) ∧
    after (word 5 (reg 1 2 3)) (.clSub 0 0) = some (7, fl false false true false) ∧
    after (word 6 (reg 1 2 0 + 0x3FF)) (.clAddi 0 0) = some (4, fl false false true false) := by decide
theorem test_cl_compare :
    after (word 7 (reg 0 2 3)) (.clCmp 0 0) = some (0, fl false false true false) ∧
    after (word 8 (reg 0 2 0 + 5)) (.clCmpi 0 0) = some (0, fl true false false false) ∧
    after (word 0x26 (reg 2 0 0 + 1)) (.clCmpt 0 0) = some (0, fl false true true false) := by decide
theorem test_cl_logic :
    after (word 9 (reg 1 2 3)) (.clAnd 0 0) = some (4, fl false false false false) ∧
    after (word 10 (reg 1 2 3)) (.clOr 0 0) = some (0xFFFFFF, fl false true false false) ∧
    after (word 11 (reg 1 2 3)) (.clXor 0 0) = some (0xFFFFFB, fl false true false false) := by decide
theorem test_cl_logic_immediate :
    after (word 12 (reg 1 2 0 + 0x3FC)) (.clAndi 0 0) = some (4, fl false false false false) ∧
    after (word 13 (reg 1 2 0 + 0x300)) (.clOri 0 0) = some (0x305, fl false false false false) ∧
    after (word 25 (reg 1 3 0 + 32 + 22)) (.clExtu 0 0) = some (0x7FFFFF, fl false false false false) := by decide
theorem test_cl_shifts :
    after (word 14 (reg 1 3 0 + 23)) (.clShl 0 0) = some (0, fl true false true false) ∧
    after (word 15 (reg 1 3 0 + 4)) (.clShr 0 0) = some (0x0FFFFF, fl false false true false) ∧
    after (word 16 (reg 1 3 0 + 23)) (.clSar 0 0) = some (0xFFFFFF, fl false true true false) := by decide
theorem test_cl_multiply_divide :
    after (word 17 (reg 1 2 3)) (.clMulu 0 0) = some (0xFFFFF6, fl false true true false) ∧
    after (word 18 (reg 1 2 3)) (.clMuls 0 0) = some (0xFFFFF6, fl false true false false) ∧
    after (word 19 (reg 1 3 2)) (.clDivu 0 0) = some (3355442, fl false false false false) := by decide
theorem test_cl_order :
    after (word 20 (reg 1 3 0)) (.clAbs 0 0) = some (2, fl false false false false) ∧
    after (word 21 (reg 1 2 3)) (.clMins 0 0) = some (0xFFFFFE, fl false true false false) ∧
    after (word 22 (reg 1 2 3)) (.clMaxs 0 0) = some (5, fl false false false false) := by decide
theorem test_cl_order_unsigned :
    after (word 23 (reg 1 2 3)) (.clMinu 0 0) = some (5, fl false false false false) ∧
    after (word 24 (reg 1 2 3)) (.clMaxu 0 0) = some (0xFFFFFE, fl false true false false) := by decide
theorem test_cl_loads :
    after (word 0x20 (reg 1 0 0)) (.clLdh 0 0) = some (7, fl false false false false) ∧
    after (word 0x21 (reg 1 2 0 + 2)) (.clLdhx 0 0) = some (0, fl true false false false) ∧
    after (word 0x24 (reg 1 0 0 + 1)) (.clLdt 0 0) = some (6, fl false false false false) ∧
    after (word 0x25 (reg 1 0 0 + 3)) (.clLdtx 0 0) = some (0, fl true false false false) := by decide

theorem test_cl_atomic :
    after (word 0x27 (reg 1 0 0)) (.clXchh 0 0) = some (7, fl false false false false) ∧
    after (word 0x28 (reg 1 2 0)) (.clAddh 0 0) = some (7, fl false false false false) ∧
    after (word 0x29 (reg 1 2 0 + 8 * 3)) (.clBand 0 0) = some (3, fl false false false false) := by decide

/-- The next address of the run and the data store word at 107. -/
def afterPc (w : Word24) (i : Instr) : Option (BitVec 13 × Word24) :=
  match exec i (atW w run) with
  | .next t => match (tabGet {} (t.blk.cl 0).engines 0).st with
    | .running r => some (r.pc, tabGet 0 (t.blk.cl 0).data 107)
    | _ => none
  | _ => none
theorem test_cl_stores :
    afterPc (word 0x22 (reg 2 0 0 + 7)) (.clSth 0 0) = some (17, 5) ∧
    afterPc (word 0x23 (reg 3 2 0 + 2)) (.clSthx 0 0) = some (17, 0xFFFFFE) := by decide
theorem test_cl_branches :
    afterPc (word 0x30 (reg 2 0 0 + 0x3FFF)) (.clB 0 0) = some (16, 0) ∧
    afterPc (word 0x30 (reg 1 0 0 + 0x3FFF)) (.clB 0 0) = some (17, 0) ∧
    afterPc (word 0x31 (reg 2 0 0 + 2 * 512 + 0x1FF)) (.clBbs 0 0) = some (16, 0) ∧
    afterPc (word 0x32 (reg 3 0 0 + 0xFF)) (.clBbc 0 0) = some (272, 0) := by decide

/-- Where clauses of the statements meet: the last offset of a window and the first outside, a poisoned word, a limit. -/
theorem witness_ClauseDataStore_clauses :
    (off12 (word 0x20 (reg 1 0 0 + 7)) = 7 ∧ off12 (word 0x20 (reg 1 0 0 + 8)) = 8 ∧ run.d.att.hlen = 8 ∧ run.d.att.tlen = 4) ∧
    (setHas ((atW (word 0x27 (reg 2 0 0 + 7)) run [107]).blk.cl 0).dataBad (100 + 7) = true) ∧
    (∀ j < 4, (run.reg 0).toNat + j < 4) ∧ (∃ j < 5, 4 ≤ (run.reg 0).toNat + j) ∧ (run.reg 0 = 0 ∧ run.reg 3 ≠ 0) := by decide
theorem witness_ClauseActionsAndEnd_clauses :
    (let r := { run with acts := { result := some .suppress, logs := List.replicate 4 { code := 0, words := [] } } }
     r.acts.result ≠ none ∧ 4 ≤ r.acts.logs.length) ∧ run.acts.result = none ∧ run.d.att.ten = true ∧
    { disp.att with ten := false }.ten = false := by decide
/-- The same at a run that has recorded a result and four LOGs, or whose attachment has no timer. -/
theorem witness_ClauseActionsAndEnd (w : Word24) (h : w ∈ clauseWords) (acts : Acts) (ten : Bool) :
    (atW w { run with acts := acts, d := { disp with att := { disp.att with ten := ten } } }).blk.AtInstr 0 0
      { run with acts := acts, d := { disp with att := { disp.att with ten := ten } } } w :=
  atW_at w [] _ ⟨rfl, rfl, rfl⟩ (clauseWords_legal w h).1 (clauseWords_legal w h).2

theorem witness_ClauseFetchFaults (w : Word24) (pc : BitVec 13) (steps : Nat) :
    (atW w { run with pc := pc, steps := steps }).blk.Running 0 0 { run with pc := pc, steps := steps } :=
  ⟨rfl, rfl, rfl, rfl, rfl, rfl⟩
theorem witness_ClauseFetchFaults_clauses :
    (∀ pc ∈ [15, 32], ¬ (16 ≤ (BitVec.ofNat 13 pc).toNat ∧ (BitVec.ofNat 13 pc).toNat < 16 + 16)) ∧
    (∀ pc ∈ [16, 31], 16 ≤ (BitVec.ofNat 13 pc).toNat ∧ (BitVec.ofNat 13 pc).toNat < 16 + 16) ∧
    legalWord 0 = false ∧ legalWord (word 0x3E 0) = true ∧ run.d.att.budget < 40 + stepCost (word 0x3E 0) ∧ opOf (word 0x3E 0) = 0x3E := by decide
theorem witness_ClauseInstructionFrame :
    (∃ t, exec (.clSth 0 0) (atW (word 0x22 (reg 2 0 0 + 7)) run) = .next t) ∧ (0x22, Instr.clSth 0 0) ∈ clauseTable 0 0 :=
  ⟨⟨_, rfl⟩, by decide⟩

/-! ## Descriptors -/

/-- Fields and reserved bits of a descriptor are those of its words 0 to 14. -/
theorem fields_congr (r : RingId) (n : Nat) (l l' : BitVec 512) (h : ∀ k < 15, lineWord l k = lineWord l' k) :
    Desc.fields { ring := r, seq := n, line := l } = Desc.fields { ring := r, seq := n, line := l' } ∧
    ∀ fs, Desc.reservedZero { ring := r, seq := n, line := l } fs = Desc.reservedZero { ring := r, seq := n, line := l' } fs := by
  constructor
  · unfold Desc.fields Desc.op Desc.b Desc.f Desc.w
    rw [h 0 (by omega), h 1 (by omega), h 2 (by omega)]
  · intro fs
    unfold Desc.reservedZero
    rw [Bool.eq_iff_iff]
    simp only [List.all_eq_true]
    exact forall₂_congr fun k hk => by simp only [Desc.w, h k (List.mem_range.1 hk)]

/-- Manager ring 7 at its last sequence number, the last slot and the last free place of its Completion Ring. -/
def pair7 (exec : List Exec) : Pair :=
  { cmd := { base := 0x1000, r := 0xFFFFFF }, cpl := { base := 0x8000, w := 0xFFFFFF, r := 0xFFFFC0 }, st := .enabled, exec := exec }
def ringBlk (b : Blk) (exec : List Exec := []) : Blk := { b with rings := { b.rings with mgr := [(7, pair7 exec)] } }
/-- The descriptor of these words 0 to 14 in that slot, the host memory that holds it, and its words with CHECK 0. -/
def desc (ws : List Word) : Desc := { ring := .mgr 7, seq := 0xFFFFFF, line := lineOfWords (ws ++ [entryCheck 0xFFFFFF 1 0x1FC0 ws]) }
def dmem (ws : List Word) (m : List Host.Cell := []) : List Host.Cell := memWriteLine m 0x7F (desc ws).line
def plain (ws : List Word) : Desc := { ring := .mgr 7, seq := 0xFFFFFF, line := lineOfWords ws }
def dw (w0 w1 w2 w3 w4 w5 w6 w7 : Word) : List Word := [w0, w1, w2, w3, w4, w5, w6, w7, 0, 0, 0, 0, 0, 0, 0]

theorem desc_word (ws : List Word) (hl : ws.length = 15) (k : Nat) (hk : k < 15) :
    lineWord (desc ws).line k = lineWord (plain ws).line k := by
  rw [desc, plain, lineWord_ofWords _ _ (by omega), lineWord_ofWords _ _ (by omega)]
  rw [List.getD_append _ _ _ _ (by omega)]
/-- What the clauses below say of the words with CHECK 0 holds of the descriptor. -/
theorem desc_f (ws : List Word) (hl : ws.length = 15) (k hi lo : Nat) (hk : k < 15) : (desc ws).f k hi lo = (plain ws).f k hi lo := by
  simp only [Desc.f, Desc.w, desc_word ws hl k hk]

/-- The conditions on the words of a descriptor, decidable. -/
abbrev formed (op : Nat) (ws : List Word) : Prop :=
  ws.length = 15 ∧ (plain ws).op = op ∧ (plain ws).fields.any (plain ws).reservedZero = true
/-- Every block with ring 7 as above, nothing injected and the Line Cache off, takes a well-formed descriptor. -/
theorem takes_of {b : Blk} {op : Nat} {ws : List Word} (m : List Host.Cell)
    (hb : b.pair (.mgr 7) = pair7 [] ∧ b.awake = true ∧ b.pwr.seq.stopped = [] ∧ b.inj.arm = [] ∧ b.lc.st = .disabled ∧
      b.lc.bufs = [] ∧ b.fp = {} ∧ b.ops = {} ∧ ∀ l ∈ b.lc.lines, l.held = false)
    (h : formed op ws) : b.Takes (dmem ws m) 7 op (desc ws) := by
  obtain ⟨h1, h2, h3, h4, h5, h5', h6, h7, h8⟩ := hb
  obtain ⟨hl, ho, hf⟩ := h
  have hw := desc_word ws hl
  have hc := fields_congr (.mgr 7) 0xFFFFFF (desc ws).line (plain ws).line hw
  have hat : b.descAt (dmem ws m) (.mgr 7) = desc ws := by
    simp [Blk.descAt, h1, pair7, Blk.hostLine, h5', h6, dmem, memLine_write, desc]
  obtain ⟨fs, g1, g2⟩ := (Option.any_eq_true _ _).1 hf
  refine { awake := h2, client := by simp [h3, setHas], enabled := by rw [h1]; rfl, live := nofun, waits := by rw [h1]; decide,
           room := by rw [h1]; decide, idle := by rw [h1]; rfl, noInject := h4, noCache := h5, noHeld := h8, noBufs := h5', noWrites := by simp [h6],
           noRecs := by rw [h6], noFail := by rw [h6],
           noSpill := by rw [h7]; rfl, at' := hat, sound := ?_, code := ?_, formed := ⟨fs, hc.1.trans g1, (hc.2 fs).trans g2⟩ }
  · simp only [Blk.Sealed, show (desc ws).ring = .mgr 7 from rfl, h1]
    have : (List.range 15).map (lineWord (desc ws).line) = ws := by
      refine List.ext_getElem (by simp [hl]) fun k g1 g2 => ?_
      simp at g1
      rw [List.getElem_map, List.getElem_range, hw k g1, plain, lineWord_ofWords _ _ (by omega)]
      simp [g2]
    rw [this, desc, lineWord_ofWords _ _ (by omega)]
    simp [hl, pair7]
  · simpa only [Desc.op, Desc.f, Desc.w, hw 0 (by omega)] using ho

/-- A line of host memory beside the descriptor reads as written. -/
theorem host_line (b : Blk) (hb : b.lc.bufs = [] ∧ b.fp = {}) (ws : List Word) (m : List Host.Cell) (L : Nat) (d : BitVec 512) (h : L ≠ 0x7F) :
    b.hostLine (dmem ws (memWriteLine m L d)) L = d := by
  simp [Blk.hostLine, hb.1, hb.2, dmem, memLine_write_ne _ _ _ _ h, memLine_write]

set_option maxRecDepth 100000
/-- The same pair as the Guest Ring of domain 5. -/
def guestBlk : Blk := { up with sram := { doms := [(5, { st := .live, pair := pair7 [] })] } }
theorem witness_DescriptorsAreExamined :
    (ringBlk up).Fetches (.mgr 7) ∧ guestBlk.Fetches (.guest 5) ∧
    (ringBlk up).Takes (dmem (dw 0x00550013 0 0 0 0 0 0 0)) 7 0x13 (desc (dw 0x00550013 0 0 0 0 0 0 0)) :=
  ⟨(takes_of (b := ringBlk up) (ws := dw 0x00550013 0 0 0 0 0 0 0) (op := 0x13) [] ⟨rfl, rfl, rfl, rfl, rfl, rfl, rfl, rfl, nofun⟩ (by decide +kernel)).toFetches,
    ⟨⟨rfl, rfl, nofun, rfl, nofun, rfl, rfl⟩, rfl, rfl, rfl, by rintro g h; cases h; rfl, nofun, by decide +kernel, rfl, rfl⟩,
    takes_of [] ⟨rfl, rfl, rfl, rfl, rfl, rfl, rfl, rfl, nofun⟩ (by decide +kernel)⟩
theorem witness_DescriptorsAreExamined_clauses :
    (let d := (ringBlk up).descAt [] (.mgr 7)
     entryCheck d.seq 1 0x1FC0 ((List.range 15).map (lineWord d.line)) ≠ lineWord d.line 15) ∧
    (∀ op ∈ [0, 0x0C, 0x0F, 0x3A, 0xFF], op = 0 ∨ 0x0B < op ∧ op < 0x10 ∨ 0x39 < op) ∧
    (let d := guestBlk.descAt (dmem (dw 0x00550001 0 0 0 0 0 0 0)) (.guest 5)
     entryCheck d.seq 1 0x1FC0 ((List.range 15).map (lineWord d.line)) = lineWord d.line 15 ∧ d.op = 1) ∧
    (let d := desc (dw 0x00550102 0 0 0 0 0 0 0)
     d.op = 2 ∧ ∀ fs ∈ d.fields, d.reservedZero fs = false) := by decide +kernel

/-- Source 2000 of domain 1 with a Spill State Table, in slot 1800 or spilled. -/
def mapBlk (res : Bool) (kind : SrcKind := .data) (cls : BitVec 2 := 0) : Blk :=
  ringBlk { up with hctl := { sstLo := 0x80000001 },
                    sram := { stt := [(2000, { valid := true, kind := kind, mapgen := 4, domid := 1, vintid := 0x999, res := res,
                                               slot := if res then 1800 else 0, rank := { cls := cls } })],
                              slots := if res then [(1800, { entry := { used := true, gen := 6 }, owner := 2000 })] else [],
                              doms := [(1, { st := .live, gen := 6, sh := { rshare := 1, cmcount := 3 } })] } }
/-- The descriptors of the clauses: the last message index, the first one, the last line, KIND 5, a requester whose blocks
fill the table, an unmapping, one of an index that is not mapped, and both moves. -/
def mapDescs : List (Bool × Nat × List Word) :=
  [(true, 1, dw 0x00550001 0 0x0007FFFF 1 0xFFFFFE 0 0 0), (true, 1, dw 0x00550001 0 0x00100700 1 0xB00 0 0 0),
   (true, 1, dw 0x00550001 0 0x012005FF 0 0x9FF 0 0 0), (true, 1, dw 0x00550001 0 0x00500000 0 0 0 0 0),
   (true, 1, dw 0x00550001 1 0xFF03FFFF 0 2048 524287 0 0), (true, 2, dw 0x00550002 0 2000 0 0 0 0 0),
   (true, 2, dw 0x00550002 0 2001 0 0 0 0 0), (false, 9, dw 0x00550009 0 (2000 + 0x100000) 1792 0 0 0 0),
   (true, 9, dw 0x00550009 0 2000 0 0 0 0 0)]
theorem witness_SourcesAreMappedAndMoved (x : Bool × Nat × List Word) (h : x ∈ mapDescs) :
    (mapBlk x.1).Takes (dmem x.2.2) 7 x.2.1 (desc x.2.2) :=
  takes_of [] ⟨rfl, rfl, rfl, rfl, rfl, rfl, rfl, rfl, nofun⟩ ((by decide +kernel : ∀ x ∈ mapDescs, formed x.2.1 x.2.2) x h)
theorem witness_SourcesAreMappedAndMoved_clauses :
    (∀ res, (mapBlk res).rings.session = none ∧ (mapBlk res).classesLive = false ∧ (mapBlk res).lc.bufs = [] ∧ (mapBlk res).ops.busy = false) ∧
    (let b := mapBlk true
     let d := plain (dw 0x00550001 0 0x0007FFFF 1 0xFFFFFE 0 0 0)
     d.b 1 0 = false ∧ d.f 2 22 20 ≤ 1 ∧ d.f 2 18 0 = 524287 ∧ (b.dom (d.f 3 11 0)).st ≠ .absent ∧ d.f 4 23 0 = 0xFFFFFE ∧
     (∀ x ∈ b.mapped, ¬ (x.2.domid = d.f 3 11 0 ∧ x.2.vintid = BitVec.ofNat 24 (d.f 4 23 0))) ∧ b.sstEn = true ∧
     (b.stt 524287).valid = false) ∧
    (let d := plain (dw 0x00550001 0 0x012005FF 0 0x9FF 0 0 0)
     d.f 2 22 20 = 2 ∧ d.f 2 18 0 = 1535 ∧ d.f 3 11 0 = 0 ∧ d.f 4 23 0 = 0x400 + 1535) ∧
    5 ≤ (plain (dw 0x00550001 0 0x00500000 0 0 0 0 0)).f 2 22 20 ∧
    (let d := plain (dw 0x00550001 1 0xFF03FFFF 0 2048 524287 0 0)
     d.b 1 0 = true ∧ d.f 3 18 0 + (d.f 2 31 24 + 1) * d.f 4 16 0 = 524288 ∧ d.f 5 18 0 + (d.f 2 31 24 + 1) * d.f 6 16 0 ≤ 524288) ∧
    (((mapBlk true).slot 1800).entry.act = false ∧ (mapBlk true).hasCopies 2000 4 = false ∧ ((mapBlk true).stt 2001).valid = false) ∧
    ((mapBlk false).slot 1792).entry.used = false ∧ (mapBlk false).shareUsed 1 < ((mapBlk false).dom 1).sh.rshare ∧
    ((mapBlk true).stt 2000).rank.cls < 2 ∧ setHas (mapBlk true).ecc.entryBad 1800 = false := by decide +kernel

def setDescs : List (Nat × List Word) :=
  [(4, dw 0x00550004 0 2000 0x13FD 0 0 0 0), (4, dw 0x00550004 0 2000 3 0 0 0 0), (4, dw 0x00550004 0 5 1 0 0 0 0),
   (5, dw 0x00550005 0 0x3FFF 0xFFFFFF 0xFFFF 7 11 0), (5, dw 0x00550005 0 0 1 1 7 15 0), (5, dw 0x00550005 1 (2000 + 0x100000) 0x3FFF 0 0 0 0),
   (10, dw 0x0055000A 0 0x03FF000F 9 0 0 0 0), (10, dw 0x0055000A 0 0x03FF000F 0 0 0 0 0), (8, dw 0x00550008 0 15 0x80000001 0x80000000 0 0 0)]
def setBlk (ten : Bool) (kind : SrcKind) : Blk :=
  { mapBlk true kind with links := [(15, { pop := true })], cls := [(15, { att := [(1023, { ten := ten, tmin := 10 })] })],
                          tim := { tick := 4, armed := [(16383, 100)] } }
theorem witness_ClassesEnvelopesTimers (x : Nat × List Word) (h : x ∈ setDescs) :
    (setBlk true .data).Takes (dmem x.2) 7 x.1 (desc x.2) ∧ (setBlk false .internal).Takes (dmem x.2) 7 x.1 (desc x.2) :=
  ⟨takes_of [] ⟨rfl, rfl, rfl, rfl, rfl, rfl, rfl, rfl, nofun⟩ ((by decide +kernel : ∀ x ∈ setDescs, formed x.1 x.2) x h),
   takes_of [] ⟨rfl, rfl, rfl, rfl, rfl, rfl, rfl, rfl, nofun⟩ ((by decide +kernel : ∀ x ∈ setDescs, formed x.1 x.2) x h)⟩
/-- A slot table of link 15 written, its descriptor executing until the frame boundary. -/
def slotExec : Exec := { seq := 0xFFFFFE, line := (plain (dw 0x00550008 0 15 1 0 0 0 0)).line, wait := .slotLive 15 }
def slotBlk : Blk := ringBlk { up with links := [(15, { pop := true, shad := 0x8000000080000001, shadDue := true })] } [slotExec]
theorem witness_ClassesEnvelopesTimers_writes : slotBlk.Writes := ⟨rfl, rfl, nofun, rfl, nofun, rfl, rfl⟩
theorem witness_ClassesEnvelopesTimers_clauses :
    (∀ k ∈ [SrcKind.data, .internal], (setBlk true k).rings.session = none ∧ (setBlk true k).classesLive = false ∧
      ((setBlk true k).stt 2000).kind = k ∧ ((setBlk true k).stt 5).valid = false) ∧
    (plain (dw 0x00550004 0 2000 0x13FD 0 0 0 0)).f 3 1 0 = 1 ∧ (plain (dw 0x00550004 0 2000 3 0 0 0 0)).f 3 1 0 = 3 ∧
    (let d := plain (dw 0x00550005 0 0x3FFF 0xFFFFFF 0xFFFF 7 11 0)
     d.b 1 0 = false ∧ d.f 3 23 0 ≠ 0 ∧ d.f 4 15 0 ≠ 0 ∧ d.f 6 3 0 < 12) ∧
    ((plain (dw 0x00550005 0 0 1 1 7 15 0)).f 6 3 0 = 15 ∧ (plain (dw 0x00550005 1 (2000 + 0x100000) 0x3FFF 0 0 0 0)).b 1 0 = true) ∧
    ((setBlk true .data).link ((plain (dw 0x00550008 0 15 0x80000001 0x80000000 0 0 0)).f 2 3 0)).pop = true ∧
    (slotBlk.awake = true ∧ slotBlk.ops.prog.spilling = false ∧ slotBlk.time.hclk = 0 ∧
     slotBlk.allExec = [(.mgr 7, slotExec)] ∧ (slotBlk.pair (.mgr 7)).exec = [slotExec] ∧ slotExec.wait = .slotLive 15 ∧
     (slotBlk.link 15).shadDue = true) := by decide +kernel

/-- Route 8191 and group 2047 of domain 1, a region in cluster 15, source 2000. -/
def routeBlk : Blk :=
  { mapBlk true with rank := { copy1 := { groups := [(2047, { domid := 1 })] }, copy0 := { routes := [(8191, { domid := 1 })] } },
                     cls := [(15, { regions := [(63, { valid := true, pbase := 16, plen := 16 })], data := [(4095, 7)] })] }
/-- A fixed route, a group route, a group, a route attached, a program attached and detached, a program loaded. -/
def maskLine : BitVec 512 := 5
def groupDesc : List Word :=
  dw 0x00550003 1 2047 1 0x4000 0 (seededCrc (2047 + 5 * 2 ^ 24) (bits 0x4000 36 5) (lineBytes maskLine 0 16 ++ lineBytes 0 0 16)) 0
def attachDesc : List Word :=
  [0x00550007, 0, 2000 + 0x0F100000, 1023 + 0x1F0000, 63 + 0x2800, 4088 + 0x80000, 4094 + 0x20000, 77, 2000, 0, 1, 0, 0, 0, 0]
def routeDescs : List (Nat × List Word) :=
  [(3, dw 0x00550003 0 0x00011FFF 0x000F0001 2 0 0 0), (3, dw 0x00550003 0 0x00011FFF 0x000F1001 0x07FF0000 0 0 0), (3, groupDesc),
   (3, dw 0x00550003 2 (2000 + 0x100000) 8191 0 0 0 0), (7, attachDesc), (7, dw 0x00550007 0 2000 0 0 0 0 0), (6, dw 0x00550006 0 15 0x4000 0 0 0 0)]
theorem witness_RoutesAndPrograms (m : List Host.Cell) (x : Nat × List Word) (h : x ∈ routeDescs) :
    routeBlk.Takes (dmem x.2 m) 7 x.1 (desc x.2) :=
  takes_of m ⟨rfl, rfl, rfl, rfl, rfl, rfl, rfl, rfl, nofun⟩ ((by decide +kernel : ∀ x ∈ routeDescs, formed x.1 x.2) x h)
/-- A program image of two words for region 63, at 4095 of the data store. -/
def imgHead63 (check : Word) : ImgHead := { region := 63, pbase := 8191, plen := 1, dlen := 1, dbase := 4095, check := check }
def imgWords (check : Word) : List Word := [0x01C1A05E, 0x1FFF003F, 0x10001, 0xFFF, check, 0, 0, 0, 0xF80000, 0xABCDEF, 0, 0, 0, 0, 0, 0]
def image : BitVec 512 := lineOfWords (imgWords (imgCheck 15 (imgHead63 0) (imgWords 0)))
theorem witness_RoutesAndPrograms_lines :
    routeBlk.hostLine (dmem groupDesc (memWriteLine [] 0x100 maskLine)) 0x100 = maskLine ∧
    routeBlk.hostLine (dmem (dw 0x00550006 0 15 0x4000 0 0 0 0) (memWriteLine [] 0x100 image)) 0x100 = image :=
  ⟨host_line _ ⟨rfl, rfl⟩ _ _ _ _ (by decide), host_line _ ⟨rfl, rfl⟩ _ _ _ _ (by decide)⟩
theorem witness_RoutesAndPrograms_clauses :
    (let b := routeBlk
     b.rings.session = none ∧ b.classesLive = false ∧ b.rank.resync = false ∧ b.oldCnt = 0 ∧ b.rank.dirtyR = [] ∧ b.rank.dirtyG = [] ∧
     b.nctxOf 1 = 3 ∧ (b.rank.copy1.group 2047).domid = 1 ∧ (b.liveRoute 8191).domid = (b.stt 2000).domid) ∧
    ((plain (dw 0x00550003 0 0x00011FFF 0x000F0001 2 0 0 0)).f 4 9 0 = 2 ∧
     (plain (dw 0x00550003 0 0x00011FFF 0x000F1001 0x07FF0000 0 0 0)).f 4 26 16 = 2047) ∧
    (let mask := lineBytes maskLine 0 16 ++ lineBytes 0 0 16
     (List.range 1024).filter (fun v => (mask.getD (v / 8) 0).getLsbD (v % 8)) = [0, 2] ∧
     ((plain groupDesc).w 5 * 2 ^ 32 + (plain groupDesc).w 4) / 64 = 0x100) ∧
    (let a := (plain attachDesc).attach
     let g := tabGet {} (routeBlk.cl 15).regions a.region
     (plain attachDesc).b 2 20 = true ∧ (plain attachDesc).b 2 21 = false ∧ (plain attachDesc).f 2 27 24 = 15 ∧ a.budget ≠ 0 ∧
     a.hbase + a.hlen = 4096 ∧ a.tbase + a.tlen = 4096 ∧ a.tmin ≠ 0 ∧ g.valid = true ∧ g.pbase ≤ a.paddr.toNat ∧
     a.paddr.toNat + 1 = g.pbase + g.plen ∧ a.ten = false) ∧
    (imgHead image = some (imgHead63 (lineWord image 4)) ∧ (plain (dw 0x00550006 0 15 0x4000 0 0 0 0)).lineAt 3 = 0x100 ∧
     imgCheck 15 (imgHead63 (lineWord image 4)) ((List.range 16).map (lineWord image)) = lineWord image 4 ∧
     routeBlk.regionsInUse 15 = []) := by decide +kernel

/-- Ring 7 with this session, its agent holding the Setup Lock or not. -/
def sessBlk (sess : Option Session) (held : Bool) (floor : BitVec 2 := 2) (exec : List Exec := []) : Blk :=
  { mapBlk true with rings := { mgr := [(7, pair7 exec)], session := sess }, lock := { held := held }, clk := { floor := floor, floorLive := 1 } }
def staged (l : List Staged) : Option Session := some { ring := .mgr 7, staged := l }
def stagedCls : List Staged := [.cls 2000 { cls := 1 }]
def sessDescs : List (Nat × List Word) :=
  [(0x10, dw 0x00550010 0 0 0 0 0 0 0), (4, dw 0x00550004 0 2000 0x13FF 0 0 0 0), (0x11, dw 0x00550011 0 0 0 0 0 0 0), (0x12, dw 0x00550012 0 0 0 0 0 0 0)]
theorem witness_SessionsCommitOrEnd (sess : Option Session) (held : Bool) (floor : BitVec 2) (x : Nat × List Word) (h : x ∈ sessDescs) :
    (sessBlk sess held floor).Takes (dmem x.2) 7 x.1 (desc x.2) :=
  takes_of [] ⟨rfl, rfl, rfl, rfl, rfl, rfl, rfl, rfl, nofun⟩ ((by decide +kernel : ∀ x ∈ sessDescs, formed x.1 x.2) x h)
def commitExec : Exec := { seq := 0xFFFFFE, line := (plain (dw 0x00550011 0 0 0 0 0 0 0)).line, wait := .commit {} }
theorem witness_SessionsCommitOrEnd_clauses :
    ((sessBlk none true).lock.owner = ((sessBlk none true).pair (.mgr 7)).agent ∧ (sessBlk none false).lock.held = false) ∧
    ((sessBlk (staged []) true).stt 2000).kind = .data ∧
    ((sessBlk (staged stagedCls) true).seqFree = true ∧ (sessBlk (staged stagedCls) true).lock.relPend = false ∧
     (sessBlk (staged stagedCls) true).staging.checkAdmission.code = 0 ∧
     (sessBlk (staged stagedCls) true 3).staging.checkAdmission.code ≠ 0) ∧
    (let b := sessBlk (staged stagedCls) true 2 [commitExec]
     b.allExec = [(.mgr 7, commitExec)] ∧ b.awake = true ∧ b.ops.prog.spilling = false ∧ b.dbg.haltSeq = false ∧ b.time.hclk = 0 ∧
     b.lock.relPend = false) ∧
    RingId.mgr 6 ≠ .mgr 7 := by decide +kernel

/-- Domain 1 with core messages from 2,000 on; the one of context 2 active; lines in the disabled cache. -/
def msgBlk (lines : List CLine) : Blk :=
  ringBlk { up with sram := { stt := [(2002, { valid := true, kind := .core, mapgen := 4, domid := 1, vintid := 0x999, res := true, slot := 1800 })],
                              slots := [(1800, { entry := { act := true, used := true, gen := 6 }, owner := 2002 })],
                              doms := [(1, { st := .live, gen := 6, sh := { cmbase := 2000, cmcount := 3 } })],
                              env := [(16383, { excess := 9 })] },
                    lc := { lines := lines, dropped := 255 } }
def msgDescs : List (Nat × List Word) :=
  [(0x30, dw 0x00550030 0 1 2 0 0 0 0), (0x30, dw 0x00550030 0 1 3 0 0 0 0), (0x31, dw 0x00550031 0 1 0x999 0 0 0 0),
   (0x31, dw 0x00550031 1 16383 0 0 0 0 0), (0x31, dw 0x00550031 2 1 0 0 0 0 0), (0x38, dw 0x00550038 0 0 0 0 0 0 0),
   (0x39, dw 0x00550039 0 0 0 0 0 0 0)]
theorem witness_MessagesQueriesCacheCommands (lines : List CLine) (hl : ∀ l ∈ lines, l.held = false) (x : Nat × List Word)
    (h : x ∈ msgDescs) :
    (msgBlk lines).Takes (dmem x.2) 7 x.1 (desc x.2) :=
  takes_of [] ⟨rfl, rfl, rfl, rfl, rfl, rfl, rfl, rfl, hl⟩ ((by decide +kernel : ∀ x ∈ msgDescs, formed x.1 x.2) x h)
theorem witness_MessagesQueriesCacheCommands_slot (lines : List CLine) :
    (msgBlk lines).AtSlot (((msgBlk lines).dom 1).sh.cmbase + 2) (((msgBlk lines).stt 2002)) :=
  ⟨rfl, ⟨rfl, rfl⟩, rfl, ⟨rfl, rfl, rfl⟩, nofun, rfl, rfl⟩
theorem witness_MessagesQueriesCacheCommands_clauses :
    (let b := msgBlk []
     let e := b.entry (b.stt 2002)
     (b.stt 2002).kind = .core ∧ (b.stt 2002).clause.cv = false ∧ e.dlv = false ∧ e.act = true ∧ e.gen = (b.dom 1).gen ∧
     (b.dom 1).sh.cmcount = 3 ∧ b.findSource 1 0x999 = some 2002 ∧ (b.dom 1).st = .live) ∧
    (let d := plain (dw 0x00550030 0 1 3 0 0 0 0)
     d.f 2 17 16 = 0 ∧ d.f 2 19 18 = 0 ∧ d.f 3 25 16 = 0 ∧ d.f 4 9 0 = 0 ∧ d.f 4 25 16 = 0 ∧ d.f 3 9 0 = 3) ∧
    (let l : CLine := { line := 9, data := 5, dirty := true }
     (msgBlk [l]).lc.lines = [l] ∧ (msgBlk [l]).lc.bufs = [] ∧ (msgBlk [l]).lc.fills = [] ∧ l.held = false) := by decide +kernel

/-- Domain 1 in this state, nothing of it running; the rest absent. -/
def domBlk (st : DState) (exec : List Exec := []) (pair : RState := .disabled) : Blk :=
  ringBlk { up with sram := { doms := [(1, { st := st, gen := 255, sh := { vbase := 0, cmcount := 3 }, pair := { st := pair } })] } } exec
def ringsDesc : List Word := [0x0055000B, 1, 1 + 0xF0000, 1023, 0x2000 + 10, 1, 0x4000 + 10, 2, 0x8000 + 10, 3, 0, 0, 0, 0, 0]
def domDescs : List (Nat × List Word) :=
  [(0xB, dw 0x0055000B 0 (4095 + 0x10000) 7 9 0x0101 0x7FC00 1024), (0xB, dw 0x0055000B 0 1 7 9 0xFFFF 0 0), (0xB, ringsDesc),
   (0x20, dw 0x00550020 0 1 0 0 0 0 0), (0x23, dw 0x00550023 0 1 0 0 0 0 0), (0x24, dw 0x00550024 0 1 0 0 0 0 0),
   (0x20, dw 0x00550020 0 0 0 0 0 0 0), (0x21, dw 0x00550021 0 4095 0 0 9 0 0), (0x22, dw 0x00550022 0 2 0 0 0 0 0),
   (0x23, dw 0x00550023 0 2 0 0 0 0 0), (0x24, dw 0x00550024 0 0 0 0 0 0 0)]
theorem witness_DomainsAreCreatedAndFrozen (dst : DState) (p : RState) (x : Nat × List Word) (h : x ∈ domDescs) :
    (domBlk dst [] p).Takes (dmem x.2) 7 x.1 (desc x.2) :=
  takes_of [] ⟨rfl, rfl, rfl, rfl, rfl, rfl, rfl, rfl, nofun⟩ ((by decide +kernel : ∀ x ∈ domDescs, formed x.1 x.2) x h)
def freezeExec : Exec := { seq := 0xFFFFFE, line := (plain (dw 0x00550020 0 1 0 0 0 0 0)).line, wait := .freeze 1 }
theorem witness_DomainsAreCreatedAndFrozen_clauses :
    (let d := plain (dw 0x0055000B 0 (4095 + 0x10000) 7 9 0x0101 0x7FC00 1024)
     let b := domBlk .live
     d.f 1 1 0 = 0 ∧ d.f 5 7 0 ≠ 0 ∧ d.f 5 15 8 ≠ 0 ∧ d.b 2 16 = true ∧ d.f 2 11 0 = 4095 ∧ (b.dom 4095).st = .absent ∧ d.f 7 10 0 = 1024 ∧
     d.f 6 18 0 + d.f 7 10 0 = 524288 ∧ b.runFree 4095 (d.f 6 18 0) 1024 = true ∧ b.freeVct 4095 1024 = some 3) ∧
    (let d := plain (dw 0x0055000B 0 1 7 9 0xFFFF 0 0)
     d.b 2 16 = false ∧ d.f 5 7 0 ≠ 0 ∧ d.f 5 15 8 ≠ 0 ∧ d.f 6 18 0 = 0 ∧ d.f 7 10 0 = 0 ∧ ((domBlk .live).dom 1).elq.st = .disabled) ∧
    (let d := plain ringsDesc
     d.f 1 1 0 = 1 ∧ d.f 4 3 0 = 10 ∧ d.f 6 3 0 = 10 ∧ d.f 8 3 0 = 10 ∧ d.b 2 16 = true ∧ d.b 2 17 = true ∧
     ((domBlk .live).dom 1).pair.st = .disabled) ∧
    ((domBlk .live).anyRuns 1 = false ∧ (domBlk .live).federated 1 = false) ∧
    (let b := domBlk .freezing [freezeExec]
     (b.dom 1).st = .freezing ∧ b.heldOf 1 = [] ∧ b.drained 1 = true ∧ b.allExec = [(.mgr 7, freezeExec)] ∧
     (b.pair (.mgr 7)).exec = [freezeExec] ∧ b.awake = true ∧ b.inj.arm = []) ∧
    (let b := domBlk .frozen
     (b.dom 1).restored = false ∧ b.sourcesOf 1 = [] ∧ (b.dom 1).timers = [] ∧ (b.dom 1).expired = [] ∧ b.rings.frozenBits = [] ∧
     b.genInFlight 1 ((b.dom 1).gen + 1) = false ∧ b.entriesDone 1 = true ∧ (b.dom 2).st = .absent ∧ b.seqFree = true ∧
     ({ b with cls := [(0, { queue := [{ disp with domid := 1, gen := 0 }] })] } : Blk).genInFlight 1 ((b.dom 1).gen + 1) = true) ∧
    (∀ x ∈ [DState.freezing, .resetting, .restoring], ((domBlk x).dom 1).st = x) := by decide +kernel

/-- Domain 1 with context 2 of it to run on physical context 1023. -/
def vctxBlk (sw : Bool) (handles : Tab Handle) (st : DState) (exec : List Exec := []) : Blk :=
  { domBlk st exec with hctl := { ctxPop := [1023] }, links := [(15, { handles := handles })],
                        sram := { doms := [(1, { st := st, gen := 255, sh := { vbase := 0, cmcount := 3 } })],
                                  vct := if sw then [(2, { pctx := 1023, sw := true })] else [] } }
def vctxDescs : List (Nat × List Word) :=
  [(0xB, dw 0x0055000B 2 1 (2 + 0x03FF0000 + 0xC0000000) 0 0 0 0), (0x21, dw 0x00550021 0 1 0x4000 0 2 0 0),
   (0x21, dw 0x00550021 0 1 0x4000 0 1 0 0), (0x22, dw 0x00550022 0 1 0x4000 0 0 0 0)]
theorem witness_ContextsSwitchAndImagesMove (m : List Host.Cell) (hs : Tab Handle) (dst : DState) (x : Nat × List Word) (h : x ∈ vctxDescs) :
    (vctxBlk false hs dst).Takes (dmem x.2 m) 7 x.1 (desc x.2) :=
  takes_of m ⟨rfl, rfl, rfl, rfl, rfl, rfl, rfl, rfl, nofun⟩ ((by decide +kernel : ∀ x ∈ vctxDescs, formed x.1 x.2) x h)
def vctxExec : Exec := { seq := 0xFFFFFE, line := (plain (dw 0x0055000B 2 1 0xC3FF0002 0 0 0 0)).line, wait := .vctx 1 [.into 2 1023] }
/-- An image of domain 1 without records: header and domain line, its CHECK right or not. -/
def snapDom : List Word := [3, 0x0A00007F, 0x80, 9, 5, 0x20000010, 0xFFFFFF, 4, 0, 0x1000, 0x2000, 0, 0, 0, 0, 0]
def snapHead (magic : Word) : List Word := [magic, 0x0201, 2, 7, 1, 0, 0, 0, 0, 0, 0, 0, 0, 0, 0]
def snapLine (magic : Word) (ok : Bool) : BitVec 512 :=
  lineOfWords (snapHead magic ++ [if ok then snapCheck 7 2 (snapHead magic) snapDom else 0])
def snapMem (magic : Word) (ok : Bool) : List Host.Cell := memWriteLine (memWriteLine [] 0x101 (lineOfWords snapDom)) 0x100 (snapLine magic ok)
theorem witness_ContextsSwitchAndImagesMove_lines (magic : Word) (ok : Bool) (ws : List Word) :
    let b := vctxBlk false [] .frozen
    b.hostLine (dmem ws (snapMem magic ok)) 0x100 = snapLine magic ok ∧ b.hostLine (dmem ws (snapMem magic ok)) 0x101 = lineOfWords snapDom := by
  refine ⟨host_line _ ⟨rfl, rfl⟩ _ _ _ _ (by decide), ?_⟩
  simp [Blk.hostLine, vctxBlk, domBlk, ringBlk, up, dmem, snapMem, memLine_write_ne, memLine_write]
/-- RESTORE_DOMAIN waits for its second reading. -/
def secondExec : Exec :=
  { seq := 0xFFFFFE, line := (plain (dw 0x00550022 0 1 0x4000 0 0 0 0)).line,
    wait := .secondReading 1 (lineWord (snapLine 0x01D03A1C true) 15) true }
def secondBlk : Blk := vctxBlk false [] .restoring [secondExec]
theorem witness_ContextsSwitchAndImagesMove_second :
    secondBlk.Writes ∧ secondBlk.awake = true ∧ secondBlk.ops.prog.spilling = false ∧ secondBlk.dbg.haltSeq = false ∧
    secondBlk.allExec = [(.mgr 7, secondExec)] ∧ (secondBlk.pair (.mgr 7)).exec = [secondExec] ∧ secondBlk.entriesDone 1 = true ∧
    (plain (dw 0x00550022 0 1 0x4000 0 0 0 0)).op = 0x22 :=
  ⟨⟨rfl, rfl, nofun, rfl, nofun, rfl, rfl⟩, by decide +kernel⟩
theorem witness_ContextsSwitchAndImagesMove_clauses :
    (let d := plain (dw 0x0055000B 2 1 (2 + 0x03FF0000 + 0xC0000000) 0 0 0 0)
     let b := vctxBlk false [] .live
     d.f 1 1 0 = 2 ∧ d.b 3 31 = true ∧ d.b 3 30 = true ∧ d.b 4 31 = false ∧ d.f 3 9 0 = 2 ∧ d.f 3 25 16 = 1023 ∧
     b.rings.session = none ∧ b.classesLive = false ∧ (b.dom 1).sh.cmcount = 3 ∧ b.ctxPop 1023 = true ∧ b.ownerOf 1023 = 0 ∧
     b.vctx 1 2 = {} ∧ b.fed.loaded = false ∧ b.handlesAt 0 1023 = []) ∧
    (let b := vctxBlk true [] .live [vctxExec]
     b.vctx 1 2 = { run := false, pctx := 1023, sw := true } ∧ b.handlesAt 0 1023 = [] ∧ (b.pair (.mgr 7)).exec = [vctxExec] ∧
     (vctxBlk true [(1023, { st := .active, ctx := 63 })] .live [vctxExec]).handlesAt 0 1023 ≠ []) ∧
    (let b := vctxBlk false [] .frozen
     b.seqFree = true ∧ b.arb.stuck = [] ∧ (b.snapBody [] 1).length / 16 + 1 = 2 ∧
     (plain (dw 0x00550021 0 1 0x4000 0 2 0 0)).f 5 23 0 = 2 ∧ (plain (dw 0x00550021 0 1 0x4000 0 1 0 0)).f 5 23 0 = 1) ∧
    (let head := snapLine 0x01D03A1C true
     let line := lineOfWords snapDom
     let ws := (List.range 16).map (lineWord head) ++ (List.range 16).map (lineWord line)
     let bad := snapLine 0x01D03A1C false
     snapHeadOk (snapLine 0 true) = false ∧ snapHeadOk head = true ∧ (lineWord head 2).toNat = 2 ∧ (lineWord head 5).toNat = 0 ∧ (lineWord head 6).toNat = 0 ∧ (lineWord head 7).toNat = 0 ∧
     domLineOk ((List.range 16).map (lineWord line)) = true ∧ snapSound head ws = true ∧
     snapSound bad ((List.range 16).map (lineWord bad) ++ (List.range 16).map (lineWord line)) = false ∧
     (lineWord line 0).toNat = 3 ∧ bit (lineWord line 1).toNat 28 = false ∧ bit (lineWord line 3).toNat 28 = false ∧
     bit (lineWord line 5).toNat 28 = false) := by decide +kernel

/-! ## The federation -/

/-- Peer 3 of a Hub 1 of four, with a federated domain 1 of three contexts, context 2 of which is peer 3's. -/
def fedBlk (x : Peer) (hubid : Nat := 1) : Blk :=
  { up with fed := { en := true, hubid := hubid, loaded := true, members := 15, fedid := 7, digest := 9,
                     doms := [(1, { cmcount := 3, home := [(0, 1), (1, 1), (2, 3)] })], peers := [(3, x)] },
            hctl := { fwver := 5 }, time := { tb := 10000, valid := true },
            sram := { doms := [(1, { st := .live, sh := { cmcount := 3 } })], vct := [(0, { run := true, pctx := 70 })] } }
theorem fed_hears (x : Peer) (event : Bool) (seq : Nat) (h : seq = (if event then x.ev else x.ct).rx) :
    (fedBlk x).Hears 3 event seq := ⟨by decide, rfl, rfl, rfl, rfl, by rw [h]; rfl⟩
theorem witness_PeersGreetAndJoin (x : Peer) : (fedBlk x).awake = true ∧ (fedBlk x).fed.en = true ∧ (fedBlk x).fed.loaded = true ∧
    ((fedBlk { x with ct := { rx := 0xFFFFFF } }).Hears 3 false 0xFFFFFF) := ⟨rfl, rfl, rfl, fed_hears _ _ _ rfl⟩
theorem witness_PeersGreetAndJoin_clauses :
    (let f := (fedBlk {}).fed
     f.members.getLsbD 3 = true ∧ 3 ≠ f.hubid ∧ ¬ (f.members.getLsbD 1 = true ∧ 1 ≠ f.hubid) ∧ (7 = f.fedid ∧ (9 : Word) = f.digest) ∧
     ¬ (8 = f.fedid ∧ (9 : Word) = f.digest)) ∧ (0 ≠ ({} : Peer).ct.rx + 1) ∧ (({} : Peer).joined = false ∧ ({} : Peer).joining = false) ∧
    (let z : ZClass := { unacked := [(0xFFFFFF, .leave 1), (0, .leave 0), (1, .leave 0)] }
     z.unacked = [(0xFFFFFF, .leave 1)] ++ (0, .leave 0) :: [(1, .leave 0)] ∧ ∀ y ∈ [(0xFFFFFF, ZMsg.leave 1)], y.1 ≠ 0) := by decide

theorem witness_OffsetsAndViewsAreKept (x : Peer) : (fedBlk x).Hears 3 false x.ct.rx := fed_hears _ _ _ rfl
theorem witness_OffsetsAndViewsAreKept_clauses :
    (fedBlk { t1 := some 9000 }).remoteHome 1 2 = some 3 ∧ (fedBlk {}).remoteHome 1 0 = none ∧ ((fedBlk {}).vctx 1 0).run = true ∧
    ((fedBlk {}).vctx 1 0).sw = false ∧ (1, ({ cmcount := 3, home := [(0, 1), (1, 1), (2, 3)] } : FedDom)) ∈ (fedBlk {}).fed.doms ∧
    ({ t1 := some 9000 } : Peer).t1 ≠ none ∧ ({ joining := true } : Peer).joining = true ∧ ({} : Peer).t1 ≠ some 9000 ∧
    ((1000 : Word).toInt ≤ 1000 ∧ 1000 < (1001 : Word).toInt ∧ (0xFFFFFC17 : Word).toInt < -1000) := by decide

/-- Fabric source 0x21 is lock agent 15 and holds the Setup Lock. -/
def holderLock : Lock := { held := true, owner := 15, agents := [(15, { srcid := 0x21, valid := true })], lease := 1000, remain := 1 }
def withHolder (b : Blk) : Blk := { b with lock := holderLock }
theorem holderLock_agents : (∀ j < 16, (tabGet {} holderLock.agents j).valid = true → (tabGet {} holderLock.agents j).srcid = 0x21 → j = 15) ∧
    (tabGet {} holderLock.agents 15).valid = true ∧ (tabGet {} holderLock.agents 15).srcid = 0x21 ∧
    (tabGet {} holderLock.agents holderLock.owner).srcid ≠ 0x22 := by decide
theorem holder_at (b : Blk) (h : b.lock = holderLock) (hp : b.Port4) : b.Holder 0x21 15 ∧ b.NotHolder 0x22 := by
  obtain ⟨g1, g2, g3, g4⟩ := holderLock_agents
  exact ⟨⟨hp, by rw [h]; exact ⟨by decide, g2, g3⟩, by rw [h]; exact g1, by rw [h]; exact ⟨rfl, rfl⟩⟩, ⟨hp, by rw [h]; exact fun _ => g4⟩⟩

/-- Peer 3 joined, with one proxy for source 5, whose entry is `e`. -/
def proxyBlk (y : HState) (e : Entry) (x : Peer := {}) : Blk :=
  src sttEntry e { fedBlk { x with joined := true, proxies := [(1023, { st := y, stt := 5, mapgen := 1, gen := 3 })], ev := { unacked := [(1, .wdraw 1023)] } } with
                   lock := holderLock }
theorem alone_at {b : Blk} {p k : Nat} (h2 : b.rings = {}) (h3 : b.ecc = {}) : b.Alone p k :=
  ⟨by simp [h2], by simp [Blk.lostHandle, h3, setHas]⟩
theorem witness_PeersDepartAndReload (y : HState) (e : Entry) :
    (proxyBlk y e).Hears 3 false 0 ∧ (proxyBlk y e).Alone 3 1023 ∧ (proxyBlk y e).AtSlot 5 sttEntry ∧ (proxyBlk y e).Holder 0x21 15 ∧ (proxyBlk y e).NotHolder 0x22 :=
  ⟨⟨by decide, rfl, rfl, rfl, rfl, rfl⟩, alone_at rfl rfl, src_at _ _ ⟨rfl, rfl, rfl, rfl⟩ _ ⟨rfl, rfl, rfl⟩ rfl,
    holder_at _ rfl ⟨rfl, rfl, rfl⟩⟩
/-- The block image of a federation: one domain of two contexts whose home is Hub 1, or Hub 2, which is no member. -/
def fedHead (n : Word) : BitVec 512 := lineOfWords [0x01FED0A7, 0xB0007, n, 1 + 5 * n]
def fedDomLine (d : Word) : BitVec 512 := lineOfWords [d, 2]
def fedMem (n : Word) (home : BitVec 512) : List Host.Cell :=
  memWriteLine (memWriteLine (memWriteLine [] 0x102 home) 0x101 (fedDomLine 4095)) 0x100 (fedHead n)
def reloadBlk : Blk := { withHolder (fedBlk {}) with fed := { (fedBlk {}).fed with cfgLo := 0x4000 } }
theorem witness_PeersDepartAndReload_lines (n : Word) (home : BitVec 512) :
    reloadBlk.hostLine (fedMem n home) 0x100 = fedHead n ∧ reloadBlk.hostLine (fedMem n home) 0x101 = fedDomLine 4095 ∧
    reloadBlk.hostLine (fedMem n home) 0x102 = home := by
  refine ⟨?_, ?_, ?_⟩ <;>
    simp [Blk.hostLine, reloadBlk, withHolder, fedBlk, up, fedMem, memLine_write_ne, memLine_write]
theorem witness_PeersDepartAndReload_port : reloadBlk.Port4 := ⟨rfl, rfl, rfl⟩
theorem witness_PeersDepartAndReload_clauses :
    (let b := proxyBlk .active {}
     (b.peer 3).joined = true ∧ (∀ q < 4, q ≠ 3 → (b.peer q).joined = false) ∧ (b.peer 3).ev.unacked ≠ [] ∧ b.fed.en = true ∧ b.inj.arm = [] ∧
     (b.peer 3).proxies = [(1023, { st := .active, stt := 5, mapgen := 1, gen := 3 })] ∧ (b.dom 2).gen = 3) ∧
    (let b := reloadBlk
     b.inj.arm = [] ∧ b.fp.fail = [] ∧ b.fed.hubid < 4 ∧ (∀ q < 4, (b.peer q).joined = false) ∧
     b.fed.cfgHi.toNat * 2 ^ 26 + b.fed.cfgLo.toNat / 64 = 0x100) ∧
    (let w (l : BitVec 512) (k : Nat) : Nat := (lineWord l k).toNat
     (w (fedHead 1) 0 = 0x01FED0A7 ∧ w (fedHead 1) 1 < 2 ^ 20 ∧ w (fedHead 1) 2 = 1 ∧ w (fedHead 1) 3 = 1 + 5 * 1 ∧
      (∀ k, 4 ≤ k → k < 16 → w (fedHead 1) k = 0)) ∧ ¬ 1 ≤ w (fedHead 0) 2 ∧
     w (fedDomLine 4095) 0 % 4096 = 4095 ∧ w (fedDomLine 4095) 1 % 2048 = 2 ∧
     (w (fedHead 1) 1).testBit (16 + w 5 0 / 2 ^ (2 * 1) % 4) = true ∧ (w (fedHead 1) 1).testBit (16 + w 9 0 / 2 ^ (2 * 1) % 4) = false) := by
  decide +kernel

def fwdMsg : FwdMsg :=
  { stt := 9, mapgen := 1, gen := 3, domid := 1, vintid := 0x77, v := 0, cls := 3, prio := 0x40, stamp := 0, dl := 640, proxy := 1023 }
/-- A candidate forwarded to context 0 of domain 1, which runs on physical context 70, between two others. -/
def fwdBlk (st : LState) : Blk :=
  { fedBlk {} with links := [(1, { st := st, outq := [cand 0 0xC00000, cand 1 1], handles := [(0, { st := .queued }), (1, { st := .queued })] })] }
theorem witness_ForwardedCandidatesAndProxies (l : LState) (y : HState) (e : Entry) (k : SrcKind) :
    (fwdBlk l).Hears 3 true 0 ∧ (src { sttEntry with kind := k } e (proxyBlk y e)).Hears 3 true 0 ∧
    (src { sttEntry with kind := k } e (proxyBlk y e)).AtSlot 5 { sttEntry with kind := k } ∧
    (src { sttEntry with kind := k } e (proxyBlk y e)).Alone 3 1023 :=
  ⟨⟨by decide, rfl, rfl, rfl, rfl, rfl⟩, ⟨by decide, rfl, rfl, rfl, rfl, rfl⟩, src_at _ _ ⟨rfl, rfl, rfl, rfl⟩ _ ⟨rfl, rfl, rfl⟩ rfl, alone_at rfl rfl⟩
/-- Handle 1023 of link 15 bound to proxy 7 of peer 3. -/
def boundBlk (hs : HState) : Blk :=
  { fedBlk {} with links := [(15, { st := .up, outq := [cand 1023 9, cand 4 3], handles := [(1023, { st := hs, gen := 3, prox := some (3, 7) })] })] }
theorem witness_ForwardedCandidatesAndProxies_clauses :
    ((fwdBlk .up).vctx 1 0).run = true ∧ ((fwdBlk .up).vctx 1 0).sw = false ∧ ((fwdBlk .up).vctx 1 0).pctx / 64 = 1 ∧
    ((fwdBlk .up).vctx 1 1).run = false ∧
    (let l := (fwdBlk .up).link 1
     l.st = .up ∧ (l.handle 2).st = .free ∧ (∀ j < 2, (l.handle j).st ≠ .free) ∧ l.outq = [cand 0 0xC00000] ++ [cand 1 1] ∧ l.outq.length < 64 ∧
     (fwdBlk .up).admittedCtx 70 = false ∧ (1#2 ++ fwdMsg.prio ++ 0x3FFF#14 : Word24) ≤ 0xC00000 ∧ (1 : Word24) < 1#2 ++ fwdMsg.prio ++ 0#14) ∧
    (boundBlk .queued).handleOf 3 7 = some (15, 1023) ∧ (boundBlk .queued).noticeWaits 15 1023 = false ∧ (boundBlk .queued).lostHandle 15 1023 = false ∧ (boundBlk .standing).handleOf 3 7 = some (15, 1023) ∧
    (((boundBlk .standing).link 15).handle 1023).wd = false ∧ (tabGet {} ((proxyBlk .active {}).peer 3).proxies 1023).st = .active ∧
    (tabGet {} ((proxyBlk .active {}).peer 3).proxies 0).st = .free := by decide

/-! ## Rings, the Line Cache, clusters and link controls -/

/-- Domain 4095 and manager ring 7 with ring pairs of 64 entries and an Event Log Queue, their counts near the wrap. -/
def bellBlk (r : RState) (log2sz : Nat := 0) (again : Bool := false) (out : List OutW := []) : Blk :=
  let p : Pair := { pair7 [] with st := r, en := r = .enabled, again := again, cpl := { (pair7 []).cpl with log2sz := log2sz } }
  { up with rings := { up.rings with mgr := [(7, p)] }, lock := holderLock, fp := { up.fp with out := out },
            sram := { doms := [(4095, { st := .live, pair := p,
                                        elq := { ring := { base := 0x10000, w := 5, r := 0xFFFFF0 }, st := r, overflow := true, lost := 3 } })] } }
theorem witness_DoorbellsAndRingSwitches (r : RState) (z : Nat) (a : Bool) (out : List OutW) :
    (bellBlk r z a out).awake = true ∧ setHas (bellBlk r z a out).fp.badIn 5 = false ∧ (bellBlk r z a out).fp.recs = [] ∧ setHas (bellBlk r z a out).pwr.seq.stopped 28 = false ∧
    (bellBlk r z a out).Holder 0x21 15 ∧ (bellBlk r z a out).NotHolder 0x22 ∧ (bellBlk r z a out).rings.session = none ∧
    (bellBlk r z a out).allExec = [] :=
  ⟨rfl, rfl, rfl, rfl, (holder_at _ rfl ⟨rfl, rfl, rfl⟩).1, (holder_at _ rfl ⟨rfl, rfl, rfl⟩).2, rfl, rfl⟩
theorem witness_DoorbellsAndRingSwitches_clauses :
    let dist (x y : Nat) : Nat := (y + 2 ^ 24 - x % 2 ^ 24) % 2 ^ 24
    let p := (bellBlk .enabled).pair (.mgr 7)
    let q := ((bellBlk .enabled).dom 4095).elq
    (bellBlk .enabled).pair (.guest 4095) = p ∧ p.st = .enabled ∧ p.en = true ∧
    (dist p.cmd.r 63 = 2 ^ (6 + p.cmd.log2sz) ∧ dist p.cmd.r 64 = 2 ^ (6 + p.cmd.log2sz) + 1 ∧ ((0x1000000 : Word).toNat < 2 ^ 24) = False) ∧
    (dist 0xFFFFC0 p.cpl.w = dist p.cpl.r p.cpl.w ∧ dist 0xFFFFFF p.cpl.w = 0 ∧ dist p.cpl.r p.cpl.w < dist 0xFFFFBF p.cpl.w) ∧
    (q.st = .enabled ∧ dist 0xFFFFF0 q.ring.w = dist q.ring.r q.ring.w ∧ dist 5 q.ring.w = 0 ∧ dist q.ring.r q.ring.w < dist 6 q.ring.w ∧
     (0x80000005 : Word).toNat / 2 ^ 24 % 128 = 0 ∧ 2 ^ 31 ≤ (0x80000005 : Word).toNat ∧ (0x81000005 : Word).toNat / 2 ^ 24 % 128 = 1) ∧
    (let p := (bellBlk .disabled 10).pair (.mgr 7); p.cpl.log2sz ≤ 10 ∧ p.st = .disabled ∧ p.en = false) ∧
    ¬ ((bellBlk .disabled 11).pair (.mgr 7)).cpl.log2sz ≤ 10 ∧
    (let b := bellBlk .busy 0 true [{ line := 1, data := 0, kind := .completion (.mgr 7) }, { line := 2, data := 0, kind := .event 4095 }]
     (b.pair (.mgr 7)).st = .busy ∧ (b.pair (.guest 4095)).exec = [] ∧ (b.dom 4095).elq.st = .busy ∧
     (∃ w ∈ b.fp.out, w.kind = .completion (.mgr 7)) ∧ (∀ w ∈ b.fp.out, w.kind ≠ .completion (.guest 4095)) ∧
     ∀ w ∈ b.fp.out, w.kind ≠ .event 0) := by decide

/-- The Line Cache in state `r` with these lines, fills and line buffers, and these writes outstanding. -/
def lcBlk (en : Bool) (r : RState) (lines bufs : List CLine) (fills : NSet) (out : List OutW := []) (inval again : Bool := false) : Blk :=
  { up with lc := { en := en, st := r, lines := lines, bufs := bufs, fills := fills, invalSince := inval, again := again },
            fp := { up.fp with out := out }, lock := holderLock }
theorem witness_HostMemoryAndLineCache (en : Bool) (r : RState) (ls bs : List CLine) (fs : NSet) (out : List OutW) (i a : Bool) :
    let b := lcBlk en r ls bs fs out i a
    b.Holder 0x21 15 ∧ b.NotHolder 0x22 ∧ b.awake = true ∧ b.inj.arm = [] ∧ b.fp.fail = [] ∧ b.fp.recs = [] ∧ b.allExec = [] ∧
    b.rings.spillq = [] ∧ b.rings.spillw = [] ∧ b.rings.spillBits = [] ∧ b.rings.notes = [] ∧
    (b.lc.en, b.lc.st, b.lc.lines, b.lc.bufs, b.lc.fills, b.fp.out) = (en, r, ls, bs, fs, out) :=
  ⟨(holder_at _ rfl ⟨rfl, rfl, rfl⟩).1, (holder_at _ rfl ⟨rfl, rfl, rfl⟩).2, rfl, rfl, rfl, rfl, rfl, rfl, rfl, rfl, rfl, rfl⟩
/-- Manager ring 7 in a snapshot that waits so, with this write outstanding. -/
def snapOut : OutW := { line := 0x101, data := 9, kind := .snapshot }
def snapWait (w : Wait) : Blk :=
  { ringBlk up [{ seq := 0xFFFFFE, line := (plain (dw 0x00550021 0 1 0 0 0 0 0)).line, wait := w }] with fp := { up.fp with out := [snapOut] } }
theorem witness_HostMemoryAndLineCache_clauses :
    let e (w : Wait) : Exec := { seq := 0xFFFFFE, line := (plain (dw 0x00550021 0 1 0 0 0 0 0)).line, wait := w }
    (snapWait (.snapBody [0x101] 0x100 77 2)).allExec = [(.mgr 7, e (.snapBody [0x101] 0x100 77 2))] ∧
    ((snapWait (.snapHdr 0x101 2)).pair (.mgr 7)).exec = [e (.snapHdr 0x101 2)] ∧
    (snapWait (.snapHdr 0x101 2)).fp.out = [] ++ snapOut :: [] ∧ (snapWait (.snapHdr 0x101 2)).lc.st = .disabled ∧
    (let b := lcBlk true .enabled [{ line := 7, data := 1 }] [{ line := 8, data := 2 }] [5]
     setHas b.lc.fills 5 = true ∧ b.lc.st ≠ .disabled ∧ (∀ w ∈ b.fp.out, w.buf = false) ∧ (∀ l ∈ b.lc.lines, l.held = false) ∧ b.lc.lines.length < 48 ∧ b.lc.find 5 = none ∧ (∀ l ∈ b.lc.bufs, l.line ≠ 5) ∧
     b.lc.bufs = [] ++ { line := 8, data := 2 } :: [] ∧ setHas b.lc.fills 9 = false ∧ ∀ w ∈ b.fp.out, w.line ≠ 9) ∧
    (let w3 : OutW := { line := 9, data := 3, kind := .event 1, tries := 3 }
     let w0 : OutW := { line := 9, data := 3, kind := .completion (.mgr 7) }
     w3.tries = 3 ∧ w0.tries < 3 ∧ [snapOut].all (· ≠ w0) = true ∧ [w3].all (· ≠ w0) = true ∧ ∀ x ∈ [snapOut], x.line ≠ w0.line) := by decide

/-- Cluster 15 in this state; `adm` is the source in admission mapped to it. -/
def ctlCl (en : Bool) (r : ClState) (rsv : Nat) (adm : Tab Stt) (engines : Tab Engine := []) : Blk :=
  { up with cls := [(15, { regs := { en := en, st := r, rsv := rsv, offline := [0, 15] }, engines := engines })], lock := holderLock,
            sram := { doms := [(1, { st := .live })], stt := adm } }
theorem witness_ClustersAndLinksAreControlled (en : Bool) (r : ClState) (v : Nat) (adm : Tab Stt) (g : Tab Engine) :
    (ctlCl en r v adm g).Holder 0x21 15 ∧ (ctlCl en r v adm g).NotHolder 0x22 ∧ (ctlCl en r v adm g).awake = true ∧
    (ctlCl en r v adm g).dbg.hiLatch = [] :=
  ⟨(holder_at _ rfl ⟨rfl, rfl, rfl⟩).1, (holder_at _ rfl ⟨rfl, rfl, rfl⟩).2, rfl, rfl⟩
def admStt : Stt := { sttEntry with clause := { cv := true, clus := 15, aidx := 4 }, rank := { cls := 2 } }
theorem witness_ClustersAndLinksAreControlled_clauses :
    (let b := ctlCl true .enabled 15 []
     b.adm = [] ∧ (b.cl 15).regs.en = true ∧ (b.cl 15).regs.st = .enabled) ∧
    (let b := ctlCl false .busy 3 [(5, admStt)]
     (5, admStt) ∈ b.adm ∧ 2 < (b.cl 15).regs.rsv ∧ (b.cl 15).regs.en = false ∧ (b.cl 15).regs.st = .busy ∧ b.clusterQuiet 15 = true ∧
     admStt.clause.cv = true ∧ admStt.clause.clus = 15 ∧ setHas (b.cl 15).regs.offline 15 = true ∧ setHas (b.cl 15).regs.offline 14 = false) ∧
    (0x8000 : BitVec 16).getLsbD 15 = true ∧ (0x8000 : BitVec 16).getLsbD 14 = false ∧
    (ctlCl false .busy 3 [] [(0, { st := .running run })]).clusterQuiet 15 = false ∧
    ((∀ f k, up.ops.prog ≠ .selftest f k)) ∧
    (let b := linkBlk { st := .up, pop := true, wakeEn := true } {}
     (b.link 15).pop = true ∧ (b.link 15).st = .up ∧ (b.link 15).outq = [] ∧ (b.link 15).wakeEn = true ∧ (b.link 0).pop = false) := by
  refine ⟨by decide, by decide, by decide, by decide, by decide, by intro f k; exact nofun, by decide⟩
/-! ## Operating points and power states -/

/-- The Hub powered, out of reset, with these registers; agent 15 holds the Setup Lock when `held`. -/
def pwBlk (c : Clk) (q : PwrSeq) (cfg : PwrCfg := {}) (regs : PwrRegs := {}) (held : Bool := false) : Blk :=
  { up with clk := c, pwr := { seq := { q with hubReset := false }, cfg := cfg, regs := regs }, lock := if held then holderLock else {} }
/-- One CRITICAL source in admission. -/
def pwAdm (b : Blk) : Blk := { b with sram := { doms := [(1, { st := .live })], stt := [(5, admStt)] } }
theorem witness_OperatingPointsAndTimeBase (c : Clk) (avs : Option (AvsOcc × Nat)) (cfg : PwrCfg) (seq : PSeq) (h : seq = .none ∨ seq = .poll .idle 3) :
    let b := pwBlk c { avs := avs, seq := seq } cfg {} true
    b.Holder 0x21 15 ∧ b.NotHolder 0x22 ∧ b.awake = true ∧ b.dbg.hiLatch = [] ∧ b.inRun = true ∧ b.up = true ∧ b.inj.arm = [] ∧
    b.dbg.haltSeq = false ∧ b.aon.start = none ∧ b.time.hclk = 0 ∧ b.pwr.regs.state ≠ .sleep ∧ (b.clk, b.pwr.seq.avs, b.pwr.cfg) = (c, avs, cfg) := by
  obtain rfl | rfl := h <;>
    exact ⟨(holder_at _ rfl ⟨rfl, rfl, rfl⟩).1, (holder_at _ rfl ⟨rfl, rfl, rfl⟩).2, rfl, rfl, rfl, rfl, rfl, rfl, rfl, rfl, nofun, rfl⟩
theorem witness_OperatingPointsAndTimeBase_clauses :
    (let b := pwAdm (pwBlk { floorLive := 1 } {} { measured := true })
     b.adm ≠ [] ∧ b.clk.floorLive < (2 : BitVec 2) ∧ ¬ b.clk.floorLive < (1 : BitVec 2) ∧ (1 : BitVec 2) < b.clk.curOp ∧
     ¬ (2 : BitVec 2) < b.clk.curOp ∧ b.clk.ready = none ∧ (0 : BitVec 2) ≠ b.clk.floor) ∧
    (let c : Clk := { ready := some 2, target := 2, switching := true }
     c.ready = some 2 ∧ ¬ (2 : BitVec 2) < c.curOp ∧ c.target = 2 ∧ (1 : BitVec 2) < c.curOp) ∧
    (let b := { pwBlk { ready := some 2, bypass := true, pllOn := true } {} with time := { hclk := 255 } }
     b.time.hclk ≠ 0 ∧ b.clk.bypass = true ∧ b.clk.lock = false ∧ b.lock.held = false) ∧ ({ lock := true } : Clk).lock = true ∧
    (3 < 4 ∧ 450 ≠ 580) ∧
    (let cfg : PwrCfg := { offset := 39 }
     39 < 40 ∧ cfg.offset.toNat < 40 ∧ ({ offset := 40 } : PwrCfg).offset.toNat = 40) := by decide

/-- The Hub entering `tgt` after `k` clients stopped, or with no sequence. -/
def pollBlk (tgt : PState) (k : Nat) : Blk := pwBlk {} { seq := .poll tgt k, stopped := List.range k }
theorem witness_PowerRequestsAreCheckedAndPolled (cfg : PwrCfg) :
    let b := pwBlk {} {} cfg { autoIdle := true }
    b.awake = true ∧ b.inRun = true ∧ b.dbg.hiLatch = [] ∧ b.inj.arm = [] ∧ b.pwr.seq.stopped = [] ∧ b.ing.held = [] ∧
    b.pwr.regs.autoIdle = true ∧ b.noWork = true ∧ b.adm = [] ∧ b.fed.peers = [] ∧ b.ops.busy = false :=
  ⟨rfl, rfl, rfl, rfl, rfl, rfl, rfl, rfl, rfl, rfl, rfl⟩
theorem witness_PowerRequestsAreCheckedAndPolled_settled (i : Nat) (q : PwrSeq) : (pwBlk {} q).lineSettled i = true := rfl
theorem witness_PowerRequestsAreCheckedAndPolled_clauses :
    (let b := pwBlk {} {}
     (∀ k < 48, (b.ask .idle k).2 = .accept ∧ (b.ask .sleep k).2 = .accept ∧ (b.ask .deep k).2 = .accept ∧ (b.ask .off k).2 = .accept) ∧
     ∀ k < 8, b.pinActive k = false) ∧
    (let b := pwBlk {} {} { wakeEn := 0xC0, wakePol := 0x3F }
     b.pinActive 6 = true ∧ ∀ j < 6, b.pinActive j = false) ∧
    (let b := { pwBlk {} {} with cls := [(15, { regs := { st := .enabled }, engines := [(0, { st := .running run })] })] }
     (b.ask .idle 27).2 = .delay ∧ ∀ j < 27, (b.ask .idle j).2 = .accept) ∧
    (let b := pwBlk {} {} {} {} true
     b.lock.held = true ∧ ∀ j < 28, (b.ask .off j).2 = .accept) ∧
    ((pwAdm (pwBlk {} {})).adm ≠ []) ∧
    (∀ tgt ∈ [PState.idle, .sleep, .deep, .off], ∀ w ∈ [none, some (8, 5)],
      let b := pwBlk {} { seq := .gate tgt, stopped := List.range 48, wake := w }
      b.inRun = true ∧ b.lock.held = false ∧ b.pwr.seq.seq = .gate tgt ∧ b.pwr.seq.wake = w ∧ ∀ k < 48, setHas b.pwr.seq.stopped k = true) ∧
    (pwBlk {} { seq := .save .deep [] true }).pwr.seq.seq = .save .deep [] true ∧
    (∀ j < 47, setHas (pollBlk .idle 47).pwr.seq.stopped j = true) ∧ ((pollBlk .idle 47).ask .idle 47).2 = .accept ∧
    ({ spillLo := 0x200001 } : PwrCfg).spillLo.getLsbD 0 = true ∧ ({ spillLo := 0x200000 } : PwrCfg).spillLo.getLsbD 0 = false := by
  decide +kernel

/-- The Hub in a power state, with the Caldera's image `cal`. -/
def pstBlk (ps : PState) (q : PwrSeq) (cal : Caldera := {}) (ing : Ingress := {}) : Blk :=
  { up with pwr := { seq := { q with hubReset := false }, cfg := { wakeEn := 0x81, wakePol := 0x80 }, regs := { state := ps } }, cal := cal, ing := ing,
            links := if ps = .idle then [(3, { st := .paused })] else [] }
theorem witness_EntriesCompleteAndWakesReturn (ps : PState) (q : PwrSeq) (cal : Caldera) (ing : Ingress) :
    let b := pstBlk ps q cal ing
    b.aon.start = none ∧ b.aon.failed = false ∧ b.pins.pg = true ∧ b.pwr.seq.hubReset = false ∧ b.inj.arm = [] ∧ b.allExec = [] ∧
    b.pwr.regs.state = ps ∧ b.pins.iso = false ∧ b.pwr.seq.seq = q.seq ∧ b.pwr.seq.avs = q.avs ∧ b.pwr.seq.wake = q.wake ∧
    b.pwr.seq.alarm = q.alarm ∧ b.cal = cal ∧ b.sram.doms = [] :=
  ⟨rfl, rfl, rfl, rfl, rfl, rfl, rfl, rfl, rfl, rfl, rfl, rfl, rfl, rfl⟩
def deepCal : Caldera :=
  { magic := true, valid := true, check := true, kind := .deep, aging := 5, calseq := 0xFFFFFF,
    save := { clk := { curOp := 1, target := 1 }, hctl := { sstLo := 0x1000 }, mgr := [(7, { cmd := { base := 0x1000 } })],
              agents := [(15, { srcid := 0x21, valid := true })] } }
/-- In DEEP's exit with the voltage reached and the IRQPLL enabled. -/
def exitBlk (entry : Bool) (cal : Caldera) : Blk :=
  { pstBlk .deep { seq := .exit .deep entry false } cal with clk := { pllOn := true } }
theorem witness_EntriesCompleteAndWakesReturn_clauses :
    (let b := pstBlk .deep {} deepCal
     (b.pwr.cfg.wakeEn.getLsbD 7 = true ∧ b.pwr.cfg.wakePol.getLsbD 7 = true) ∧ (b.pwr.cfg.wakeEn.getLsbD 0 = true ∧ b.pwr.cfg.wakePol.getLsbD 0 = false) ∧
     b.pwr.cfg.wakeEn.getLsbD 1 = false) ∧
    ((pstBlk .idle {}).link 3).st = .paused ∧ (pstBlk .idle {}).ing.lanes = [] ∧
    (let b := exitBlk true deepCal
     b.pwr.seq.avs = none ∧ b.clk.pllOn = true ∧ b.clk.lock = false ∧ b.clk.bypass = false ∧ (∀ x ∈ b.cal.save.mgr, x.2.exec = []) ∧
     b.cal.magic = true ∧ b.cal.valid = true ∧ b.cal.check = true ∧ b.cal.kind = .deep) ∧
    (pstBlk .off { offReq := true, cwPstate := .off }).pwr.seq.cwPstate = .off ∧
    (let b : Blk := { up with pwr := { seq := { hubReset := true, cwPstate := .run } }, pins := { iso := true } }
     b.pins.iso = true ∧ b.aon.start = none ∧ b.pwr.seq.offReq = false ∧ b.pwr.seq.seq = .none ∧ b.aon.loss = false ∧
     b.aon.restoreAll = false ∧ b.cal.valid = false) := by decide
/-! ## Resets and starts -/

/-- The Hub with these always-on flags, Caldera and supply; agent 15 holds the Setup Lock. -/
def aonBlk (a : Aon) (cal : Caldera := {}) (pg : Bool := true) (q : PwrSeq := { hubReset := false }) : Blk :=
  { mapBlk true with aon := a, cal := cal, pins := { pg := pg }, pwr := { seq := q }, lock := holderLock,
                     rings := { mgr := [(7, pair7 [])] }, err := { ueCnt := 3 }, clk := { floor := 0, floorLive := 1 } }
theorem witness_ResetsAndSupplyLead (failed loss all pg : Bool) (cal : Caldera) :
    let b := aonBlk { start := none, failed := failed, loss := loss, restoreAll := all } cal pg
    b.Holder 0x21 15 ∧ b.NotHolder 0x22 ∧ b.pins.iso = false ∧ b.rings.session = none ∧ b.pwr.seq.offReq = false ∧
    (b.aon.failed, b.aon.loss, b.aon.restoreAll, b.cal, b.pins.pg) = (failed, loss, all, cal, pg) :=
  ⟨(holder_at _ rfl ⟨rfl, rfl, rfl⟩).1, (holder_at _ rfl ⟨rfl, rfl, rfl⟩).2, rfl, rfl, rfl, rfl⟩
theorem witness_ResetsAndSupplyLead_clauses :
    deepCal.valid = true ∧ deepCal.kind = .deep ∧ ({ deepCal with kind := .off } : Caldera).kind = .off ∧ ({} : Caldera).valid = false ∧
    (∀ x ∈ (aonBlk { start := none }).sram.doms, x.2.st ≠ .resetting ∧ x.2.st ≠ .restoring) ∧
    (aonBlk { start := some (.warm, .s12), retried := true }).aon.start = some (.warm, .s12) ∧
    (aonBlk { start := none, loss := true } {} false { seq := .exit .off false false }).pwr.seq.seq = .exit .off false false ∧
    (aonBlk { start := none } {} true { offReq := true }).pwr.seq.offReq = true ∧ (0xC4 : BitVec 8) ≠ 0xC5 := by decide

/-- A start of a Hub whose tiles the fuses populate with `tiles`. -/
def startBlk (k : StartKind) (at_ : StartAt) (bist fuse bad : Bool) (avs : Option (AvsOcc × Nat)) (offset : BitVec 6) (need : Nat) (tiles : Word) : Blk :=
  { aon := { start := some (k, at_) }, clk := { pllOn := true, lock := at_ ≠ .s2 }, dbg := { seqBad := bad },
    pins := { bistOk := bist, fuseAck := fuse, need := need, fuse := [(0, tiles), (1, 1)] },
    pwr := { seq := { avs := avs }, cfg := { offset := offset } } }
/-- Whether the ROM agrees with its check value is open: each of the two answers has its own clauses, with these states. -/
theorem witness_StartsReachRunOrFail (k : StartKind) (bist fuse bad : Bool) :
    let b := startBlk k .s2 bist fuse bad none 0 0 0xFFFF
    (romOk = true ∨ romOk = false) ∧ b.aon.start = some (k, .s2) ∧ b.clk.pllOn = true ∧ b.clk.lock = false ∧ b.pins.bistOk = bist ∧
    b.pins.fuseAck = fuse ∧ b.dbg.seqBad = bad ∧ b.aon.retried = false ∧ b.cal.valid = false := by
  refine ⟨by cases romOk <;> simp, ?_⟩
  cases k <;> cases bist <;> cases fuse <;> cases bad <;> decide
theorem witness_StartsReachRunOrFail_s8 (i : Nat) :
    (startBlk .cold .s8 true true false (some (.startAging, 624)) 39 63 0).stt i = {} ∧
    (let b := startBlk .cold .s8 true true false (some (.startAging, 624)) 39 63 0
     b.aon.start = some (.cold, .s8) ∧ b.pwr.seq.avs = some (.startAging, 624) ∧ b.inj.arm = [] ∧ b.links = [] ∧ b.pins.iso = false ∧
     b.ecc = {} ∧ b.ing.lanes = [] ∧ b.sram.doms = [] ∧ b.tim.armed = [] ∧ b.rings.mgr = [] ∧ b.pwr.seq.seq = .none ∧
     40 ≤ min 40 (b.pwr.cfg.offset.toNat + 5)) := ⟨rfl, by decide⟩
/-! ## Long operations, error recovery, the Setup Lock, registers and debug -/

/-- The Hub with this operation in block OPS and all clusters enabled; the spill region is at 0x400000. -/
def opsBlk (o : Ops) (en : Bool := true) (out : List OutW := []) (bodies : List SpillBody := []) : Blk :=
  { up with ops := o, pwr := { seq := { hubReset := false }, cfg := { spillLo := if en then 0x400001 else 0x400000 } }, lock := holderLock,
            cls := (List.range 16).map (fun k => (k, { regs := { en := true, st := .enabled } })), fp := { up.fp with out := out },
            spill := { seq := 0xFFFFFE, bodies := bodies } }
theorem witness_LongOperations (o : Ops) (en : Bool) (out : List OutW) (x : List SpillBody) :
    let b := opsBlk o en out x
    b.Holder 0x21 15 ∧ b.NotHolder 0x22 ∧ b.awake = true ∧ b.allExec = [] ∧ b.inj.arm = [] ∧ b.arb.stuck = [] ∧ b.pwr.seq.seq = .none ∧
    b.adm = [] ∧ b.sstEn = false ∧ b.mapped = [] ∧ b.ecc.upsets = [] ∧ b.updates = [] ∧ b.ops = o ∧ b.fp.out = out ∧ (∀ x ∈ b.sram.stt, (b.stt x.1).valid = true → (b.stt x.1).kind = .internal) ∧
    ∀ d ∈ b.sram.doms, d.1 = 0 ∨ d.2.st = .absent :=
  ⟨(holder_at _ rfl ⟨rfl, rfl, rfl⟩).1, (holder_at _ rfl ⟨rfl, rfl, rfl⟩).2, rfl, rfl, rfl, rfl, rfl, rfl, (by decide : (opsBlk {} true [] []).sstEn = false), rfl, rfl, rfl, rfl, rfl,
    fun _ h => (List.not_mem_nil h).elim, fun _ h => (List.not_mem_nil h).elim⟩
/-- A spill image of one domain and one CRITICAL source, its header and its directory. -/
def imgBody : SpillBody :=
  { sram := { stt := [(2000, { valid := true, kind := .data, mapgen := 4, domid := 1, vintid := 0x999, res := true, slot := 1800, rank := { cls := 2 } })],
              doms := [(1, { st := .frozen, gen := 6, sh := { rshare := 1 } })] },
    cls := [(15, { prog := [(16, 0xF80000)], data := [(4095, 7)] })] }
def imgHdr (cause : Word) : BitVec 512 :=
  let head : List Word := [0x015B17E0, wd hubVersion, 2, 0xFFFFFE, cause, 0, 0, 0, 0, 0, 0, 0, 0, 0, 0]
  lineOfWords (head ++ [spillCheck 0xFFFFFE head (spillDir 0)])
def imgMem (hdr : BitVec 512) : List Host.Cell := memWriteLine (memWriteLine [] 0x10001 (spillDir 0)) 0x10000 hdr
/-- The image that a header line and a directory line make, of the images written so far. -/
def imgOf (hdr dir : BitVec 512) (bodies : List SpillBody) : Option SpillBody × Bool :=
  let head := (List.range 15).map (lineWord hdr)
  if lineWord hdr 0 ≠ 0x015B17E0 || lineWord hdr 1 ≠ wd hubVersion || (lineWord hdr 2).toNat ≠ 2 then (none, false)
  else if spillCheck (lineWord hdr 3).toNat head dir ≠ lineWord hdr 15 then (none, true)
  else (bodies[(lineWord dir 0).toNat]?, false)
theorem ops_lines (o : Ops) (hdr : BitVec 512) (x : List SpillBody) :
    (opsBlk o true [] x).hostLine (imgMem hdr) 0x10000 = hdr ∧ (opsBlk o true [] x).hostLine (imgMem hdr) 0x10001 = spillDir 0 ∧
    (opsBlk o true [] x).spillBase / 64 = 0x10000 := by
  refine ⟨?_, ?_, (by decide : (opsBlk {} true [] []).spillBase / 64 = 0x10000)⟩ <;> simp [Blk.hostLine, opsBlk, up, imgMem, memLine_write_ne, memLine_write]
theorem ops_image (o : Ops) (hdr : BitVec 512) (x : List SpillBody) :
    (opsBlk o true [] x).spillImage (imgMem hdr) = imgOf hdr (spillDir 0) x := by
  obtain ⟨h1, h2, h3⟩ := ops_lines o hdr x
  simp only [Blk.spillImage, h3, h1, h2, imgOf]
  rfl
theorem imgHdr_sound : imgOf (imgHdr 1) (spillDir 0) [imgBody] = (some imgBody, false) ∧ imgOf 0 (spillDir 0) [imgBody] = (none, false) ∧
    lineWord (imgHdr 1) 4 ≤ 1 := by decide +kernel
theorem witness_LongOperations_image (o : Ops) :
    (opsBlk o true [] [imgBody]).spillImage (imgMem (imgHdr 1)) = (some imgBody, false) ∧
    (opsBlk o true [] [imgBody]).spillImage (imgMem 0) = (none, false) ∧
    lineWord ((opsBlk o true [] [imgBody]).hostLine (imgMem (imgHdr 1)) ((opsBlk o true [] [imgBody]).spillBase / 64)) 4 ≤ 1 := by
  obtain ⟨h1, -, h3⟩ := ops_lines o (imgHdr 1) [imgBody]
  obtain ⟨g1, g2, g3⟩ := imgHdr_sound
  exact ⟨by rw [ops_image, g1], by rw [ops_image, g2], by rw [h3, h1]; exact g3⟩
/-- A mapped data source and a live domain: the block is not empty. -/
def fullBlk : Blk := { opsBlk {} with sram := { stt := [(5, admStt)], doms := [(1, { st := .live })] } }
theorem witness_LongOperations_clauses :
    (opsBlk {}).spillEn = true ∧ (opsBlk {} false).spillEn = false ∧ fullBlk.adm ≠ [] ∧ (1, ({ st := .live } : Dom)) ∈ fullBlk.sram.doms ∧
    (∀ k < 16, ((opsBlk {}).cl k).regs.st = .enabled) ∧
    (let b := { opsBlk { prog := .selftest (some 14) 14 } with cls := [(14, { regs := { en := true, st := .busy } }), (15, { regs := { en := true, st := .enabled } })] }
     (b.cl 14).regs.st = .busy ∧ b.clusterQuiet 14 = true ∧ (b.cl 15).regs.st = .enabled ∧ b.ops.prog = .selftest (some 14) 14) ∧
    (∀ h : Bool, (opsBlk { prog := .spill [0x10001] h false } true [{ line := 0x10001, data := 7, kind := .spillImage }]).fp.out =
      [] ++ { line := 0x10001, data := 7, kind := .spillImage } :: []) := by decide

/-- Banks 0 and 15 late, bank 15 with an event held at it, bank 14 with a held grant; single-bit errors at the next rows. -/
def scrubBlk (en : Bool) : Blk :=
  { up with err := { scrubEn := en }, ecc := { entryCe := [0, 16, 262141, 262143], otherCe := 2 }, sram := { doms := [(1, { st := .live })] },
            arb := { scrubPend := [0, 15], stuck := [(14, 3)], scrubRow := [(13, 16383)] },
            ing := { lanes := [(1, { hold := [(15, held .arrival)] })] } }
/-- Source 5 of the slot 3, or spilled, whose entry is uncorrectable, with a handle at a tile in state `hs`. -/
def badBlk (t : Stt) (hs : HState) (res : Bool) : Blk :=
  { src t {} { up with links := [(15, { handles := [(7, { st := hs, stt := 5, mapgen := 1, gen := 3, shr := true })] })],
                       ing := { level := [5] }, lc := { en := true, st := .enabled, lines := [{ line := 0x200, data := 0 }] }, hctl := { sstLo := 0x8001 } } with
    ecc := if res then { entryBad := [3] } else { spillBad := [5] } }
def spilledStt (k : SrcKind) : Stt := { sttEntry with res := false, kind := k }
/-- Manager ring 7 in a COMMIT that the Sequencer runs, and the Hub in E3 of an entry to OFF. -/
def seqBlk : Blk := ringBlk up [commitExec]
def saveBlk : Blk := { up with pwr := { seq := { hubReset := false, seq := .save .off [1] false } } }
theorem witness_ErrorsAreRecovered (en : Bool) (k : SrcKind) (hs : HState) (res : Bool) :
    (scrubBlk en).awake = true ∧ (scrubBlk en).inj.arm = [] ∧ setHas (scrubBlk en).pwr.seq.stopped 46 = false ∧ (scrubBlk en).err.scrubEn = en ∧
    (scrubBlk en).ecc.otherCe = 1 + 1 ∧ (scrubBlk en).allExec = [] ∧ (scrubBlk en).up = true ∧ (scrubBlk en).dbg.seqBad = false ∧
    (scrubBlk en).Port4 ∧ (scrubBlk en).ecc.upsets = [] ∧ seqBlk.Writes ∧
    ({ scrubBlk en with ecc := { upsets := [.program 15 8191] } }).ecc.upsets = .program 15 8191 :: [] ∧
    (let b := badBlk { sttEntry with kind := k } hs true
     b.awake = true ∧ b.inj.arm = [] ∧ b.stt 5 = { sttEntry with kind := k } ∧ b.rank.offers = [] ∧ setHas b.ecc.entryBad 3 = true ∧
     (b.dom 2).still = false ∧ b.sram.stt = [(5, { sttEntry with kind := k })]) ∧
    (let b := badBlk (spilledStt k) hs false
     b.awake = true ∧ b.inj.arm = [] ∧ b.stt 5 = spilledStt k ∧ b.rank.offers = [] ∧ setHas b.ecc.spillBad 5 = true ∧ b.rings.session = none ∧
     b.lc.st = .enabled ∧ b.lc.bufs = [] ∧ b.sstLine 5 = 0x200 ∧ b.lc.find 0x200 = some { line := 0x200, data := 0 }) ∧ (badBlk sttEntry hs res).sram.doms ≠ [] :=
  ⟨rfl, rfl, rfl, rfl, rfl, rfl, rfl, rfl, ⟨rfl, rfl, rfl⟩, rfl, ⟨rfl, rfl, nofun, rfl, nofun, rfl, rfl⟩, rfl, ⟨rfl, rfl, rfl, rfl, rfl, rfl, rfl⟩,
    ⟨rfl, rfl, rfl, rfl, rfl, rfl, rfl, rfl, (by decide : ({ up with hctl := { sstLo := 0x8001 } } : Blk).sstLine 5 = 0x200), rfl⟩, by cases res <;> simp [badBlk, src]⟩
theorem witness_ErrorsAreRecovered_clauses :
    (∃ x ∈ (scrubBlk true).arb.stuck, x.1 = 14) ∧ (∀ x ∈ (scrubBlk true).arb.stuck, x.1 ≠ 15) ∧
    (∃ l ∈ (scrubBlk true).ing.lanes, ∃ x ∈ l.2.hold, x.1 = 15) ∧
    seqBlk.up = true ∧ seqBlk.allExec = [(.mgr 7, commitExec)] ∧ (seqBlk.pair (.mgr 7)).exec = [commitExec] ∧ seqBlk.pwr.seq.seq = .none ∧
    seqBlk.awake = true ∧ saveBlk.up = true ∧ saveBlk.allExec = [] ∧
    saveBlk.pwr.seq.seq = .save .off [1] false ∧ (0x8000000 : BitVec 28).getLsbD 27 = true ∧ 27 ∈ [1, 3, 4, 6, 7, 15, 16, 19, 20, 22, 23, 25, 26, 27] ∧
    (let b := pwBlk {} { avs := some (.opUp 2 1, 680) }
     let b := { b with inj := { arm := [22] } }
     b.inRun = true ∧ setHas b.inj.arm 22 = true ∧ b.pwr.seq.avs = some (.opUp 2 1, 680)) := by decide

/-- The Setup Lock of agents 0 and 15, owned by `owner` when it is held. -/
def lockOf (held : Bool) (owner : Nat) (breaker : Bool) : Lock :=
  { held := held, owner := owner, remain := 1, cause := 3, broken := true,
    agents := [(0, { srcid := 0x20, valid := true, written := true }), (15, { srcid := 0x21, valid := true, breaker := breaker })] }
def lockBlk (held : Bool) (owner : Nat) (breaker : Bool) (ss : Option Session := none) (exec : List Exec := []) : Blk :=
  ringBlk { up with lock := lockOf held owner breaker, rings := { up.rings with session := ss }, clk := { floor := 0, floorLive := 1 } } exec
theorem witness_SetupLockIsLeased (h : Bool) (o : Nat) (br : Bool) (ss : Option Session) (e : List Exec) :
    let b := lockBlk h o br ss e
    b.Port4 ∧ b.Writes ∧ b.awake = true ∧ b.up = true ∧ b.inRun = true ∧ b.rings.session = ss ∧ (b.pair (.mgr 7)).exec = e ∧ b.lock = lockOf h o br ∧
    b.ops.prog.spilling = false := ⟨⟨rfl, rfl, rfl⟩, ⟨rfl, rfl, nofun, rfl, nofun, rfl, rfl⟩, rfl, rfl, rfl, rfl, rfl, rfl, rfl⟩
theorem witness_SetupLockIsLeased_clauses :
    (let k := lockOf true 15 true
     (tabGet {} k.agents 15).valid = true ∧ (tabGet {} k.agents 15).srcid = 0x21 ∧ (tabGet {} k.agents 15).breaker = true ∧ k.held = true ∧ k.owner = 15 ∧
     (∀ j < 16, (tabGet {} k.agents j).valid = true → (tabGet {} k.agents j).srcid = 0x21 → j = 15) ∧
     (∀ a < 16, (tabGet {} k.agents a).valid = true → (tabGet {} k.agents a).srcid ≠ 0x22) ∧
     (tabGet {} k.agents 15).written = false ∧ (tabGet {} k.agents 0).written = true ∧
     (0 ≠ 15 ∧ (tabGet {} k.agents 0).valid = true ∧ (tabGet {} k.agents 0).srcid = 0x20)) ∧
    (1 ≤ (1 : BitVec 10).toNat ∧ (1000 : BitVec 10).toNat ≤ 1000 ∧ ¬ 1 ≤ (0 : BitVec 10).toNat ∧ ¬ (1001 : BitVec 10).toNat ≤ 1000) ∧
    (lockOf true 0 true).owner ≠ 15 ∧ (lockOf false 0 false).held = false ∧ (lockBlk true 15 true).allExec = [] ∧
    (lockBlk true 15 true none [commitExec]).allExec = [(.mgr 7, commitExec)] ∧ commitExec.wait = .commit {} := by decide

/-- The Hub with a latch of a HI half for source 0x21, or none, and a register that differs from 0 for each read. -/
def regBlk (latch : Tab (Nat × Word)) : Blk :=
  { up with dbg := { hiLatch := latch, mw := { lo := 0x77, hi := 0x88 } }, lock := holderLock, err := { ceCnt := 5, st := { ce := true, access := true } },
            hctl := { msiLo := 0xFEE00000 }, links := [(15, { live := 0x123456789ABCDEF0 })] }
theorem witness_RegistersFollowTheirAccessCodes (l : Tab (Nat × Word)) :
    (regBlk l).awake = true ∧ setHas (regBlk l).fp.badIn 4 = false ∧ (regBlk []).Holder 0x21 15 ∧ (regBlk []).NotHolder 0x22 ∧ (regBlk l).dbg.hiLatch = l :=
  ⟨rfl, rfl, (holder_at _ rfl ⟨rfl, rfl, rfl⟩).1, (holder_at _ rfl ⟨rfl, rfl, rfl⟩).2, rfl⟩
theorem witness_RegistersFollowTheirAccessCodes_clauses :
    ((0xFEE00FFF : Word) &&& 0xFFFFF000 = (regBlk []).hctl.msiLo) ∧ ((0xFED00FFF : Word) &&& 0xFFFFF000 ≠ (regBlk []).hctl.msiLo) ∧
    tabGet (0, 0) (regBlk [(0x21, (0x9002C, 5))]).dbg.hiLatch (0x21 : BitVec 8).toNat = (0x9002C, 5) ∧ 0xFFFFC < 0x100000 ∧
    (0xFFFC < 0x10000 ∧ 0xFFFC % 4 = 0) := by decide

/-- The Hub at a debug level in a lifecycle state, with this memory window, TAP and halted clusters. -/
def dbgBlk (l : Level) (lc : BitVec 2) (mw : MemWin := {}) (tap : Tap := {}) (halt : NSet := []) (recs : List (Word × Word) := []) : Blk :=
  { up with dbg := { level := l, lc := lc, mw := mw, tap := tap, haltCl := halt, trace := { recs := recs }, haltSeq := !halt.isEmpty },
            inj := { arm := [0, 1, 27] }, pins := { fuse := [(0x40, 3)] } }
theorem witness_DebugLevelsHaltsAndWindow (l : Level) (lc : BitVec 2) (mw : MemWin) (tap : Tap) (halt : NSet) (recs : List (Word × Word)) :
    let b := dbgBlk l lc mw tap halt recs
    b.Port4 ∧ b.awake = true ∧ b.dbg.hiLatch = [] ∧ b.allExec = [] ∧ b.pwr.seq.stopped = [] ∧ b.tapReady = true ∧ b.aon.failed = false ∧
    b.dbg.level = l ∧ b.dbg.lc = lc ∧ b.dbg.mw = mw ∧ b.dbg.tap = tap ∧ b.dbg.haltCl = halt ∧ b.dbg.trace.recs = recs ∧ b.lock.held = false ∧
    b.ecc = {} ∧ b.dbg.seqBad = false :=
  ⟨⟨rfl, rfl, rfl⟩, rfl, rfl, rfl, rfl, rfl, rfl, rfl, rfl, rfl, rfl, rfl, rfl, rfl, rfl, rfl⟩
/-- Engine 0 of halted cluster 0 at `w`. -/
def haltedAt (w : Word24) : Blk := { (atW w run).blk with dbg := { level := .invasive, haltCl := [0] } }
theorem haltedAt_at (w : Word24) (h : legalWord w = true ∧ run.steps + stepCost w ≤ run.d.att.budget) :
    setHas (haltedAt w).dbg.haltCl 0 = true ∧ ({ haltedAt w with dbg := { (haltedAt w).dbg with haltCl := [] } }).AtInstr 0 0 run w := by
  have k := atW_at w [] run ⟨rfl, rfl, rfl⟩ h.1 h.2
  exact ⟨rfl, { awake := k.awake, halted := rfl, running := k.running, sequencing := k.sequencing, noInject := k.noInject,
                region := k.region, sound := k.sound, word := k.word, legal := k.legal, budget := k.budget }⟩
/-- LDI of -1, and a branch always, by -8192. -/
theorem witness_DebugLevelsHaltsAndWindow_step :
    (let w := word 0x02 (0x2 * 2 ^ 14 + 0x3FFF)
     opOf w = 0x02 ∧ legalWord w = true ∧ run.steps + stepCost w ≤ run.d.att.budget) ∧
    (let w := word 0x30 0x2000
     opOf w = 0x30 ∧ fD w = 0 ∧ legalWord w = true ∧ run.steps + stepCost w ≤ run.d.att.budget) := by decide
/-- The response to the challenge 0x0F0E…00 at FAILS 7 for level 2 under a key of zeros, by an independent HMAC-SHA-256. -/
def response : BitVec 256 := 0x51b3d4478754a15b480f7c8b4e200cd0d95488a9bbaad47e7d4d0329fb26f79f
theorem witness_DebugLevelsHaltsAndWindow_response :
    (List.range 32).map (fun i => response.extractLsb' (8 * i) 8) = hmacSha256 (List.replicate 32 0)
      ((List.range 16).map (fun i => (0x0F0E0D0C0B0A09080706050403020100 : BitVec 128).extractLsb' (8 * i) 8) ++
       [(2 : BitVec 2).setWidth 8, (2 : BitVec 2).setWidth 8, BitVec.ofNat 8 7, 0, 0x01, 0x02, 0, 0]) := by decide +kernel
theorem witness_DebugLevelsHaltsAndWindow_clauses :
    ((2 : BitVec 2) ≠ 0 ∧ (2 : BitVec 2) ≠ 3 ∧ ¬ ((2 : BitVec 2) = 0 ∨ ((2 : BitVec 2) = 1 ∧ (2 : BitVec 2) ≠ 2) ∨ ((2 : BitVec 2) = 2 ∧ (2 : BitVec 2) = 0))) ∧
    (tabGet 0 (dbgBlk .none 2).pins.fuse 0x40).getLsbD 0 = true ∧ (tabGet 0 (dbgBlk .none 3).pins.fuse 0x40).getLsbD 1 = true ∧
    tabGet 0 up.pins.fuse 0x40 = 0 ∧
    ({ up with pwr := { seq := { hubReset := false }, regs := { state := .sleep } } } : Blk).tapReady = false ∧
    ({ dbgBlk .invasive 0 with inj := {} } : Blk).inj.arm = [] ∧
    (∀ l : BitVec 2, l = 0 ∨ l = 1 ∨ l = 2 ∨ l = 3) ∧
    (let b := { dbgBlk .invasive 0 {} {} [15] with cls := [(15, { engines := [(15, { st := .running run })] })] }
     setHas b.dbg.haltCl 15 = true ∧ setHas b.dbg.haltCl 14 = false ∧ (tabGet ({} : Engine) (b.cl 15).engines 15).st = .running run) ∧
    (∀ a ∈ [262143, 3, 0], (dbgBlk .invasive 0).bankBusy (a % 16) = false ∧ a < 262144) ∧
    ({ dbgBlk .invasive 0 with arb := { stuck := [(15, 3)] } }).bankBusy (262143 % 16) = true ∧
    (0x90030 ≤ 0x90030 ∧ 0x90030 < 0x9003C ∧ ¬ 0x9003C < 0x9003C ∧ ¬ 0x90140 < 0x90140) := by decide
/-! ## Steps, and one word for each group of instructions -/

theorem witness_StepRunsFront : ({ pending := [.avsAck 0 true 580, .clMov 0 0], blk := up } : State).pending = .avsAck 0 true 580 :: [.clMov 0 0] := rfl
/-- A line write acknowledged: the step answers a next state whose memory lists bytes in canonical form. -/
theorem witness_StepKeepsMemoryForm :
    let s : State := { blk := { up with fp := { out := [{ line := 9, data := 3, kind := .event 1 }] } }, mem := [(5, 1)], pending := [.lineWriteAck 9] }
    s.Inv ∧ (match step s with
      | .next t => decide (t.mem = [(5, 1), (576, 3)] ∧ t.pending = [])
      | _ => false) = true := ⟨by show Memory.wf [(5, 1)] = true; decide, by decide +kernel⟩
theorem witness_ResetAndIdleSteps : (st up).pending = [] := rfl
theorem clause_word (op low : Nat) (h : legalWord (word op low) = true ∧ run.steps + stepCost (word op low) ≤ run.d.att.budget) :
    (atW (word op low) run).blk.AtInstr 0 0 run (word op low) := atW_at _ [] run ⟨rfl, rfl, rfl⟩ h.1 h.2
theorem witness_ClauseAddSubtractCompare : (atW (word 0x05 (reg 15 2 3)) run).blk.AtInstr 0 0 run (word 0x05 (reg 15 2 3)) :=
  clause_word _ _ (by decide)
theorem witness_ClauseMovesLogicAndShifts : (atW (word 0x0B (reg 0 2 3)) run).blk.AtInstr 0 0 run (word 0x0B (reg 0 2 3)) :=
  clause_word _ _ (by decide)
theorem witness_ClauseMultiplyDivideOrder : (atW (word 0x13 (reg 1 3 2)) run).blk.AtInstr 0 0 run (word 0x13 (reg 1 3 2)) :=
  clause_word _ _ (by decide)
theorem witness_ClauseBranches : (atW (word 0x30 0x2000) run).blk.AtInstr 0 0 run (word 0x30 0x2000) := clause_word _ _ (by decide)
end Sys2Proof.Tests
end

/-! Accesses at FP4 of a Hub in RUN, and what the Setup Lock lets a write do (00 R11, R12; 17 R601, R603). -/
namespace Sys2Proof.Machine
open Sys2Proof

/-! ### An access reaches its register -/

theorem Blk.powerState_of_awake {b : Blk} (h : b.awake = true) : b.pwr.regs.state = .run := by
  simp only [Blk.awake, Blk.inRun, Bool.and_eq_true, decide_eq_true_eq] at h
  obtain ⟨⟨⟨hrun, _⟩, _⟩, _⟩ := h
  exact hrun

/-- Whatever clocks per-event logic also serves the port branches (13 R485, R491). -/
theorem Blk.served_of_awake {b : Blk} (h : b.awake = true) : b.served = true := by
  have hrun := Blk.powerState_of_awake h
  simp only [Blk.awake, Blk.inRun, Bool.and_eq_true, Bool.or_eq_true, decide_eq_true_eq] at h
  obtain ⟨⟨⟨_, hstart⟩, hreset⟩, hseq⟩ := h
  have hup : b.up = true := by
    rcases hseq with hseq | hseq
    · simp [Blk.up, hstart, hreset, hrun, hseq]
    · cases hq : b.pwr.seq.seq <;> simp_all [Blk.up, PSeq.inPoll]
  rcases hseq with hseq | hseq <;> simp [Blk.served, hup, hrun, hseq]

/-- In RUN, an access at FP4 that passes its data check is performed at once. -/
theorem Blk.fp4_of_awake {b : Blk} (ha : b.awake = true) (hi : setHas b.fp.badIn 4 = false) (m : List Host.Cell)
    (a : PortAcc) (f : Blk → Blk) : b.fp4 m a f = f b := by
  simp [Blk.fp4, Blk.portIn, hi, Blk.served_of_awake ha]

theorem Blk.unlatch_of_noLatch {b : Blk} (h : b.dbg.hiLatch = []) (src : Src) : b.unlatch src = b := by
  have hdel : tabDel b.dbg.hiLatch (srcKey src) = b.dbg.hiLatch := by rw [h]; rfl
  simp only [Blk.unlatch, Blk.modDbg, hdel]

/-- In RUN a write wakes nothing, unless it is work of the debug unit. -/
theorem Blk.writeWakes_of_awake {b : Blk} (ha : b.awake = true) {off : Nat} (hoff : off / 0x10000 ≠ 9)
    (m : List Host.Cell) (v : Word) : b.writeWakes m off v = b := by
  have hwork : b.debugWork off v = none := by
    have hhalt : off ≠ 0x90010 := by omega
    have hstep : off ≠ 0x90014 := by omega
    have hgo : off ≠ 0x90020 := by omega
    simp [Blk.debugWork, hhalt, hstep, hgo]
  simp [Blk.writeWakes, hwork, Blk.powerState_of_awake ha]

/-- A write outside block DBG does what its register does, and nothing else. -/
theorem Blk.Port4.writeBy_eq {b : Blk} (h : b.Port4) {off : Nat} (hoff : off / 0x10000 ≠ 9) (m : List Host.Cell)
    (id : BitVec 8) (v : Word) : b.writeBy m (.fp4 id) off v = b.writeRegF m (.fp4 id) off v none := by
  simp [Blk.writeBy, Blk.writeByF, Blk.fp4_of_awake h.awake h.intact, Blk.writeGo,
    Blk.writeWakes_of_awake h.awake hoff, Blk.unlatch_of_noLatch h.noLatch]

/-- A row that is the write of one register becomes what the register makes of its word. -/
theorem State.writeReg_becomes {s : State} (h : s.blk.Port4) {off : Nat} (hoff : off / 0x10000 ≠ 9) (id : BitVec 8)
    (v : Nat) : s.writeReg (.fp4 id) off v = s.becomes (s.blk.writeRegF s.mem (.fp4 id) off (BitVec.ofNat 32 v) none) := by
  simp [State.writeReg, State.becomes, h.writeBy_eq hoff]

/-- Register `r` of group `n` of an array of register groups. -/
theorem regIdx_group (base stride count n r : Nat) (hn : n < count) (hr : r < stride) :
    regIdx (base + stride * n + r) base stride count = some (n, r) := by
  have hlt : stride * n + r < stride * count := by
    calc stride * n + r < stride * n + stride := by omega
      _ = stride * (n + 1) := by ring
      _ ≤ stride * count := Nat.mul_le_mul_left _ hn
  have hsub : base + stride * n + r - base = r + stride * n := by omega
  have hdiv : (r + stride * n) / stride = n := by
    rw [Nat.add_mul_div_left _ _ (by omega), Nat.div_eq_of_lt hr, Nat.zero_add]
  have hmod : (r + stride * n) % stride = r := by rw [Nat.add_mul_mod_self_left, Nat.mod_eq_of_lt hr]
  have hin : (decide (base ≤ base + stride * n + r) && decide (base + stride * n + r < base + stride * count)) = true := by
    simp only [Bool.and_eq_true, decide_eq_true_eq]; omega
  simp only [regIdx, hin, if_true, hsub, hdiv, hmod]

/-! ### The Setup Lock -/

theorem firstBelow_eq_of_unique {n a : Nat} {p : Nat → Bool} (ha : a < n) (hp : p a = true)
    (hu : ∀ j < n, p j = true → j = a) : firstBelow n p = some a := by
  cases hf : firstBelow n p with
  | none => exact absurd hp (List.find?_eq_none.1 hf a (List.mem_range.2 ha))
  | some j =>
    have hj := List.mem_range.1 (List.mem_of_find?_eq_some hf)
    rw [hu j hj (List.find?_some hf)]

theorem Blk.Holder.ownerWrites {b : Blk} {id : BitVec 8} {a : Nat} (h : b.Holder id a) : b.ownerWrites (.fp4 id) = true := by
  obtain ⟨hlt, hvalid, hid⟩ := h.agent
  have hagent : b.lock.agentOf id = some a :=
    firstBelow_eq_of_unique hlt (by rw [Bool.and_eq_true, beq_iff_eq]; exact ⟨hvalid, hid⟩) (fun j hj hp => by
      simp only [Bool.and_eq_true, beq_iff_eq] at hp
      exact h.alone j hj hp.1 hp.2)
  simp [Blk.ownerWrites, hagent, h.held.1, h.held.2]

theorem Blk.NotHolder.ownerWrites {b : Blk} {id : BitVec 8} (h : b.NotHolder id) : b.ownerWrites (.fp4 id) = false := by
  cases hheld : b.lock.held with
  | false => simp [Blk.ownerWrites, hheld]
  | true =>
    have hagent : b.lock.agentOf id ≠ some b.lock.owner := fun e => by
      have hp := List.find?_some e
      simp only [Bool.and_eq_true, beq_iff_eq] at hp
      exact h.other hheld hp.2
    simp [Blk.ownerWrites, hagent]

/-- A write that changes no RWL field is performed as it stands. -/
@[simp] theorem Blk.rwl_unchanged (b : Blk) (m : List Host.Cell) (src : Src) (f : Blk → Blk) : b.rwl m src false f = f b := rfl

theorem Blk.Holder.rwl_eq {b : Blk} {id : BitVec 8} {a : Nat} (h : b.Holder id a) (m : List Host.Cell) (diff : Bool)
    (f : Blk → Blk) : b.rwl m (.fp4 id) diff f = f b := by
  simp [Blk.rwl, h.ownerWrites]

theorem Blk.NotHolder.rwl_eq {b : Blk} {id : BitVec 8} (h : b.NotHolder id) (m : List Host.Cell) (f : Blk → Blk) :
    b.rwl m (.fp4 id) true f = b.rwlRefuse := by
  simp [Blk.rwl, h.ownerWrites, Blk.debugWrites]

/-- A refusal leaves what 00 R12 says, and nothing else. -/
theorem Blk.refused_rwlRefuse (b : Blk) : b.Refused b.rwlRefuse := by
  refine ⟨rfl, ?_, rfl⟩
  simp [Blk.rwlRefuse, Blk.raise, Blk.lane, Blk.modLane]

end Sys2Proof.Machine

/-! Block ENG: enabling, disabling and draining a cluster, and reviving its engines (07 R308 to R313). -/
namespace Sys2Proof.Machine
open Sys2Proof

/-! ### Changes of one cluster -/

/-- From `b0` to `b` no cluster but `c` changed, and nothing outside the clusters. -/
def Blk.OnlyCl (b0 b : Blk) (c : Nat) : Prop := (∀ d, d ≠ c → b.cl d = b0.cl d) ∧ { b with cls := b0.cls } = b0

theorem Blk.OnlyCl.refl (b : Blk) (c : Nat) : b.OnlyCl b c := ⟨fun _ _ => rfl, rfl⟩

theorem Blk.OnlyCl.trans {b0 b1 b2 : Blk} {c : Nat} (h1 : b0.OnlyCl b1 c) (h2 : b1.OnlyCl b2 c) : b0.OnlyCl b2 c := by
  refine ⟨fun d hd => (h2.1 d hd).trans (h1.1 d hd), ?_⟩
  calc ({ b2 with cls := b0.cls } : Blk)
      = { ({ b2 with cls := b1.cls } : Blk) with cls := b0.cls } := rfl
    _ = { b1 with cls := b0.cls } := by rw [h2.2]
    _ = b0 := h1.2

theorem Blk.onlyCl_modCl (b : Blk) (c : Nat) (f : Cluster → Cluster) : b.OnlyCl (b.modCl c f) c :=
  ⟨fun d hd => by rw [Blk.cl_modCl, if_neg hd], rfl⟩

theorem Blk.onlyCl_modCr (b : Blk) (c : Nat) (f : ClRegs → ClRegs) : b.OnlyCl (b.modCr c f) c := b.onlyCl_modCl c _

@[simp] theorem Blk.cl_modCr_self (b : Blk) (c : Nat) (f : ClRegs → ClRegs) :
    (b.modCr c f).cl c = { b.cl c with regs := f (b.cl c).regs } := b.cl_modCl_self c _

/-! ### ENG.CLn_CTL -/

theorem Blk.writeRegF_clCtl (b : Blk) (m : List Host.Cell) (src : Src) {c : Nat} (hc : c < 16) (v : Word) (fail : Option Nat) :
    b.writeRegF m src (0xD0100 + 32 * c) v fail = b.writeClCtl m src c v := by
  have hblock : (0xD0100 + 32 * c) / 0x10000 = 13 := by omega
  have hreg : regIdx ((0xD0100 + 32 * c) % 0x10000) 0x100 32 16 = some (c, 0) := by
    rw [show (0xD0100 + 32 * c) % 0x10000 = 0x100 + 32 * c + 0 by omega]
    exact regIdx_group _ _ _ _ _ hc (by decide)
  simp only [Blk.writeRegF, hblock, Blk.writeEng, hreg]

/-- The word of ENG.CLn_CTL with this EN and RSV (07 Table 7-8). -/
def clCtlWord (en : Bool) (rsv : Nat) : Word := BitVec.ofNat 32 (pack [(b2n en, 1, 0), (rsv, 4, 4)])

theorem clCtlWord_fields (en : Bool) {rsv : Nat} (hr : rsv < 16) :
    bit (clCtlWord en rsv).toNat 0 = en ∧
    bits (clCtlWord en rsv).toNat 7 4 = rsv := by
  have all : ∀ en : Bool, ∀ rsv < 16, bit (clCtlWord en rsv).toNat 0 = en ∧
    bits (clCtlWord en rsv).toNat 7 4 = rsv := by decide
  exact all en rsv hr

/-- Both rows are writes of ENG.CLn_CTL. -/
theorem exec_clusterCtl {s : State} (h : s.blk.Port4) (id : BitVec 8) {c : Nat} (hc : c < 16) (rsv : Nat) (en : Bool) :
    exec (if en then .clusterEnable (.fp4 id) c rsv else .clusterDisable (.fp4 id) c rsv) s =
      s.becomes (s.blk.writeClCtl s.mem (.fp4 id) c (clCtlWord en rsv)) := by
  have hrow : exec (if en then .clusterEnable (.fp4 id) c rsv else .clusterDisable (.fp4 id) c rsv) s =
      s.clusterCtl (.fp4 id) c rsv (b2n en) := by cases en <;> rfl
  rw [hrow, State.clusterCtl, if_pos hc, State.writeReg_becomes h (by omega), Blk.writeRegF_clCtl _ _ _ hc, clCtlWord]

/-- What a write that R313 and R359 discard would lose: RSV while admitted classes are live, or the cluster of an admitted
source. -/
def Blk.clCtlLoses (b : Blk) (c : Nat) (en : Bool) (rsv : Nat) : Bool :=
  (b.classesLive && rsv < (b.cl c).regs.rsv) || ((b.cl c).regs.en && !en && b.admittedOn c)

section
variable {b : Blk} {c : Nat} {en : Bool} {rsv : Nat}

theorem Blk.writeClCtl_of_loses (m : List Host.Cell) (src : Src) (hr : rsv < 16) (hl : b.clCtlLoses c en rsv = true) :
    b.writeClCtl m src c (clCtlWord en rsv) = b.rwlRefuse := by
  obtain ⟨hen, hrsv⟩ := clCtlWord_fields en hr
  simp only [Blk.clCtlLoses] at hl
  simp only [Blk.writeClCtl, hen, hrsv, hl, if_true]

/-- A write from an agent that does not hold the Setup Lock and that changes EN is refused, whatever it would lose. -/
theorem Blk.NotHolder.writeClCtl_eq {id : BitVec 8} (h : b.NotHolder id) (m : List Host.Cell) (hr : rsv < 16)
    (hchange : en ≠ (b.cl c).regs.en) : b.writeClCtl m (.fp4 id) c (clCtlWord en rsv) = b.rwlRefuse := by
  obtain ⟨hen, -⟩ := clCtlWord_fields en hr
  have hdiff : (en != (b.cl c).regs.en) = true := by simpa using hchange
  simp only [Blk.writeClCtl, hen, hdiff, Bool.true_or, h.rwl_eq, ite_self]

/-- The holder of the Setup Lock writes RSV, then EN. -/
theorem Blk.Holder.writeClCtl_eq {id : BitVec 8} {a : Nat} (h : b.Holder id a) (m : List Host.Cell) (hr : rsv < 16)
    (hl : b.clCtlLoses c en rsv = false) (hchange : en ≠ (b.cl c).regs.en) :
    b.writeClCtl m (.fp4 id) c (clCtlWord en rsv) =
      if en then (b.modCr c (fun r => { r with rsv := rsv })).clEnable c
      else (b.modCr c (fun r => { r with rsv := rsv })).clDisable c := by
  obtain ⟨hen, hrsv⟩ := clCtlWord_fields en hr
  simp only [Blk.clCtlLoses] at hl
  simp only [Blk.writeClCtl, hen, hrsv, hl, Bool.false_eq_true, if_false, h.rwl_eq, hchange]

end

theorem Blk.onlyCl_clEnable (b : Blk) (c : Nat) : b.OnlyCl (b.clEnable c) c := b.onlyCl_modCr c _
theorem Blk.onlyCl_clDisable (b : Blk) (c : Nat) : b.OnlyCl (b.clDisable c) c := b.onlyCl_modCr c _

theorem Blk.classesLive_of_mem {b : Blk} {y : MSrc} (h : y ∈ b.adm) : b.classesLive = true := by
  cases hadm : b.adm with
  | nil => rw [hadm] at h; cases h
  | cons _ _ => simp [Blk.classesLive, hadm]

theorem Blk.admittedOn_of_mem {b : Blk} {c : Nat} {y : MSrc} (h : y ∈ b.adm) (hcv : y.2.clause.cv = true)
    (hclus : y.2.clause.clus = c) : b.admittedOn c = true :=
  List.any_eq_true.2 ⟨y, h, by simp [hcv, hclus]⟩

/-- Nothing is lost without a live admitted class, or by an enabling that keeps RSV. -/
theorem Blk.clCtlLoses_eq_false {b : Blk} {c rsv : Nat} {en : Bool}
    (h : b.adm = [] ∨ (en = true ∧ (b.cl c).regs.rsv ≤ rsv)) : b.clCtlLoses c en rsv = false := by
  rcases h with h | ⟨rfl, h⟩
  · simp [Blk.clCtlLoses, Blk.classesLive, Blk.admittedOn, h]
  · simp [Blk.clCtlLoses, h]

/-! ### The end of a drain -/

theorem Blk.clusterDrained_of_held {b : Blk} {c : Nat} (h : b.clusterQuiet c = false) : b.clusterDrained c = b := by
  simp [Blk.clusterDrained, h]

/-- Outside SELFTEST the end of a drain leaves the cluster ENABLED or DISABLED as EN says. -/
theorem Blk.clusterDrained_of_quiet {b : Blk} {c : Nat} (hst : (b.cl c).regs.st = .busy) (hq : b.clusterQuiet c = true)
    (hprog : ∀ f k, b.ops.prog ≠ .selftest f k) :
    b.clusterDrained c = b.modCr c (fun r => { r with st := if r.en then .enabled else .disabled }) := by
  have hgo : ¬ ((b.cl c).regs.st ≠ .busy || !b.clusterQuiet c) = true := by simp [hst, hq]
  unfold Blk.clusterDrained
  rw [if_neg hgo]
  split
  case h_1 fail k hp => exact absurd hp (hprog fail k)
  case h_2 => rfl

/-! ### ENG.CLn_REVIVE -/

/-- One engine that the write names and that is out of service is reset and returns. -/
def Blk.reviveOne (b : Blk) (c : Nat) (mask : BitVec 16) (k : Nat) : Blk :=
  if mask.getLsbD k && setHas (b.cl c).regs.offline k then
    (b.setEngine c k (fun _ => {})).modCl c (fun x => { x with regs := { x.regs with offline := setDel x.regs.offline k } })
  else b

theorem Blk.revive_eq (b : Blk) (c : Nat) (mask : BitVec 16) :
    b.revive c mask = (List.range 16).foldl (fun b k => b.reviveOne c mask k) b := rfl

theorem Blk.onlyCl_reviveOne (b : Blk) (c : Nat) (mask : BitVec 16) (k : Nat) : b.OnlyCl (b.reviveOne c mask k) c := by
  unfold Blk.reviveOne
  split
  · exact (b.onlyCl_modCl c _).trans (Blk.onlyCl_modCl _ c _)
  · exact .refl b c

theorem Blk.reviveOne_offline (b : Blk) (c : Nat) (mask : BitVec 16) (k j : Nat) :
    setHas ((b.reviveOne c mask k).cl c).regs.offline j =
      (setHas (b.cl c).regs.offline j && !(decide (j = k) && mask.getLsbD j)) := by
  have hdel : ∀ t : NSet, setHas (setDel t k) j = if j = k then false else setHas t j := fun t => setHas_setPut t k j false
  unfold Blk.reviveOne
  by_cases hj : j = k
  · subst hj
    cases hm : mask.getLsbD j <;> cases ho : setHas (b.cl c).regs.offline j <;>
      simp [Blk.setEngine, Cluster.setEngine, hdel, ho]
  · split <;> simp [Blk.setEngine, Cluster.setEngine, hdel, hj]

theorem Blk.reviveOne_engine (b : Blk) (c : Nat) (mask : BitVec 16) (k j : Nat) :
    tabGet {} ((b.reviveOne c mask k).cl c).engines j =
      if j = k ∧ mask.getLsbD j = true ∧ setHas (b.cl c).regs.offline j = true then {} else tabGet {} (b.cl c).engines j := by
  unfold Blk.reviveOne
  by_cases hj : j = k
  · subst hj
    cases hm : mask.getLsbD j <;> cases ho : setHas (b.cl c).regs.offline j <;> simp [Blk.setEngine, Cluster.setEngine]
  · split <;> simp [Blk.setEngine, Cluster.setEngine, tabGet_tabMod, hj]

/-- Reviving a list of engines returns those that the write names, and no other. -/
theorem Blk.reviveList_offline (c : Nat) (mask : BitVec 16) (l : List Nat) (b : Blk) (j : Nat) :
    setHas ((l.foldl (fun b k => b.reviveOne c mask k) b).cl c).regs.offline j =
      (setHas (b.cl c).regs.offline j && !(decide (j ∈ l) && mask.getLsbD j)) := by
  induction l generalizing b with
  | nil => simp
  | cons k l ih =>
    rw [List.foldl_cons, ih, Blk.reviveOne_offline]
    cases mask.getLsbD j <;> simp [Bool.and_assoc]

/-- Reviving a list of engines resets those that the write names and that are out of service, and no other. -/
theorem Blk.reviveList_engine (c : Nat) (mask : BitVec 16) (l : List Nat) (b : Blk) (j : Nat) :
    tabGet {} ((l.foldl (fun b k => b.reviveOne c mask k) b).cl c).engines j =
      if j ∈ l ∧ mask.getLsbD j = true ∧ setHas (b.cl c).regs.offline j = true then {} else tabGet {} (b.cl c).engines j := by
  induction l generalizing b with
  | nil => simp
  | cons k l ih =>
    rw [List.foldl_cons, ih, Blk.reviveOne_offline, Blk.reviveOne_engine]
    by_cases hj : j = k
    · subst hj; cases mask.getLsbD j <;> cases setHas (b.cl c).regs.offline j <;> simp
    · simp [hj]

theorem Blk.onlyCl_reviveList (c : Nat) (mask : BitVec 16) (l : List Nat) (b : Blk) :
    b.OnlyCl (l.foldl (fun b k => b.reviveOne c mask k) b) c := by
  induction l generalizing b with
  | nil => exact .refl b c
  | cons k l ih => exact (b.onlyCl_reviveOne c mask k).trans (ih _)

theorem Blk.writeRegF_revive (b : Blk) (m : List Host.Cell) (src : Src) {c : Nat} (hc : c < 16) (v : Word) (fail : Option Nat) :
    b.writeRegF m src (0xD0108 + 32 * c) v fail = b.revive c (v.setWidth 16) := by
  have hblock : (0xD0108 + 32 * c) / 0x10000 = 13 := by omega
  have hreg : regIdx ((0xD0108 + 32 * c) % 0x10000) 0x100 32 16 = some (c, 8) := by
    rw [show (0xD0108 + 32 * c) % 0x10000 = 0x100 + 32 * c + 8 by omega]
    exact regIdx_group _ _ _ _ _ hc (by decide)
  simp only [Blk.writeRegF, hblock, Blk.writeEng, hreg]

theorem exec_engineRevive {s : State} (h : s.blk.Port4) (id : BitVec 8) {c : Nat} (hc : c < 16) (mask : BitVec 16) :
    exec (.engineRevive (.fp4 id) c mask) s = s.becomes (s.blk.revive c mask) := by
  have hword : (BitVec.ofNat 32 mask.toNat).setWidth 16 = mask := by
    apply BitVec.eq_of_toNat_eq; have := mask.isLt; simp
  show execEngineRevive (.fp4 id) c mask s = _
  rw [execEngineRevive, if_pos hc, State.writeReg_becomes h (by omega), Blk.writeRegF_revive _ _ _ hc, hword]

end Sys2Proof.Machine

/-! TDM.LINKn_CTL: quiesce, service and retraining of a link (06 R230, R250, R251, R254, R255). -/
namespace Sys2Proof.Machine
open Sys2Proof

theorem Blk.writeRegF_linkCtl (b : Blk) (m : List Host.Cell) (src : Src) {n : Nat} (hn : n < 16) (v : Word) (fail : Option Nat) :
    b.writeRegF m src (0xF0110 + 32 * n) v fail = b.writeLinkCtl m src n v := by
  have hblock : (0xF0110 + 32 * n) / 0x10000 = 15 := by omega
  have hreg : regIdx ((0xF0110 + 32 * n) % 0x10000) 0x100 32 16 = some (n, 16) := by
    rw [show (0xF0110 + 32 * n) % 0x10000 = 0x100 + 32 * n + 16 by omega]
    exact regIdx_group _ _ _ _ _ hn (by decide)
  simp only [Blk.writeRegF, hblock, Blk.writeTdm, hreg]

/-- The word of TDM.LINKn_CTL with this QUIESCE, WAKE_EN and RETRAIN (06 Table 6-12). -/
def linkCtlWord (q w r : Bool) : Word := BitVec.ofNat 32 (pack [(b2n q, 1, 0), (b2n w, 1, 1), (b2n r, 1, 2)])

theorem linkCtlWord_fields : ∀ q w r : Bool,
    bit (linkCtlWord q w r).toNat 0 = q ∧ bit (linkCtlWord q w r).toNat 1 = w ∧ bit (linkCtlWord q w r).toNat 2 = r := by decide

/-- The three rows are writes of TDM.LINKn_CTL. -/
theorem State.linkCtl_becomes {s : State} (h : s.blk.Port4) (id : BitVec 8) {n : Nat} (hn : n < 16) (q w r : Bool) :
    s.linkCtl (.fp4 id) n (b2n q) w (b2n r) = s.becomes (s.blk.writeLinkCtl s.mem (.fp4 id) n (linkCtlWord q w r)) := by
  rw [State.linkCtl, if_pos hn, State.writeReg_becomes h (by omega), Blk.writeRegF_linkCtl _ _ _ hn, linkCtlWord]

theorem Blk.writeLinkCtl_of_unpopulated {b : Blk} {n : Nat} (h : (b.link n).pop = false) (m : List Host.Cell) (src : Src)
    (v : Word) : b.writeLinkCtl m src n v = b := by
  simp [Blk.writeLinkCtl, h]

/-- WAKE_EN rewritten with its value leaves the link as it was. -/
theorem Blk.link_modLink_wakeEn {b : Blk} {n : Nat} {w : Bool} (h : (b.link n).wakeEn = w) :
    (b.modLink n (fun l => { l with wakeEn := w })).link n = b.link n := by
  rw [Blk.link_modLink_self, ← h]

/-- Without a change of WAKE_EN no lock is asked for: QUIESCE is written, then RETRAIN. -/
theorem Blk.writeLinkCtl_of_wakeEn {b : Blk} {n : Nat} {q w r : Bool} (hpop : (b.link n).pop = true)
    (hw : (b.link n).wakeEn = w) (m : List Host.Cell) (src : Src) :
    b.writeLinkCtl m src n (linkCtlWord q w r) =
      let b' := (b.modLink n (fun l => { l with wakeEn := w })).writeQuiesce m n q
      if r then b'.writeRetrain n else b' := by
  obtain ⟨hq, hw', hr⟩ := linkCtlWord_fields q w r
  simp only [Blk.writeLinkCtl, hq, hw', hr, hpop, hw, Bool.not_true, Bool.false_eq_true, if_false, bne_self_eq_false,
    Blk.rwl_unchanged]

/-! ### Training begins -/

@[simp] theorem Blk.link_modTa (b : Blk) (n k : Nat) (f : Agent → Agent) : (b.modTa n f).link k = b.link k := rfl

/-- What the start of a series of training attempts leaves of a link. -/
theorem Blk.link_startTraining (b : Blk) (n : Nat) (st : LState) : (b.startTraining n st).link n =
    { (b.link n).dropCtl with st := st, tries := 0, service := false, waking := false, clkOn := true, ph := .idling,
                              reports := [], e := {} } := by
  simp only [Blk.startTraining, Blk.trainStep1, Blk.link_modTa, Blk.link_modLink_self]
  rfl

/-- RETRAIN is entered, counted, and the answers not yet sent are settled. -/
theorem Blk.link_retrain (b : Blk) (n : Nat) : ((b.retrain n).link n).st = .retrain ∧
    ((b.retrain n).link n).retrains = (b.link n).retrains + 1 ∧
    ((b.retrain n).link n).handles = tabMap {} (fun _ x => x.settled) (b.link n).handles := by
  simp only [Blk.retrain, Blk.link_startTraining, Blk.link_modTa, Blk.link_modLink_self, Link.dropCtl, and_self]

/-! ### QUIESCE and RETRAIN -/

section
variable {b : Blk} (m : List Host.Cell) {n : Nat}

/-- A quiesce of a link in UP whose output queue is empty (06 R254). -/
theorem Blk.link_writeQuiesce_up (hst : (b.link n).st = .up) (hq : (b.link n).outq = []) :
    (b.writeQuiesce m n true).link n =
      { b.link n with quiesce := true, st := .quiescing, ph := .none, ctl := (b.link n).ctl ++ [rec24 9 0] } := by
  simp only [Blk.writeQuiesce, hst, if_true, Blk.startQuiesce, Blk.link_modLink_self, hq, List.map_nil, setOf,
    List.foldl_nil, Blk.ctlRec]

/-- Service of a QUIESCED link (06 R255). -/
theorem Blk.link_writeQuiesce_quiesced (hst : (b.link n).st = .quiesced) :
    ((b.writeQuiesce m n false).link n).st = .training ∧ ((b.writeQuiesce m n false).link n).quiesce = false := by
  simp only [Blk.writeQuiesce, hst, Bool.false_eq_true, if_false, Blk.link_startTraining, Blk.link_modLink_self, Link.dropCtl,
    and_self]

/-- Service of a QUIESCING link is remembered (06 R255). -/
theorem Blk.link_writeQuiesce_quiescing (hst : (b.link n).st = .quiescing) :
    (b.writeQuiesce m n false).link n = { b.link n with quiesce := false, service := true } := by
  simp only [Blk.writeQuiesce, hst, Bool.false_eq_true, if_false, Blk.link_modLink_self]

/-- QUIESCE = 0 written to a link that is not QUIESCED leaves its state, its count and its handles. -/
theorem Blk.link_writeQuiesce_false (hst : (b.link n).st ≠ .quiesced) :
    ((b.writeQuiesce m n false).link n).st = (b.link n).st ∧
    ((b.writeQuiesce m n false).link n).retrains = (b.link n).retrains ∧
    ((b.writeQuiesce m n false).link n).handles = (b.link n).handles := by
  simp only [Blk.writeQuiesce, Bool.false_eq_true, if_false]
  split
  case h_1 h => exact absurd h hst
  case h_2 h => simp only [Blk.link_modLink_self, and_self]
  case h_3 => simp only [Blk.link_modLink_self, and_self]

theorem Blk.writeRetrain_of_up (hst : (b.link n).st = .up ∨ (b.link n).st = .quiescing) : b.writeRetrain n = b.retrain n := by
  have hnot : (b.link n).st ≠ .failed := by rcases hst with h | h <;> simp [h]
  rw [Blk.writeRetrain, if_neg hnot, Blk.retrainIf, if_pos hst]

theorem Blk.writeRetrain_of_failed (hst : (b.link n).st = .failed) : b.writeRetrain n = b.startTraining n .training :=
  if_pos hst

end

end Sys2Proof.Machine

/-! Clusters and links under control of software: the obligation. -/
namespace Sys2Proof.Machine
open Sys2Proof

section
variable {s : State} {id : BitVec 8} {c rsv : Nat}

theorem exec_clusterDisable_of_holder {a : Nat} (h : s.blk.Holder id a) (hc : c < 16) (hr : rsv < 16)
    (hen : (s.blk.cl c).regs.en = true) (hst : (s.blk.cl c).regs.st = .enabled) (hadm : s.blk.adm = []) :
    ∃ b, exec (.clusterDisable (.fp4 id) c rsv) s = s.becomes b ∧
      b.cl c = { s.blk.cl c with regs := { (s.blk.cl c).regs with en := false, st := .busy, rsv := rsv } } ∧
      s.blk.OnlyCl b c := by
  have hrow := exec_clusterCtl h.toPort4 id hc rsv false
  rw [h.writeClCtl_eq s.mem hr (Blk.clCtlLoses_eq_false (.inl hadm)) (by simp [hen])] at hrow
  exact ⟨_, hrow, by simp [Blk.clDisable, hst], (Blk.onlyCl_modCr ..).trans (Blk.onlyCl_clDisable ..)⟩

theorem exec_clusterEnable_of_holder {a : Nat} (h : s.blk.Holder id a) (hc : c < 16) (hr : rsv < 16)
    (hen : (s.blk.cl c).regs.en = false) (hkeep : s.blk.adm = [] ∨ (s.blk.cl c).regs.rsv ≤ rsv) :
    ∃ b, exec (.clusterEnable (.fp4 id) c rsv) s = s.becomes b ∧
      b.cl c = { s.blk.cl c with regs := { (s.blk.cl c).regs with
        en := true, rsv := rsv, st := if (s.blk.cl c).regs.st = .disabled then .enabled else (s.blk.cl c).regs.st } } ∧
      s.blk.OnlyCl b c := by
  have hrow := exec_clusterCtl h.toPort4 id hc rsv true
  rw [h.writeClCtl_eq s.mem hr (Blk.clCtlLoses_eq_false (hkeep.imp_right (⟨rfl, ·⟩))) (by simp [hen])] at hrow
  exact ⟨_, hrow, by simp [Blk.clEnable], (Blk.onlyCl_modCr ..).trans (Blk.onlyCl_clEnable ..)⟩

/-- A write that would lose what R313 and R359 protect is refused whole. -/
theorem exec_clusterCtl_of_loses (h : s.blk.Port4) (hc : c < 16) (hr : rsv < 16) {en : Bool}
    (hl : s.blk.clCtlLoses c en rsv = true) :
    ∃ b, exec (if en then .clusterEnable (.fp4 id) c rsv else .clusterDisable (.fp4 id) c rsv) s = s.becomes b ∧
      s.blk.Refused b := by
  refine ⟨_, exec_clusterCtl h id hc rsv en, ?_⟩
  rw [Blk.writeClCtl_of_loses s.mem _ hr hl]
  exact s.blk.refused_rwlRefuse

/-- A write that changes EN is refused whole from an agent that does not hold the Setup Lock. -/
theorem exec_clusterCtl_of_notHolder (h : s.blk.NotHolder id) (hc : c < 16) (hr : rsv < 16) :
    ∃ b, exec (if (s.blk.cl c).regs.en then .clusterDisable (.fp4 id) c rsv else .clusterEnable (.fp4 id) c rsv) s =
      s.becomes b ∧ s.blk.Refused b := by
  have hrow := exec_clusterCtl h.toPort4 id hc rsv (!(s.blk.cl c).regs.en)
  rw [h.writeClCtl_eq s.mem hr (by simp)] at hrow
  refine ⟨_, ?_, s.blk.refused_rwlRefuse⟩
  rw [← hrow]
  cases (s.blk.cl c).regs.en <;> rfl

theorem exec_engineRevive_returns (h : s.blk.Port4) (hc : c < 16) (mask : BitVec 16) :
    ∃ b, exec (.engineRevive (.fp4 id) c mask) s = s.becomes b ∧ s.blk.OnlyCl b c ∧ ∀ k < 16,
      (mask.getLsbD k = true → setHas (s.blk.cl c).regs.offline k = true →
        tabGet {} (b.cl c).engines k = {} ∧ setHas (b.cl c).regs.offline k = false) ∧
      (mask.getLsbD k = false ∨ setHas (s.blk.cl c).regs.offline k = false →
        tabGet {} (b.cl c).engines k = tabGet {} (s.blk.cl c).engines k ∧
        setHas (b.cl c).regs.offline k = setHas (s.blk.cl c).regs.offline k) := by
  refine ⟨_, exec_engineRevive h id hc mask, Blk.onlyCl_reviveList c mask _ s.blk, fun k hk => ?_⟩
  simp only [Blk.revive_eq, Blk.reviveList_engine, Blk.reviveList_offline, List.mem_range, hk]
  refine ⟨fun hm ho => by simp [hm, ho], ?_⟩
  rintro (hm | ho)
  · simp [hm]
  · simp [ho]

theorem exec_clusterDrainEnd (ha : s.blk.awake = true) (hc : c < 16) :
    exec (.clusterDrainEnd c) s = s.becomes (s.blk.clusterDrained c) := by
  show execClusterDrainEnd c s = _
  simp [execClusterDrainEnd, Blk.when, ha, hc, State.becomes]

/-! ### Links -/

/-- A row of TDM.LINKn_CTL that leaves WAKE_EN is performed, whoever writes it. -/
theorem State.linkCtl_of_wakeEn (h : s.blk.Port4) (hc : c < 16) (hpop : (s.blk.link c).pop = true) (q r : Bool) :
    ∃ b : Blk, b.link c = s.blk.link c ∧ s.linkCtl (.fp4 id) c (b2n q) (s.blk.link c).wakeEn (b2n r) =
      s.becomes (if r then (b.writeQuiesce s.mem c q).writeRetrain c else b.writeQuiesce s.mem c q) :=
  ⟨_, Blk.link_modLink_wakeEn rfl, by rw [State.linkCtl_becomes h id hc, Blk.writeLinkCtl_of_wakeEn hpop rfl]⟩

theorem exec_linkQuiesce_up (h : s.blk.Port4) (hc : c < 16) (hpop : (s.blk.link c).pop = true)
    (hst : (s.blk.link c).st = .up) (hq : (s.blk.link c).outq = []) :
    ∃ b, exec (.linkQuiesce (.fp4 id) c (s.blk.link c).wakeEn) s = s.becomes b ∧ b.link c =
      { s.blk.link c with quiesce := true, st := .quiescing, ph := .none, ctl := (s.blk.link c).ctl ++ [rec24 9 0] } := by
  obtain ⟨b, hb, hrow⟩ := State.linkCtl_of_wakeEn (id := id) h hc hpop true false
  rw [← hb] at hst hq
  exact ⟨_, hrow, by rw [← hb]; exact Blk.link_writeQuiesce_up s.mem hst hq⟩

theorem exec_linkService_quiesced (h : s.blk.Port4) (hc : c < 16) (hpop : (s.blk.link c).pop = true)
    (hst : (s.blk.link c).st = .quiesced) :
    ∃ b, exec (.linkService (.fp4 id) c (s.blk.link c).wakeEn) s = s.becomes b ∧
      (b.link c).st = .training ∧ (b.link c).quiesce = false := by
  obtain ⟨b, hb, hrow⟩ := State.linkCtl_of_wakeEn (id := id) h hc hpop false false
  exact ⟨_, hrow, Blk.link_writeQuiesce_quiesced s.mem (hb ▸ hst)⟩

theorem exec_linkService_quiescing (h : s.blk.Port4) (hc : c < 16) (hpop : (s.blk.link c).pop = true)
    (hst : (s.blk.link c).st = .quiescing) :
    ∃ b, exec (.linkService (.fp4 id) c (s.blk.link c).wakeEn) s = s.becomes b ∧
      b.link c = { s.blk.link c with quiesce := false, service := true } := by
  obtain ⟨b, hb, hrow⟩ := State.linkCtl_of_wakeEn (id := id) h hc hpop false false
  rw [← hb] at hst
  exact ⟨_, hrow, by rw [← hb]; exact Blk.link_writeQuiesce_quiescing s.mem hst⟩

theorem exec_linkRetrain_up (h : s.blk.Port4) (hc : c < 16) (hpop : (s.blk.link c).pop = true)
    (hst : (s.blk.link c).st = .up ∨ (s.blk.link c).st = .quiescing) :
    ∃ b, exec (.linkRetrain (.fp4 id) c (s.blk.link c).wakeEn) s = s.becomes b ∧
      (b.link c).st = .retrain ∧ (b.link c).retrains = (s.blk.link c).retrains + 1 ∧
      (b.link c).handles = tabMap {} (fun _ x => x.settled) (s.blk.link c).handles := by
  obtain ⟨b, hb, hrow⟩ := State.linkCtl_of_wakeEn (id := id) h hc hpop false true
  rw [← hb] at hst
  obtain ⟨hst', hretrains, hhandles⟩ := Blk.link_writeQuiesce_false s.mem (b := b) (n := c)
    (by rcases hst with h | h <;> simp [h])
  refine ⟨_, hrow, ?_⟩
  rw [if_pos rfl, Blk.writeRetrain_of_up (by rwa [hst']), ← hb, ← hretrains, ← hhandles]
  exact Blk.link_retrain _ c

theorem exec_linkRetrain_failed (h : s.blk.Port4) (hc : c < 16) (hpop : (s.blk.link c).pop = true)
    (hst : (s.blk.link c).st = .failed) :
    ∃ b, exec (.linkRetrain (.fp4 id) c (s.blk.link c).wakeEn) s = s.becomes b ∧ (b.link c).st = .training := by
  obtain ⟨b, hb, hrow⟩ := State.linkCtl_of_wakeEn (id := id) h hc hpop false true
  rw [← hb] at hst
  obtain ⟨hst', -, -⟩ := Blk.link_writeQuiesce_false s.mem (b := b) (n := c) (by simp [hst])
  refine ⟨_, hrow, ?_⟩
  rw [if_pos rfl, Blk.writeRetrain_of_failed (by rwa [hst']), Blk.link_startTraining]

/-- A link of an unpopulated tile ignores its rows. -/
theorem State.linkCtl_unpopulated (h : s.blk.Port4) (hc : c < 16) (hpop : (s.blk.link c).pop = false) (q w r : Bool) :
    s.linkCtl (.fp4 id) c (b2n q) w (b2n r) = s.becomes s.blk := by
  rw [State.linkCtl_becomes h id hc, Blk.writeLinkCtl_of_unpopulated hpop]

end

/-- Settles O50: each row is the write of one register, of which the lemmas above say what it makes of its cluster or
link. -/
theorem clustersAndLinksAreControlled : Obligations.ClustersAndLinksAreControlled := by
  unfold Obligations.ClustersAndLinksAreControlled
  intro s c rsv id hc hr
  refine ⟨fun a h => ⟨?disable, ?enable⟩, fun h => ⟨fun y hy => ⟨?lowers, ?admitted⟩, ?revive⟩, ?notHolder,
    fun ha hst => ⟨?drained, ?held⟩, ?links⟩
  case disable => exact fun hen hst hadm => exec_clusterDisable_of_holder h hc hr hen hst hadm
  case enable => exact fun hen hkeep => exec_clusterEnable_of_holder h hc hr hen hkeep
  case lowers =>
    rintro hlt cmd (rfl | rfl)
    · exact exec_clusterCtl_of_loses h hc hr (en := true) (by simp [Blk.clCtlLoses, Blk.classesLive_of_mem hy, hlt])
    · exact exec_clusterCtl_of_loses h hc hr (en := false) (by simp [Blk.clCtlLoses, Blk.classesLive_of_mem hy, hlt])
  case admitted =>
    intro hcv hclus hen
    exact exec_clusterCtl_of_loses h hc hr (en := false)
      (by simp [Blk.clCtlLoses, Blk.admittedOn_of_mem hy hcv hclus, hen])
  case revive => exact exec_engineRevive_returns h hc
  case notHolder =>
    rintro h cmd rfl
    exact exec_clusterCtl_of_notHolder h hc hr
  case drained =>
    intro hq hprog
    refine ⟨_, exec_clusterDrainEnd ha hc, ?_⟩
    rw [Blk.clusterDrained_of_quiet hst hq hprog]
    exact ⟨Blk.cl_modCr_self .., Blk.onlyCl_modCr ..⟩
  case held => exact fun hq => by rw [exec_clusterDrainEnd ha hc, Blk.clusterDrained_of_held hq]
  case links =>
    rintro w _ h rfl
    refine ⟨exec_linkQuiesce_up h hc, exec_linkService_quiesced h hc, exec_linkService_quiescing h hc,
      exec_linkRetrain_up h hc, exec_linkRetrain_failed h hc, fun hpop cmd hcmd => ?_⟩
    simp only [List.mem_cons, List.not_mem_nil, or_false] at hcmd
    obtain rfl | rfl | rfl := hcmd
    · exact State.linkCtl_unpopulated h hc hpop true _ false
    · exact State.linkCtl_unpopulated h hc hpop false _ false
    · exact State.linkCtl_unpopulated h hc hpop false _ true

end Sys2Proof.Machine

/-! Reads and writes of registers at FP4: access errors, access codes, and the latch of a pair (00 R6 to R13; 14 R544;
17 R601 to R606). -/
namespace Sys2Proof.Machine
open Sys2Proof

/-! ### Access errors -/

/-- ERR after an access error of this kind at this offset (14 R544). -/
def Err.afterAccess (e : Err) (kind off : Nat) (write : Bool) : Err :=
  { e with accCnt := satInc e.accCnt, st := { e.st with access := true }, accCap := if e.accCap.valid then e.accCap
      else { kind := kind, offset := off / 4, write := write, valid := true } }

/-- What an access error leaves: block ERR, a report, and at most block DBG beside them. -/
def Blk.AccessError (b0 b : Blk) (kind off : Nat) (write : Bool) : Prop :=
  b.err = b0.err.afterAccess kind off write ∧ (b.lane 24).reports = (b0.lane 24).reports ++ [0x06] ∧
  { b with err := b0.err, ing := b0.ing, dbg := b0.dbg } = b0

theorem Blk.accError_modDbg (b : Blk) (f : Dbg → Dbg) {kind off : Nat} {write : Bool} (hoff : off < 0x100000) :
    b.AccessError ((b.modDbg f).accError kind off write) kind off write := by
  have hcap : off / 4 % 2 ^ 18 = off / 4 := Nat.mod_eq_of_lt (by omega)
  refine ⟨?_, ?_, rfl⟩
  · simp only [Blk.accError, hcap, Err.afterAccess]; rfl
  · simp [Blk.accError, Blk.raise, Blk.lane, Blk.modLane, Blk.modDbg]

section
variable {b : Blk} {id : BitVec 8} {off size : Nat} {pe : Bool}

/-- A write at FP4 that is not an aligned 32-bit one, or fails its header parity, does nothing else (00 R6; 14 R544). -/
theorem Blk.accessError_regWrite (h : b.Port4) (m : List Host.Cell) (v : Word) (hoff : off < 0x100000)
    (hbad : size ≠ 4 ∨ off % 4 ≠ 0 ∨ pe = true) :
    b.AccessError (b.regWrite m (.fp4 id) off size v pe) (if pe then 2 else 1) off true := by
  have hwhole : (size = 4 && off % 4 = 0 && !pe) = false := by rcases hbad with h | h | h <;> simp [h]
  have hb : b.regWrite m (.fp4 id) off size v pe = b.badGo (.fp4 id) true off pe := by
    simp only [Blk.regWrite, if_neg (Nat.not_le.2 hoff), hwhole, Bool.false_eq_true, if_false,
      Blk.fp4_of_awake h.awake h.intact]
  rw [hb]
  exact b.accError_modDbg _ hoff

/-- Such a read is an access error too, and returns 0. -/
theorem Blk.accessError_regRead (h : b.Port4) (m : List Host.Cell) (hoff : off < 0x100000)
    (hbad : size ≠ 4 ∨ off % 4 ≠ 0 ∨ pe = true) :
    b.AccessError (b.regRead m (.fp4 id) off size pe) (if pe then 2 else 1) off false ∧
    tabGet 0 (b.regRead m (.fp4 id) off size pe).dbg.rdata id.toNat = 0 := by
  have hwhole : (size = 4 && off % 4 = 0 && !pe) = false := by rcases hbad with h | h | h <;> simp [h]
  have hb : b.regRead m (.fp4 id) off size pe = b.badGo (.fp4 id) false off pe := by
    simp only [Blk.regRead, if_neg (Nat.not_le.2 hoff), hwhole, Bool.false_eq_true, if_false,
      Blk.fp4_of_awake h.awake h.intact]
  rw [hb]
  exact ⟨b.accError_modDbg (fun d => { d with hiLatch := tabDel d.hiLatch id.toNat, rdata := tabSet 0 d.rdata id.toNat 0 }) hoff,
    tabGet_tabSet_self 0 b.dbg.rdata id.toNat 0⟩

end

/-! ### Writes by access code -/

/-- REGISTER_WRITE of a whole word outside block DBG is what its register makes of it. -/
theorem exec_registerWrite {s : State} (h : s.blk.Port4) {off : Nat} (hoff : off < 0x100000) (hal : off % 4 = 0)
    (hdbg : off / 0x10000 ≠ 9) (id : BitVec 8) (v : Word) :
    exec (.registerWrite (.fp4 id) off 4 v false) s = s.becomes (s.blk.writeRegF s.mem (.fp4 id) off v none) := by
  show execRegisterWrite (.fp4 id) off 4 v false s = _
  simp [execRegisterWrite, Blk.regWrite, Nat.not_le.2 hoff, hal, h.writeBy_eq hdbg, State.becomes]

/-- A register whose fields are all RWL takes its new value from the holder of the Setup Lock, unless it has it. -/
theorem Blk.Holder.rwlWord_eq {b : Blk} {id : BitVec 8} {a : Nat} (h : b.Holder id a) (m : List Host.Cell) (old new : Word)
    (f : Word → Blk → Blk) : b.rwlWord m (.fp4 id) old new f = if old = new then b else f new b := by
  simp only [Blk.rwlWord, h.rwl_eq]

theorem Blk.NotHolder.rwlWord_eq {b : Blk} {id : BitVec 8} (h : b.NotHolder id) (m : List Host.Cell) {old new : Word}
    (hne : old ≠ new) (f : Word → Blk → Blk) : b.rwlWord m (.fp4 id) old new f = b.rwlRefuse := by
  rw [Blk.rwlWord, if_neg hne, h.rwl_eq]

@[simp] theorem Blk.rwlWord_same (b : Blk) (m : List Host.Cell) (src : Src) (w : Word) (f : Word → Blk → Blk) :
    b.rwlWord m src w w f = b := if_pos rfl

section
variable (b : Blk) (m : List Host.Cell) (src : Src) (v : Word) (fail : Option Nat)

/-- Block HID is read-only. -/
theorem Blk.writeRegF_hid {off : Nat} (hoff : off < 0x10000) : b.writeRegF m src off v fail = b := by
  simp only [Blk.writeRegF, show off / 0x10000 = 0 by omega]

theorem Blk.writeRegF_msiwinLo : b.writeRegF m src 0x10010 v fail =
    b.rwlWord m src b.hctl.msiLo (v &&& 0xFFFFF000) (fun v b => { b with hctl := { b.hctl with msiLo := v } }) := rfl

theorem Blk.writeRegF_scrubCfg : b.writeRegF m src 0x70014 v fail =
    { b with err := { b.err with scrubPeriod := v.setWidth 8, scrubEn := v.getLsbD 8 } } := rfl

theorem Blk.writeRegF_errStatus : b.writeRegF m src 0x70000 v fail = { b with err := { b.err with st := { b.err.st with
    ce := b.err.st.ce && !v.getLsbD 0, ueRec := b.err.st.ueRec && !v.getLsbD 1, ueSur := b.err.st.ueSur && !v.getLsbD 2,
    access := b.err.st.access && !v.getLsbD 4, fpFail := b.err.st.fpFail && !v.getLsbD 5,
    scrubLate := b.err.st.scrubLate && !v.getLsbD 6 } } } := rfl

theorem Blk.writeRegF_ceCnt : b.writeRegF m src 0x70020 v fail =
    if v = 0 then { b with err := { b.err with ceCnt := 0 } } else b := rfl

end

/-! ### Reads, and the latch of a HI half -/

/-- What a read at FP4 leaves of block DBG: the value for its agent, and the latch of a LO half's other half. -/
def Blk.dbgAfterRead (b : Blk) (id : BitVec 8) (off : Nat) : Dbg :=
  { b.dbg with
    rdata := tabSet 0 b.dbg.rdata id.toNat (b.valueFor (.fp4 id) off),
    hiLatch := if isLo off then tabSet (0, 0) (tabDel b.dbg.hiLatch id.toNat) id.toNat (off + 4, b.readReg (off + 4))
      else tabDel b.dbg.hiLatch id.toNat }

/-- A read changes nothing outside block DBG; the one of DBG.TRACE_DATA_HI takes a record besides. -/
theorem Blk.readBy_eq (b : Blk) (id : BitVec 8) {off : Nat} (hoff : off ≠ 0x90038) :
    b.readBy (.fp4 id) off = { b with dbg := b.dbgAfterRead id off } := by
  unfold Blk.readBy Blk.dbgAfterRead
  rw [if_neg hoff]
  cases isLo off <;> rfl

/-- LO_HALF_READ of a whole word in RUN. -/
theorem exec_loHalfRead {s : State} (ha : s.blk.awake = true) (hi : setHas s.blk.fp.badIn 4 = false) {off : Nat}
    (hoff : off < 0x100000) (hal : off % 4 = 0) (htrace : off ≠ 0x90038) (id : BitVec 8) :
    exec (.loHalfRead (.fp4 id) off 4 false) s = s.becomes { s.blk with dbg := s.blk.dbgAfterRead id off } := by
  show execLoHalfRead (.fp4 id) off 4 false s = _
  simp [execLoHalfRead, Blk.regRead, Nat.not_le.2 hoff, hal, Blk.readAccess, Blk.fp4_of_awake ha hi,
    Blk.readBy_eq _ _ htrace, State.becomes]

/-- The latch of an agent answers a read of its offset; every other read returns the register. -/
theorem Blk.valueFor_of_latch {b : Blk} {id : BitVec 8} {lo : Nat} {hi : Word}
    (h : tabGet (0, 0) b.dbg.hiLatch id.toNat = (lo, hi)) (off : Nat) :
    b.valueFor (.fp4 id) off = if lo = off ∧ off ≠ 0 then hi else b.readReg off := by
  simp only [Blk.valueFor, srcKey, h, Bool.and_eq_true, decide_eq_true_eq]

end Sys2Proof.Machine

/-! Registers under their access codes: the obligation. -/
namespace Sys2Proof.Machine
open Sys2Proof

/-! ### The registers that the statement reads -/

section
variable (b : Blk)

theorem Blk.readReg_ceCnt : b.readReg 0x70020 = b.err.ceCnt := rfl
theorem Blk.readReg_msiwinLo : b.readReg 0x10010 = b.hctl.msiLo := rfl
theorem Blk.readReg_memLo : b.readReg 0x90028 = b.dbg.mw.lo := rfl
theorem Blk.readReg_memHi : b.readReg 0x9002C = b.dbg.mw.hi := rfl

theorem Blk.readReg_liveLo {n : Nat} (hn : n < 16) : b.readReg (0xF0100 + 32 * n) = (b.link n).live.setWidth 32 := by
  have hblock : (0xF0100 + 32 * n) / 0x10000 = 15 := by omega
  have hoff : (0xF0100 + 32 * n) % 0x10000 = 0x100 + 32 * n + 0 := by omega
  simp only [Blk.readReg, hblock, hoff, Blk.readTdm, regIdx_group 0x100 32 16 n 0 hn (by decide)]
  rw [if_neg (by omega)]
  exact (BitVec.setWidth_eq_extractLsb' (by decide)).symm

theorem Blk.readReg_liveHi {n : Nat} (hn : n < 16) :
    b.readReg (0xF0100 + 32 * n + 4) = (b.link n).live.extractLsb' 32 32 := by
  have hblock : (0xF0100 + 32 * n + 4) / 0x10000 = 15 := by omega
  have hoff : (0xF0100 + 32 * n + 4) % 0x10000 = 0x100 + 32 * n + 4 := by omega
  simp only [Blk.readReg, hblock, hoff, Blk.readTdm, regIdx_group 0x100 32 16 n 4 hn (by decide)]
  rw [if_neg (by omega)]
  rfl

end

theorem isLo_live {n : Nat} (hn : n < 16) : isLo (0xF0100 + 32 * n) = true := by
  have hreg := regIdx_group 0xF0100 32 16 n 0 hn (by decide)
  rw [Nat.add_zero] at hreg
  simp [isLo, hreg]

/-! ### Reads -/

/-- A read gives its agent this value and changes nothing outside block DBG. -/
def State.Gives (s : State) (id : BitVec 8) (off : Nat) (x : Word) (b : Blk) : Prop :=
  exec (.loHalfRead (.fp4 id) off 4 false) s = s.becomes b ∧ tabGet 0 b.dbg.rdata id.toNat = x ∧
  { b with dbg := s.blk.dbg } = s.blk

section
variable {s : State} {id : BitVec 8} {off lo : Nat} {hi : Word}

/-- A whole word read: the latch of its agent answers if it stands at this offset, else the register does. -/
theorem exec_loHalfRead_gives (ha : s.blk.awake = true) (hintact : setHas s.blk.fp.badIn 4 = false)
    (hl : tabGet (0, 0) s.blk.dbg.hiLatch id.toNat = (lo, hi)) (hoff : off < 0x100000) (hal : off % 4 = 0)
    (htrace : off ≠ 0x90038) :
    s.Gives id off (if lo = off ∧ off ≠ 0 then hi else s.blk.readReg off) { s.blk with dbg := s.blk.dbgAfterRead id off } := by
  refine ⟨exec_loHalfRead ha hintact hoff hal htrace id, ?_, rfl⟩
  rw [← Blk.valueFor_of_latch hl]
  exact tabGet_tabSet_self 0 s.blk.dbg.rdata id.toNat _

/-- A read of any register but a LO half leaves its agent no latch. -/
theorem Blk.hiLatch_dbgAfterRead (b : Blk) (h : isLo off = false) :
    (b.dbgAfterRead id off).hiLatch = tabDel b.dbg.hiLatch id.toNat := by
  simp only [Blk.dbgAfterRead, h, Bool.false_eq_true, if_false]

/-- A read of a LO half latches the HI half for its agent. -/
theorem Blk.hiLatch_dbgAfterRead_lo (b : Blk) (h : isLo off = true) (hhi : b.readReg (off + 4) = hi) :
    tabGet (0, 0) (b.dbgAfterRead id off).hiLatch id.toNat = (off + 4, hi) := by
  simp only [Blk.dbgAfterRead, h, if_true, hhi]
  exact tabGet_tabSet_self _ _ _ _

/-- With no latch standing, a whole word read returns the register. -/
theorem exec_loHalfRead_of_noLatch (h : s.blk.Port4) (id : BitVec 8) (hoff : off < 0x100000) (hal : off % 4 = 0)
    (htrace : off ≠ 0x90038) {x : Word} (hx : s.blk.readReg off = x) :
    s.Gives id off x { s.blk with dbg := s.blk.dbgAfterRead id off } := by
  have hl : tabGet ((0, 0) : Nat × Word) s.blk.dbg.hiLatch id.toNat = (0, 0) := by rw [h.noLatch]; rfl
  have hread := exec_loHalfRead_gives h.awake h.intact hl hoff hal htrace
  rwa [if_neg (fun e => e.2 e.1.symm), hx] at hread

end

/-! ### The clauses -/

section
variable {s : State} {id : BitVec 8} {v : Word}

theorem exec_writeMsiwinLo (h : s.blk.Port4) : exec (.registerWrite (.fp4 id) 0x10010 4 v false) s =
    s.becomes (s.blk.rwlWord s.mem (.fp4 id) s.blk.hctl.msiLo (v &&& 0xFFFFF000)
      (fun v b => { b with hctl := { b.hctl with msiLo := v } })) := by
  rw [exec_registerWrite h (by decide) (by decide) (by decide), Blk.writeRegF_msiwinLo]

/-- The holder of the Setup Lock sets the page, whatever it was. -/
theorem exec_writeMsiwinLo_of_holder {a : Nat} (h : s.blk.Holder id a) :
    exec (.registerWrite (.fp4 id) 0x10010 4 v false) s =
      s.becomes { s.blk with hctl := { s.blk.hctl with msiLo := v &&& 0xFFFFF000 } } := by
  rw [exec_writeMsiwinLo h.toPort4, h.rwlWord_eq]
  split
  case isTrue heq => rw [← heq]
  case isFalse => rfl

/-- The latch of MEM_HI answers its agent's next read of it, and any other read ends it. -/
theorem exec_loHalfRead_latched (ha : s.blk.awake = true) (hintact : setHas s.blk.fp.badIn 4 = false) {hi : Word}
    (hl : tabGet (0, 0) s.blk.dbg.hiLatch id.toNat = (0x9002C, hi)) :
    (∃ b, s.Gives id 0x9002C hi b ∧ tabGet (0, 0) b.dbg.hiLatch id.toNat = (0, 0)) ∧
    (∃ b, s.Gives id 0x70020 s.blk.err.ceCnt b ∧ tabGet (0, 0) b.dbg.hiLatch id.toNat = (0, 0)) := by
  have hgone : ∀ off, isLo off = false → tabGet (0, 0) (s.blk.dbgAfterRead id off).hiLatch id.toNat = (0, 0) := fun off hlo => by
    rw [Blk.hiLatch_dbgAfterRead _ hlo, tabGet_tabDel, if_pos rfl]
  exact ⟨⟨_, exec_loHalfRead_gives ha hintact hl (by decide) (by decide) (by decide), hgone _ (by decide)⟩,
    ⟨_, exec_loHalfRead_gives ha hintact hl (by decide) (by decide) (by decide), hgone _ (by decide)⟩⟩

end

/-- Settles O59: an access error, a write by each access code, and a read with its latch, as the lemmas above give them. -/
theorem registersFollowTheirAccessCodes : Obligations.RegistersFollowTheirAccessCodes := by
  unfold Obligations.RegistersFollowTheirAccessCodes
  intro s id v ha hintact
  have port : s.blk.dbg.hiLatch = [] → s.blk.Port4 := fun hl => ⟨ha, hintact, hl⟩
  refine ⟨fun hl off size pe hoff hbad => ⟨?badWrite, ?badRead⟩, fun hl => ⟨?rw, ?w1c, ?counter, ?readOnly, ?unchanged⟩,
    ?holder, ?notHolder, fun hl => ⟨?readCounter, ?readRwl, ?readLo, ?readLive⟩, ?latched⟩
  case badWrite =>
    obtain ⟨herr, hrep, hrest⟩ := Blk.accessError_regWrite (id := id) (port hl) s.mem v hoff hbad
    exact ⟨_, rfl, herr, hrep, hrest⟩
  case badRead =>
    obtain ⟨⟨herr, hrep, hrest⟩, hzero⟩ := Blk.accessError_regRead (id := id) (port hl) s.mem hoff hbad
    exact ⟨_, ⟨rfl, herr, hrep, hrest⟩, hzero⟩
  case rw => exact ⟨_, exec_registerWrite (port hl) (by decide) (by decide) (by decide) id v, Blk.writeRegF_scrubCfg ..⟩
  case w1c => exact ⟨_, exec_registerWrite (port hl) (by decide) (by decide) (by decide) id v, Blk.writeRegF_errStatus ..⟩
  case counter => exact ⟨_, exec_registerWrite (port hl) (by decide) (by decide) (by decide) id v, Blk.writeRegF_ceCnt ..⟩
  case readOnly =>
    intro off hoff hal
    rw [exec_registerWrite (port hl) (by omega) hal (by omega), Blk.writeRegF_hid _ _ _ _ _ hoff]
  case unchanged =>
    intro hsame
    rw [exec_writeMsiwinLo (port hl), hsame, Blk.rwlWord_same]
  case holder => exact fun a h => ⟨_, exec_writeMsiwinLo_of_holder h, rfl⟩
  case notHolder =>
    intro h hne
    refine ⟨_, exec_writeMsiwinLo h.toPort4, ?_⟩
    rw [h.rwlWord_eq s.mem hne.symm]
    exact s.blk.refused_rwlRefuse
  case readCounter =>
    refine ⟨_, exec_loHalfRead_of_noLatch (port hl) id (by decide) (by decide) (by decide) s.blk.readReg_ceCnt, ?_⟩
    show (s.blk.dbgAfterRead id 0x70020).hiLatch = []
    rw [Blk.hiLatch_dbgAfterRead _ (by decide), hl]
    rfl
  case readRwl => exact ⟨_, exec_loHalfRead_of_noLatch (port hl) id (by decide) (by decide) (by decide) s.blk.readReg_msiwinLo⟩
  case readLo =>
    exact ⟨_, exec_loHalfRead_of_noLatch (port hl) id (by decide) (by decide) (by decide) s.blk.readReg_memLo,
      Blk.hiLatch_dbgAfterRead_lo _ (by decide) s.blk.readReg_memHi⟩
  case readLive =>
    intro n hn
    exact ⟨_, exec_loHalfRead_of_noLatch (port hl) id (by omega) (by omega) (by omega) (s.blk.readReg_liveLo hn),
      Blk.hiLatch_dbgAfterRead_lo _ (isLo_live hn) (s.blk.readReg_liveHi hn)⟩
  case latched => exact fun hi hl => exec_loHalfRead_latched ha hintact hl

end Sys2Proof.Machine

/-! The state after reset, and a step without a command. -/
namespace Sys2Proof.Machine
open Sys2Proof

/-- With no command waiting, one period of the clock that runs passes. -/
theorem step_of_idle {s : State} (h : s.pending = []) : step s = s.run (fun m b => b.tick m) := by
  simp only [step, h]

/-- Settles O3: what reset holds is read off `State.reset`, its registers by evaluation; an idle step changes the block alone. -/
theorem resetAndIdleSteps : Obligations.ResetAndIdleSteps := by
  unfold Obligations.ResetAndIdleSteps
  refine ⟨rfl, rfl, rfl, ⟨rfl, rfl, rfl, rfl, rfl, rfl, rfl, rfl, rfl, rfl, rfl, rfl, rfl, rfl, ?registers⟩, ?idle⟩
  case registers => decide
  case idle => exact fun s h => ⟨_, step_of_idle h, h, rfl⟩

end Sys2Proof.Machine

/-! Operating points, bypass, aging steps and the time base (01 R27 to R37; 02 R78, R83; 13 R509, R511). -/
namespace Sys2Proof.Machine
open Sys2Proof

/-! ### Time that passes while the clocks are held -/

/-- While nobody holds the Setup Lock no lease runs out, and what passes is the time base and the tick. -/
theorem Blk.elapse_of_unlocked {b : Blk} (h : b.lock.held = false) (m : List Host.Cell) (d : Nat) :
    b.elapse m d =
      { b with
        time := { b.time with tb := b.time.tb + BitVec.ofNat 64 ((b.time.sixths + d) / 6), sixths := (b.time.sixths + d) % 6,
                              us := (b.time.us + d) % 6000, ms := (b.time.ms + (b.time.us + d) / 6000) % 1000 },
        tim := { b.tim with tick := b.tim.tick + (b.time.us + d) / 6000 } } := by
  simp [Blk.elapse, Blk.microseconds, h]

/-! ### A write of CLK.OPCTL -/

theorem Blk.start_of_awake {b : Blk} (h : b.awake = true) : b.aon.start = none := by
  simp only [Blk.awake, Blk.inRun, Bool.and_eq_true, Option.isNone_iff_eq_none] at h
  obtain ⟨⟨⟨_, hstart⟩, _⟩, _⟩ := h
  exact hstart

/-- The word of CLK.OPCTL with this TARGET and FLOOR (01 Table 1-5). -/
def opctlWord (t fl : BitVec 2) : Word := BitVec.ofNat 32 (pack [(t.toNat, 2, 0), (fl.toNat, 2, 8)])

theorem opctlWord_target : ∀ t fl : BitVec 2, (opctlWord t fl).setWidth 2 = t := by decide
theorem opctlWord_floor : ∀ t fl : BitVec 2, (opctlWord t fl).extractLsb' 8 2 = fl := by decide

/-- FLOOR needs the Setup Lock where it changes; TARGET is then judged by itself. -/
theorem exec_opctlTargetWrite {s : State} (h : s.blk.Port4) (id : BitVec 8) (t fl : BitVec 2) :
    exec (.opctlTargetWrite (.fp4 id) t fl) s =
      s.becomes (s.blk.rwl s.mem (.fp4 id) (fl != s.blk.clk.floor)
        (fun b => ({ b with clk := { b.clk with floor := fl } }).writeTarget t)) := by
  have hwrite : exec (.opctlTargetWrite (.fp4 id) t fl) s =
      s.becomes (s.blk.writeBy s.mem (.fp4 id) 0x40000 (opctlWord t fl)) := rfl
  have hreg : s.blk.writeRegF s.mem (.fp4 id) 0x40000 (opctlWord t fl) none =
      s.blk.rwl s.mem (.fp4 id) ((opctlWord t fl).extractLsb' 8 2 != s.blk.clk.floor) (fun b =>
        ({ b with clk := { b.clk with floor := (opctlWord t fl).extractLsb' 8 2 } }).writeTarget ((opctlWord t fl).setWidth 2)) := rfl
  rw [hwrite, h.writeBy_eq (by decide), hreg, opctlWord_target, opctlWord_floor]

/-- The same write with FLOOR as it is. -/
theorem exec_writeTarget {s : State} (h : s.blk.Port4) (id : BitVec 8) (t : BitVec 2) :
    exec (.opctlTargetWrite (.fp4 id) t s.blk.clk.floor) s = s.becomes (s.blk.writeTarget t) := by
  rw [exec_opctlTargetWrite h, bne_self_eq_false, Blk.rwl_unchanged]

/-- The cause for which a write of TARGET is refused, 0 for none (01 R29, R30; DESIGN CHOICE 108). -/
def Blk.targetCause (b : Blk) (t : BitVec 2) : BitVec 2 :=
  if t = 3 then 3
  else if b.clk.switching = true ∨ b.clk.bypass = true ∨ b.pwr.seq.seq ≠ .none ∨ b.pwr.cfg.measured = false then 1
  else if b.adm ≠ [] ∧ b.clk.floorLive < t then 2 else 0

theorem Blk.classesLive_iff (b : Blk) : b.classesLive = true ↔ b.adm ≠ [] := by
  cases h : b.adm <;> simp [Blk.classesLive, h]

/-- Outside a start a write of TARGET is refused for its cause, or starts a change: upward with the request of the voltage,
downward with the switch ready (01 R28 to R31). -/
theorem Blk.writeTarget_eq {b : Blk} (hstart : b.aon.start = none) (t : BitVec 2) :
    b.writeTarget t =
      if b.targetCause t ≠ 0 then b.opRefuse (b.targetCause t)
      else if t < b.clk.curOp then ({ b with clk := { b.clk with target := t, switching := true } }).opVoltage
      else { b with clk := { b.clk with target := t, switching := true, ready := some t } } := by
  have hbusy : (b.clk.switching || b.clk.bypass || b.pwr.seq.seq ≠ .none || b.aon.start.isSome || !b.pwr.cfg.measured) = true ↔
      (b.clk.switching = true ∨ b.clk.bypass = true ∨ b.pwr.seq.seq ≠ .none ∨ b.pwr.cfg.measured = false) := by
    simp [hstart, or_assoc]
  have hfloor : (b.classesLive && decide (b.clk.floorLive < t)) = true ↔ (b.adm ≠ [] ∧ b.clk.floorLive < t) := by
    rw [Bool.and_eq_true, b.classesLive_iff, decide_eq_true_eq]
  simp only [Blk.writeTarget, Blk.targetCause, hbusy, hfloor]
  by_cases h3 : t = 3
  · simp [h3]
  rw [if_neg h3, if_neg h3]
  split
  · simp
  split <;> simp

/-! ### A change of the operating point -/

/-- An upward change requests the voltage of its point before the switch. -/
theorem Blk.opVoltage_up {b : Blk} (hs : b.clk.switching = true) (hr : b.clk.ready = none) (ha : b.pwr.seq.avs = none)
    (hup : b.clk.target < b.clk.curOp) :
    b.opVoltage = b.avsWrite (.opUp b.clk.curOp b.clk.target) (b.voltage b.clk.target) := by
  simp [Blk.opVoltage, hs, hr, ha, hup]

/-- Any other one requests it after the switch. -/
theorem Blk.opVoltage_down {b : Blk} (hs : b.clk.switching = true) (hr : b.clk.ready = none) (ha : b.pwr.seq.avs = none)
    (hdown : ¬ b.clk.target < b.clk.curOp) :
    b.opVoltage = b.avsWrite (.opDown b.clk.target) (b.voltage b.clk.target) := by
  simp [Blk.opVoltage, hs, hr, ha, hdown]

theorem Blk.opVoltage_of_steady {b : Blk} (hs : b.clk.switching = false) : b.opVoltage = b := by
  simp [Blk.opVoltage, hs]

/-- From `b0` to `b` the clocks were held for 4 HCLK of period `p`, in which the time base went on (01 R28). -/
def Blk.HeldFor (b0 b : Blk) (p : Nat) : Prop :=
  b.time.tb = b0.time.tb + BitVec.ofNat 64 ((b0.time.sixths + 4 * p) / 6) ∧ b.time.hclk = b0.time.hclk

theorem Blk.heldFor_clocksHeld {b : Blk} (h : b.lock.held = false) (m : List Host.Cell) (p : Nat) :
    b.HeldFor (b.clocksHeld m p) p ∧ (b.clocksHeld m p).clk = b.clk ∧ (b.clocksHeld m p).pwr = b.pwr := by
  rw [Blk.clocksHeld, Blk.elapse_of_unlocked h]
  exact ⟨⟨rfl, rfl⟩, rfl, rfl⟩

theorem Blk.opSwitch_up {b : Blk} {t : BitVec 2} (hr : b.clk.ready = some t) (hup : t < b.clk.curOp) (m : List Host.Cell) :
    b.opSwitch m = ({ b with clk := { b.clk with ready := none, curOp := t, switching := false } }).clocksHeld m
      (max (opTicks t) (opTicks b.clk.curOp)) := by
  simp [Blk.opSwitch, hr, hup]

theorem Blk.opSwitch_down {b : Blk} {t : BitVec 2} (hr : b.clk.ready = some t) (hdown : ¬ t < b.clk.curOp)
    (ht : b.clk.target = t) (hs : b.clk.switching = true) (ha : b.pwr.seq.avs = none) (m : List Host.Cell) :
    b.opSwitch m = (({ b with clk := { b.clk with ready := none } }).avsWrite (.opDown t) (b.voltage t)).clocksHeld m
      (max (opTicks t) (opTicks b.clk.curOp)) := by
  subst ht
  simp only [Blk.opSwitch, hr, if_neg hdown]
  exact congrArg (Blk.clocksHeld · m _) (Blk.opVoltage_down (b := { b with clk := { b.clk with ready := none } }) hs rfl ha hdown)

/-! ### The answers to a write on the AVSBus (02 R83; 13 R509) -/

theorem Blk.injHit_of_noArm {b : Blk} (h : b.inj.arm = []) (k sel : Nat) : b.injHit k sel = false := by
  simp [Blk.injHit, h, setHas]

@[simp] theorem Blk.reports_raise (b : Blk) (k : Nat) : ((b.raise k).lane 24).reports = (b.lane 24).reports ++ [k] := by
  simp [Blk.raise]

/-- The block after the frames of an acknowledged write, its target read back as written. -/
def Blk.avsAcked (b : Blk) (v n : Nat) : Blk :=
  b.modSeq (fun q => { q with avs := none, mv := v, bus := q.bus ++ List.replicate n (b.avsTarget v) ++ b.avsReads })

/-- What an acknowledgement makes of the block, by the occasion of the write. -/
def Blk.onAvsAck (b : Blk) (m : List Host.Cell) (o : AvsOcc) (v n : Nat) : Blk :=
  match o with
  | .opUp _ new => (b.avsAcked v n).opUpAck new
  | .opDown new => (b.avsAcked v n).opDownEnd new
  | .aging => ((b.avsAcked v n).agingTaken.raise 0x63).opVoltage
  | .startAging => (b.avsExchange v n).startS8Ack m v
  | .deepEntry again => if again then (b.avsAcked v n).exitDeepGo true true else (b.avsAcked v n).deepDone
  | .exitDeep => { b.avsAcked v n with clk := { b.clk with pllOn := true } }
  | .exitOff => (b.avsAcked v n).offVoltage

section
variable {b : Blk} {o : AvsOcc} {v n : Nat}

theorem Blk.avsDone_avsExchange (hn : n ≤ 3) : (b.avsExchange v n).avsDone (some v) = b.avsAcked v n := by
  simp only [Blk.avsExchange, Blk.avsDone, Blk.avsAcked, Blk.modSeq, Nat.min_eq_left hn, if_pos hn, Option.getD_some]

/-- An acknowledgement after at most three resent frames ends the write. -/
theorem Blk.avsAck_of_acknowledged (ha : b.pwr.seq.avs = some (o, v)) (harm : b.inj.arm = []) (hn : n ≤ 3)
    (m : List Host.Cell) : b.avsAck m n true v = b.onAvsAck m o v n := by
  have hacks : avsAcks v n true v = true := by simp [avsAcks, hn]
  have hinj : (b.avsExchange v n).injHit 22 0 = false := Blk.injHit_of_noArm harm _ _
  simp only [Blk.avsAck, ha, hacks, hinj, Bool.not_true, Bool.false_eq_true, if_false, Blk.avsDone_avsExchange hn]
  cases o <;> rfl

/-- Answers that do not acknowledge the write leave it to its time. -/
theorem Blk.avsAck_of_unacknowledged {k : Nat} {done : Bool} {back : Nat} (ha : b.pwr.seq.avs = some (o, v))
    (hno : 3 < k ∨ done = false ∨ back ≠ v) (m : List Host.Cell) : b.avsAck m k done back = b.avsExchange v k := by
  have hacks : avsAcks v k done back = false := by
    rcases hno with h | h | h <;> simp [avsAcks, h]
  simp only [Blk.avsAck, ha, hacks, Bool.not_false, if_true]

/-- What 50 µs without an acknowledgement make of the block, by the occasion of the write (13 R509, R510). -/
def Blk.onAvsTimeout (b : Blk) (o : AvsOcc) (v : Nat) : Blk :=
  match o with
  | .opUp old _ => (b.avsDone none).opUpFails old
  | .opDown new => ((b.avsDone none).opDownEnd new).vtimeout
  | .aging => (b.avsDone none).vtimeout.opVoltage
  | .startAging => (b.avsDone none).startFail 6
  | .deepEntry again => (b.avsDone none).deepTimeout again
  | .exitDeep | .exitOff => (b.avsWrite o v).modSeq (fun q => { q with vtDue := true })

theorem Blk.avsTimeout_of_running (ha : b.pwr.seq.avs = some (o, v)) : b.avsTimeout = b.onAvsTimeout o v := by
  simp only [Blk.avsTimeout, ha]
  cases o <;> rfl

end

/-! ### Loss of lock and the return from bypass (01 R34 to R37) -/

/-- Loss of lock in RUN or IDLE: bypass, and its two reports. -/
theorem Blk.lockLoss_eq {b : Blk} (hup : b.up = true) (hst : b.pwr.regs.state ≠ .sleep) (hl : b.clk.lock = true)
    (harm : b.inj.arm = []) :
    b.lockLoss = (({ b with clk := { b.clk with
      bypass := true, lockLost := true, lock := false, pllOn := false, back := false } }).raise 0x60).raise 0x81 := by
  simp [Blk.lockLoss, hup, hst, hl, Blk.injHit_of_noArm harm]

theorem Blk.relockAttempt_eq {b : Blk} (hup : b.up = true) (hb : b.clk.bypass = true) (hseq : b.dbg.haltSeq = false) :
    b.relockAttempt = { b with clk := { b.clk with pllOn := true } } := by
  simp [Blk.relockAttempt, hup, hb, hseq]

section
variable {b : Blk} (hb : b.clk.bypass = true) (hon : b.clk.pllOn = true) (hl : b.clk.lock = false) (hstart : b.aon.start = none)
include hb hon hl hstart

/-- A lock in bypass, outside a start, ends bypass at a frame boundary. -/
theorem Blk.pllLock_of_bypass_at_frame (hframe : b.time.hclk = 0) (m : List Host.Cell) :
    b.pllLock m = ({ b with clk := { b.clk with lock := true, bypass := false, back := false } }).clocksHeld m 120 := by
  simp [Blk.pllLock, hb, hon, hl, hstart, Blk.bypassEnd, Blk.bypassGo, hframe]

/-- Elsewhere in the frame it makes the return ready. -/
theorem Blk.pllLock_of_bypass_off_frame (hframe : b.time.hclk ≠ 0) (m : List Host.Cell) :
    b.pllLock m = { b with clk := { b.clk with lock := true, back := true } } := by
  simp [Blk.pllLock, hb, hon, hl, hstart, Blk.bypassEnd, Blk.bypassGo, hframe]

end

/-! ### Aging steps (13 R511) -/

/-- Too little margin, and room for a step: its write goes out at once where nothing stands before it. -/
theorem Blk.agingRead_of_wanted {b : Blk} {need : Nat} (hrun : b.inRun = true) (hneed : b.pwr.cfg.offset.toNat < need)
    (hroom : b.pwr.cfg.offset.toNat < 40) (hseq : b.pwr.seq.seq = .none) (hs : b.clk.switching = false)
    (ha : b.pwr.seq.avs = none) :
    b.agingRead need = (({ b with pins := { b.pins with need := need } }).modSeq (fun q => { q with agingDue := false })).agingWrite
      .aging b.clk.curOp := by
  have hrun' : ∀ b' : Blk, b'.pwr.regs = b.pwr.regs → b'.aon = b.aon → b'.pwr.seq.hubReset = b.pwr.seq.hubReset →
      b'.inRun = true := fun b' h1 h2 h3 => by simp only [Blk.inRun, h1, h2, h3]; exact hrun
  simp [Blk.agingRead, hrun, Blk.agingWants, hneed, hroom, Blk.agingGo, Blk.modSeq, hrun', hseq, hs, ha]

theorem Blk.agingRead_of_notWanted {b : Blk} {need : Nat} (hrun : b.inRun = true)
    (hno : need ≤ b.pwr.cfg.offset.toNat ∨ 40 ≤ b.pwr.cfg.offset.toNat) :
    b.agingRead need = { b with pins := { b.pins with need := need } } := by
  have hwants : (decide (b.pwr.cfg.offset.toNat < need) && decide (b.pwr.cfg.offset.toNat < 40)) = false := by
    rw [Bool.and_eq_false_iff, decide_eq_false_iff_not, decide_eq_false_iff_not]; omega
  simp [Blk.agingRead, hrun, Blk.agingWants, hwants]

/-! ### The commands -/

section
variable {s : State}

/-- Off the frame boundary, or with no switch ready, nothing switches. -/
theorem exec_opSwitch_of_notDue (h : s.blk.clk.ready = none ∨ s.blk.time.hclk ≠ 0) :
    exec .opSwitch s = s.becomes s.blk := by
  have hkeep : s.blk.when (s.blk.inRun && s.blk.time.hclk = 0) (fun b => b.opSwitch s.mem) = s.blk := by
    rcases h with h | h
    · simp [Blk.when, Blk.opSwitch, h]
    · simp [Blk.when, h]
  show s.becomes (s.blk.when (s.blk.inRun && s.blk.time.hclk = 0) (fun b => b.opSwitch s.mem)) = _
  rw [hkeep]

theorem exec_opSwitch (hrun : s.blk.inRun = true) (hframe : s.blk.time.hclk = 0) :
    exec .opSwitch s = s.becomes (s.blk.opSwitch s.mem) := by
  show s.becomes (s.blk.when (s.blk.inRun && s.blk.time.hclk = 0) (fun b => b.opSwitch s.mem)) = _
  simp [Blk.when, hrun, hframe]

end

/-- Settles O51: each clause is one command, by the equation above for what it makes of the block. -/
theorem operatingPointsAndTimeBase : Obligations.OperatingPointsAndTimeBase := by
  unfold Obligations.OperatingPointsAndTimeBase
  intro s b0 c q cfg mv tells held
  refine ⟨fun id t hport => ?target, fun id t floor hfloor => ⟨?notHolder, ?holder⟩,
    fun hrun hlock hframe => ⟨?switchUp, ?switchDown⟩, exec_opSwitch_of_notDue,
    fun v n harm hn => ⟨?noAck, ?opUp, ?opDown, ?agingStep, ?lockLoss⟩, ?relock,
    fun hb hon hl hstart => ⟨?lockAtFrame, ?lockOffFrame⟩, ⟨_, rfl, rfl, rfl⟩, fun tb => ⟨_, rfl, rfl, rfl⟩,
    fun need hrun => ⟨?aging, ?noAging⟩⟩
  case target =>
    have hwrite := exec_writeTarget hport id t
    rw [Blk.writeTarget_eq (Blk.start_of_awake hport.awake)] at hwrite
    refine ⟨fun (hc : s.blk.targetCause t ≠ 0) => ?_, fun (hc : s.blk.targetCause t = 0) hup hr ha => ?_,
      fun (hc : s.blk.targetCause t = 0) hdown => ?_⟩
    · rw [if_pos hc] at hwrite
      exact ⟨_, hwrite, rfl, rfl⟩
    · rw [if_neg (not_not_intro hc), if_pos hup,
        Blk.opVoltage_up (b := { b0 with clk := { c with target := t, switching := true } }) rfl hr ha hup] at hwrite
      exact ⟨_, hwrite, rfl, rfl⟩
    · rw [if_neg (not_not_intro hc), if_neg hdown] at hwrite
      exact ⟨_, hwrite, rfl, rfl⟩
  case notHolder =>
    intro h
    have hwrite := exec_opctlTargetWrite h.toPort4 id t floor
    rw [bne_iff_ne.2 hfloor, h.rwl_eq] at hwrite
    exact ⟨_, hwrite, Blk.refused_rwlRefuse _⟩
  case holder =>
    rintro a h rfl
    have hwrite := exec_opctlTargetWrite h.toPort4 id 3 floor
    rw [h.rwl_eq] at hwrite
    exact ⟨_, hwrite, rfl⟩
  case switchUp =>
    intro t hr hup
    obtain ⟨hheld, hclk, hpwr⟩ := Blk.heldFor_clocksHeld
      (b := { b0 with clk := { c with ready := none, curOp := t, switching := false } })
      hlock s.mem (max (opTicks t) (opTicks c.curOp))
    exact ⟨_, (exec_opSwitch hrun hframe).trans (congrArg s.becomes (Blk.opSwitch_up hr hup s.mem)), hclk, hpwr, hheld⟩
  case switchDown =>
    intro t hr hdown ht hs ha
    obtain ⟨hheld, hclk, hpwr⟩ := Blk.heldFor_clocksHeld
      (b := ({ b0 with clk := { c with ready := none } }).avsWrite (.opDown t) (b0.voltage t))
      hlock s.mem (max (opTicks t) (opTicks c.curOp))
    exact ⟨_, (exec_opSwitch hrun hframe).trans (congrArg s.becomes (Blk.opSwitch_down hr hdown ht hs ha s.mem)),
      hclk, hpwr, hheld⟩
  case noAck =>
    intro o k done back ha hno
    exact ⟨_, congrArg s.becomes (Blk.avsAck_of_unacknowledged ha hno s.mem), rfl, rfl, rfl, rfl, rfl⟩
  case opUp =>
    intro old new ha
    exact ⟨⟨_, congrArg s.becomes (Blk.avsAck_of_acknowledged ha harm hn s.mem), rfl, rfl⟩,
      _, congrArg s.becomes (Blk.avsTimeout_of_running ha), rfl, rfl, Blk.reports_raise _ _⟩
  case opDown =>
    intro new ha
    exact ⟨⟨_, congrArg s.becomes (Blk.avsAck_of_acknowledged ha harm hn s.mem), rfl, rfl⟩,
      _, congrArg s.becomes (Blk.avsTimeout_of_running ha), rfl, rfl, Blk.reports_raise _ _⟩
  case agingStep =>
    intro ha hs
    exact ⟨⟨_, congrArg s.becomes ((Blk.avsAck_of_acknowledged ha harm hn s.mem).trans (Blk.opVoltage_of_steady hs)), rfl, rfl,
        Blk.reports_raise _ _⟩,
      _, congrArg s.becomes ((Blk.avsTimeout_of_running ha).trans (Blk.opVoltage_of_steady hs)), rfl, rfl, Blk.reports_raise _ _⟩
  case lockLoss =>
    intro hup hst hl
    refine ⟨_, congrArg s.becomes (Blk.lockLoss_eq hup hst hl harm), rfl, ?_⟩
    rw [Blk.reports_raise, Blk.reports_raise, List.append_assoc]
    rfl
  case relock => exact fun hup hb hseq => ⟨_, congrArg s.becomes (Blk.relockAttempt_eq hup hb hseq), rfl⟩
  case lockAtFrame =>
    intro hframe hlock
    obtain ⟨hheld, hclk, -⟩ := Blk.heldFor_clocksHeld
      (b := { b0 with clk := { c with lock := true, bypass := false, back := false } }) hlock s.mem 120
    exact ⟨_, congrArg s.becomes (Blk.pllLock_of_bypass_at_frame hb hon hl hstart hframe s.mem), hclk, hheld⟩
  case lockOffFrame =>
    intro hframe
    exact ⟨_, congrArg s.becomes (Blk.pllLock_of_bypass_off_frame hb hon hl hstart hframe s.mem), rfl⟩
  case aging =>
    intro hneed hroom hseq hs ha
    exact ⟨_, congrArg s.becomes (Blk.agingRead_of_wanted hrun hneed hroom hseq hs ha), rfl, rfl⟩
  case noAging => exact fun hno => ⟨_, congrArg s.becomes (Blk.agingRead_of_notWanted hrun hno), rfl⟩

end Sys2Proof.Machine

/-! What the update of an entry, and all that it sets in motion, leaves alone: power, clocks, starts, configuration, the
STT and the states of the domains (04 R154 to R162; 05 R176 to R193; 06 R233). -/
namespace Sys2Proof.Machine
open Sys2Proof

/-! ### Tables whose entries all satisfy a predicate -/

section
variable {α : Type} {P : α → Prop} {t : Tab α}

theorem forall_mem_tabDel (h : ∀ x ∈ t, P x.2) (n : Nat) : ∀ x ∈ tabDel t n, P x.2 := by
  induction t with
  | nil => exact fun x hx => absurd hx List.not_mem_nil
  | cons y t ih =>
    obtain ⟨hy, ht⟩ := List.forall_mem_cons.1 h
    by_cases hk : y.1 = n
    · simpa [tabDel, hk] using ih ht
    · simpa [tabDel, hk] using ⟨hy, fun a b hab => ih ht (a, b) hab⟩

theorem forall_mem_tabPut {v : α} (h : ∀ x ∈ t, P x.2) (hv : P v) (n : Nat) : ∀ x ∈ tabPut t n v, P x.2 := by
  induction t with
  | nil => simpa [tabPut] using hv
  | cons y t ih =>
    obtain ⟨hy, ht⟩ := List.forall_mem_cons.1 h
    have hdel := forall_mem_tabDel ht n
    unfold tabPut
    split
    · exact List.forall_mem_cons.2 ⟨hv, List.forall_mem_cons.2 ⟨hy, hdel⟩⟩
    split
    · exact List.forall_mem_cons.2 ⟨hv, hdel⟩
    · exact List.forall_mem_cons.2 ⟨hy, ih ht⟩

theorem tabGet_of_forall_mem {d : α} (h : ∀ x ∈ t, P x.2) (hd : P d) (n : Nat) : P (tabGet d t n) := by
  induction t with
  | nil => exact hd
  | cons y t ih =>
    obtain ⟨hy, ht⟩ := List.forall_mem_cons.1 h
    unfold tabGet
    split
    · exact hy
    · exact ih ht

theorem forall_mem_tabMod [DecidableEq α] {d : α} {f : α → α} (h : ∀ x ∈ t, P x.2) (hd : P d) (hf : ∀ a, P a → P (f a))
    (n : Nat) : ∀ x ∈ tabMod d t n f, P x.2 := by
  have hv := hf _ (tabGet_of_forall_mem h hd n)
  unfold tabMod tabSet
  split
  · exact forall_mem_tabDel h n
  · exact forall_mem_tabPut h hv n

end

/-! ### No descriptor executes -/

theorem Blk.allExec_eq_nil_iff (b : Blk) :
    b.allExec = [] ↔ (∀ x ∈ b.rings.mgr, x.2.exec = []) ∧ ∀ x ∈ b.sram.doms, x.2.pair.exec = [] := by
  simp [Blk.allExec]

/-- A change of a domain that keeps its ring pair starts no descriptor. -/
theorem Blk.allExec_modDom {b : Blk} {f : Dom → Dom} (h : b.allExec = []) (hf : ∀ x, (f x).pair = x.pair) (d : Nat) :
    (b.modDom d f).allExec = [] := by
  rw [Blk.allExec_eq_nil_iff] at h ⊢
  exact ⟨h.1, forall_mem_tabMod (P := fun x : Dom => x.pair.exec = []) h.2 rfl (fun a ha => by rw [hf]; exact ha) d⟩

/-! ### The frame -/

/-- The parts of the block that no update of an entry touches. -/
def Blk.fixed (b : Blk) :=
  (b.pins, b.time, b.clk, b.pwr, b.ing.credit, b.sram.stt, b.ecc.sttBad, b.lock, b.hctl, b.ops, b.ss, b.aon, b.cal, b.spill)

/-- What makes the difference between a block and one with the same frame. -/
def Blk.frame (b : Blk) := (b.fixed, b.inj, b.ing.lanes, b.sram.doms, b.rings.mgr)

/-- From `b0` to `b`, with no injection armed: the fixed parts stand, no lane but the internal one has changed, every domain
has its state, and no descriptor has begun to execute. -/
structure Blk.Keeps (b0 b : Blk) : Prop where
  noInject : b.inj.arm = []
  fixed : b.fixed = b0.fixed
  lane : ∀ q, q ≠ 24 → b.lane q = b0.lane q
  dom : ∀ d, (b.dom d).st = (b0.dom d).st
  noExec : b0.allExec = [] → b.allExec = []

namespace Blk.Keeps
variable {b0 b b' : Blk}

theorem refl (h : b.inj.arm = []) : b.Keeps b := ⟨h, rfl, fun _ _ => rfl, fun _ => rfl, id⟩

/-- A change outside the frame. -/
theorem same (h : b0.Keeps b) (e : b'.frame = b.frame) : b0.Keeps b' := by
  simp only [Blk.frame, Prod.mk.injEq] at e
  obtain ⟨hfixed, hinj, hlanes, hdoms, hmgr⟩ := e
  refine ⟨hinj ▸ h.noInject, hfixed.trans h.fixed, fun q hq => ?_, fun d => ?_, fun he => ?_⟩
  · rw [← h.lane q hq, Blk.lane, hlanes, Blk.lane]
  · rw [← h.dom d, Blk.dom, hdoms, Blk.dom]
  · rw [← h.noExec he, Blk.allExec, hmgr, hdoms, Blk.allExec]

theorem ite {p : Prop} [Decidable p] (h : b0.Keeps b) (h' : b0.Keeps b') : b0.Keeps (if p then b else b') := by
  split
  · exact h
  · exact h'

theorem ite_fst {β : Type} {p : Prop} [Decidable p] {x y : Blk × β} (h : b0.Keeps x.1) (h' : b0.Keeps y.1) :
    b0.Keeps (if p then x else y).1 := by
  split
  · exact h
  · exact h'

theorem foldl {α : Type} {f : Blk → α → Blk} {l : List α} (hf : ∀ b x, b0.Keeps b → b0.Keeps (f b x)) (h : b0.Keeps b) :
    b0.Keeps (l.foldl f b) := by
  induction l generalizing b with
  | nil => exact h
  | cons x l ih => exact ih (hf b x h)

theorem foldl_fst {α β : Type} {f : Blk × β → α → Blk × β} {a : Blk × β} {l : List α}
    (hf : ∀ a x, b0.Keeps a.1 → b0.Keeps (f a x).1) (h : b0.Keeps a.1) : b0.Keeps (l.foldl f a).1 := by
  induction l generalizing a with
  | nil => exact h
  | cons x l ih => exact ih (hf a x h)

variable {m : List Host.Cell} {st : Stt} {e : Entry} {o : Offer} {u : Upd} {mapgen : BitVec 8} {cls : BitVec 2}

theorem modDom {f : Dom → Dom} {d : Nat} (h : b0.Keeps b) (hst : ∀ x, (f x).st = x.st) (hpair : ∀ x, (f x).pair = x.pair) :
    b0.Keeps (b.modDom d f) := by
  refine ⟨h.noInject, h.fixed, h.lane, fun e => ?_, fun he => Blk.allExec_modDom (h.noExec he) hpair d⟩
  rw [← h.dom e, Blk.dom_modDom]
  split
  case isTrue hed => rw [hst, hed]
  case isFalse => rfl

theorem raise {k : Nat} (h : b0.Keeps b) : b0.Keeps (b.raise k) := by
  refine ⟨h.noInject, h.fixed, fun q hq => ?_, h.dom, h.noExec⟩
  rw [← h.lane q hq, Blk.raise, Blk.lane_modLane, if_neg hq]

theorem injHit {k sel : Nat} (h : b0.Keeps b) : b.injHit k sel = false := Blk.injHit_of_noArm h.noInject k sel

theorem corrected (h : b0.Keeps b) : b0.Keeps b.corrected := raise (h.same rfl)
theorem uncorr {code cls index : Nat} (h : b0.Keeps b) : b0.Keeps (b.uncorr code cls index) := raise (h.same rfl)

theorem fpFail {first : Bool} (h : b0.Keeps b) : b0.Keeps (b.fpFail first) := ite (raise (h.same rfl)) (h.same rfl)

theorem probe {ev stt dom : Nat} (h : b0.Keeps b) : b0.Keeps (b.probe ev stt dom cls) := ite h (h.same rfl)

theorem modLink {n : Nat} {f : Link → Link} (h : b0.Keeps b) : b0.Keeps (b.modLink n f) := h.same rfl
theorem modPeer {n : Nat} {f : Peer → Peer} (h : b0.Keeps b) : b0.Keeps (b.modPeer n f) := h.same rfl
theorem modCl {n : Nat} {f : Cluster → Cluster} (h : b0.Keeps b) : b0.Keeps (b.modCl n f) := h.same rfl
theorem modSlot {n : Nat} {f : Slot → Slot} (h : b0.Keeps b) : b0.Keeps (b.modSlot n f) := h.same rfl
theorem modBcast {n : Nat} {f : Bcast → Bcast} (h : b0.Keeps b) : b0.Keeps (b.modBcast n f) := h.same rfl
theorem noticeHold {n : Nat} (h : b0.Keeps b) : b0.Keeps (b.noticeHold n u) := h.modLink
theorem zSend {p : Nat} {x : ZMsg} (h : b0.Keeps b) : b0.Keeps (b.zSend p x) := h.modPeer
theorem granted {bank input : Nat} (h : b0.Keeps b) : b0.Keeps (b.granted bank input) := h.same rfl
theorem took5 {bank : Nat} {ranking : Bool} (h : b0.Keeps b) : b0.Keeps (b.took5 bank ranking) := h.same rfl

/-! ### Records and the Line Cache -/

theorem readFailed {line : Nat} {first : Bool} (h : b0.Keeps b) : b0.Keeps (b.readFailed line first) := by
  rw [Blk.readFailed, h.injHit]
  exact fpFail (h.same rfl)

theorem readRetries {line : Nat} (h : b0.Keeps b) : b0.Keeps (b.readRetries line) := foldl (fun _ _ h => h.readFailed) h

theorem cleanHit_eq {l : CLine} (h : b0.Keeps b) : b.cleanHit l = b := by
  rw [Blk.cleanHit, h.injHit, Bool.and_false, if_neg Bool.false_ne_true]

theorem takeLine {line : Nat} (h : b0.Keeps b) : b0.Keeps (b.takeLine m line).1 := by
  have hmiss : b0.Keeps (({ b with lc := b.lc.miss }).readRetries line) := readRetries (h.same rfl)
  unfold Blk.takeLine
  cases hfind : b.lc.find line with
  | none =>
    simp only [hfind, ite_self]
    split
    · exact hmiss.same rfl
    · exact hmiss
  | some l =>
    simp only [h.cleanHit_eq, ite_self, hfind]
    split
    · exact h.same rfl
    split
    · exact hmiss.same rfl
    · exact hmiss

theorem recNote {k : WKind} (h : b0.Keeps b) : b0.Keeps (b.recNote k) := by
  unfold Blk.recNote
  split
  · exact h.raise
  · exact ite (h.same rfl) h
  · exact ite h (ite h.raise (h.same rfl))
  · exact h

theorem writeRec {addr : Nat} {ws : List Word} {k : WKind} (h : b0.Keeps b) : b0.Keeps (b.writeRec m addr ws k) :=
  ite (recNote (h.takeLine.same rfl)) (h.same rfl)

theorem writeHeader {d : Nat} (h : b0.Keeps b) : b0.Keeps (b.writeHeader d) := by
  rw [Blk.writeHeader, h.injHit, if_neg Bool.false_ne_true]
  exact h.same rfl

theorem elqTake {d : Nat} {r : EvRec} (h : b0.Keeps b) : b0.Keeps (b.elqTake m d r) := by
  unfold Blk.elqTake
  rw [h.injHit, if_neg Bool.false_ne_true]
  exact ite h (ite (writeHeader (h.modDom (fun _ => rfl) fun _ => rfl)) (writeRec (h.modDom (fun _ => rfl) fun _ => rfl)))

theorem logAll {i : Nat} {d : Dispatch} {ls : List LogAct} (h : b0.Keeps b) : b0.Keeps (b.logAll m i d ls) :=
  foldl (fun _ _ h => (ite h.probe h).elqTake) h

/-! ### Copies, handles and messages to peers -/

theorem toHome {p : Nat} {x : ZMsg} {proxy : Nat} (h : b0.Keeps b) : b0.Keeps (b.toHome p x proxy) := ite h.zSend h

theorem bounceCand {n : Nat} {c : Cand} (h : b0.Keeps b) : b0.Keeps (b.bounceCand n c) := by
  unfold Blk.bounceCand
  dsimp only
  split
  · exact h.modLink.toHome.modLink
  · exact ite h.modLink.noticeHold h.modLink

theorem bounce {n : Nat} (h : b0.Keeps b) : b0.Keeps (b.bounce n) := by
  unfold Blk.bounce
  refine ite h ?_
  cases (b.link n).outq.getLast? with
  | none => exact h
  | some c => exact h.bounceCand

theorem enqueue {n : Nat} {c : Cand} (h : b0.Keeps b) : b0.Keeps (b.enqueue n c) := bounce (h.same rfl)

theorem tileGone {stt : Nat} {gen : BitVec 8} {tile : Nat} (h : b0.Keeps b) :
    b0.Keeps (b.tileGone stt mapgen gen tile).1 := by
  unfold Blk.tileGone
  split
  · exact h
  dsimp only
  split
  · exact ite (h.same rfl) (h.same rfl)
  · exact h.same rfl

theorem withdrawHandle {n k : Nat} (h : b0.Keeps b) : b0.Keeps (b.withdrawHandle n k).1 := by
  unfold Blk.withdrawHandle
  dsimp only
  split
  · split <;> exact h.modLink
  · split
    · exact h.modLink
    · exact h.modLink.modLink
  · exact h

theorem withdrawLink {stt : Nat} {n : Nat} (h : b0.Keeps b) : b0.Keeps (b.withdrawLink stt mapgen n).1 := by
  unfold Blk.withdrawLink
  exact foldl_fst (fun a x ha => ite ha.withdrawHandle.tileGone ha.withdrawHandle) h

theorem withdrawPeer {stt : Nat} {p : Nat} (h : b0.Keeps b) : b0.Keeps (b.withdrawPeer stt mapgen p).1 := by
  unfold Blk.withdrawPeer
  refine foldl_fst (fun a x ha => ?_) h
  split
  · exact ha
  · exact ha.modPeer.zSend

theorem withdraw {stt : Nat} (h : b0.Keeps b) : b0.Keeps (b.withdraw stt mapgen).1 := by
  unfold Blk.withdraw
  refine foldl_fst (fun a p ha => ?peer) (foldl_fst (fun a n ha => ?link) h)
  case peer => exact ha.withdrawPeer
  case link => exact ha.withdrawLink

theorem withdrawOthers {stt : Nat} {n : Nat} (h : b0.Keeps b) : b0.Keeps (b.withdrawOthers stt mapgen n) :=
  foldl (fun _ _ hb => hb.withdrawLink) h

theorem modNamed {n k : Nat} {f : Handle → Handle} (h : b0.Keeps b) : b0.Keeps (b.modNamed n k f) :=
  ite (h.same rfl) (h.same rfl)

theorem handleAfter {claim : Bool} {n k c : Nat} (h : b0.Keeps b) : b0.Keeps (b.handleAfter claim n k c) := ite h h.modNamed

theorem gaveUp {n : Nat} {x : Handle} (h : b0.Keeps b) : b0.Keeps (b.gaveUp n x).1 := by
  unfold Blk.gaveUp
  split
  · exact h.tileGone
  · exact h

theorem loseClaim {n k : Nat} (h : b0.Keeps b) : b0.Keeps (b.loseClaim n k).1 := by
  unfold Blk.loseClaim
  dsimp only
  split
  · refine modNamed ?_
    split
    · exact h.modLink.modLink.gaveUp
    · exact h.modLink.modLink
  · exact h.modLink

theorem takeShared {n k : Nat} (h : b0.Keeps b) : b0.Keeps (b.takeShared n k) := by
  unfold Blk.takeShared
  refine tileGone (withdrawOthers (modLink ?_))
  split
  · exact h.same rfl
  · exact h

theorem winClaim {n k c : Nat} (h : b0.Keeps b) : b0.Keeps (b.winClaim n k c) := h.takeShared.modLink.modNamed

/-! ### The Ranking Unit -/

theorem routeFault_eq {i : Nat} (h : b0.Keeps b) : b.routeFault i = b := by
  rw [Blk.routeFault, h.injHit, if_neg Bool.false_ne_true]

theorem wakeLinks {d : Nat} {ms : NSet} (h : b0.Keeps b) : b0.Keeps (b.wakeLinks d ms) := by
  refine foldl (fun b v hb => ?_) h
  split
  · exact hb.same rfl
  · exact hb

theorem sendCopy {intid key : Word24} {p : Nat} (h : b0.Keeps b) : b0.Keeps (b.sendCopy o intid key p) :=
  h.modLink.enqueue

theorem sendRemote {dl v peer : Nat} (h : b0.Keeps b) : b0.Keeps (b.sendRemote o st cls dl v peer) := by
  unfold Blk.sendRemote
  dsimp only
  split
  · exact h.same rfl
  · exact h.modPeer.zSend

theorem sendShared {intid key : Word24} {n : Nat} {ctxs : List Nat} (h : b0.Keeps b) :
    b0.Keeps (b.sendShared o intid key n ctxs) := foldl (fun _ _ hb => hb.enqueue) h.modLink

theorem sendBcast {intid key : Word24} {ps : List Nat} (h : b0.Keeps b) : b0.Keeps (b.sendBcast o intid key ps) :=
  foldl (fun _ _ hb => hb.sendShared) h

theorem dropTrack {k : Nat} (h : b0.Keeps b) : b0.Keeps (b.dropTrack k) := ite (h.same rfl) (h.same rfl)

theorem bcastDue {k : Nat} {intid key : Word24} {ps : List Nat} (h : b0.Keeps b) :
    b0.Keeps (b.bcastDue st e o k intid key ps).1 := by
  unfold Blk.bcastDue
  split
  · exact h.dropTrack
  · exact h.sendBcast

theorem toSpill (h : b0.Keeps b) : b0.Keeps (b.toSpill u) := by
  unfold Blk.toSpill Blk.spillJoin
  split
  case h_1 c hc =>
    split at hc
    · split at hc
      · cases hc; exact h.same rfl
      · cases hc
    · cases hc
  case h_2 => exact h.same rfl

theorem broadcast {intid key : Word24} {ps : List Nat} (h : b0.Keeps b) : b0.Keeps (b.broadcast o intid key ps) := by
  unfold Blk.broadcast
  split
  · exact h.same rfl
  · exact ite h.modBcast.toSpill
      h.modBcast.bcastDue.modSlot.granted.took5

theorem post {key : Word24} {v : Nat} (h : b0.Keeps b) : b0.Keeps (b.post m o st key v cls) :=
  have hp : b0.Keeps ((({ b with rank := { b.rank with posted := setAdd b.rank.posted o.stt } }).raise 0x88).probe
      13 o.stt st.domid cls) := probe (raise (h.same rfl))
  ite hp hp.elqTake

theorem emitTarget {pa : Path} (h : b0.Keeps b) : b0.Keeps (b.emitTarget o cls pa).1 := by
  unfold Blk.emitTarget
  split
  · exact h
  · split <;> exact h.same rfl

theorem turn {pa : Path} {v : Nat} (h : b0.Keeps b) : b0.Keeps (b.turn pa v) := by
  unfold Blk.turn
  split
  · exact ite (h.same rfl) h
  · exact h

theorem deliver {key : Word24} {pa : Path} {vs : List Nat} (h : b0.Keeps b) :
    b0.Keeps (b.deliver o st cls key pa vs) := by
  unfold Blk.deliver
  refine ite h.broadcast ?_
  split
  · exact h
  split
  · exact h.turn.sendCopy
  · exact h.turn.sendRemote
  · exact h

theorem park {i : Nat} (h : b0.Keeps b) : b0.Keeps (b.park i) := h.same rfl

theorem rankOffer (h : b0.Keeps b) : b0.Keeps (b.rankOffer m o) := by
  unfold Blk.rankOffer
  simp only [h.routeFault_eq, ite_self]
  refine ite h ?_
  split
  · exact h.same rfl
  · have ht (pa : Path) : b0.Keeps (b.emitTarget o (formClass o.rclass (b.stt o.stt).rank.cls o.dem) pa).1 := h.emitTarget
    refine ite ((ht _).same rfl) (ite (ht _).deliver (ite ?_ (ht _).post))
    exact park (ite (wakeLinks (ht _)) (ht _))

theorem rankUntil {reg n : Nat} (h : b0.Keeps b) : b0.Keeps (b.rankUntil m reg n) := by
  induction n generalizing b with
  | zero => exact h
  | succ n ih =>
    refine ite (ih ?_) h
    unfold Blk.offerRanking
    split
    · exact h
    unfold Blk.rankReg
    split
    · exact h.same rfl
    · exact rankOffer (h.same rfl)

theorem rankFree {reg : Nat} (h : b0.Keeps b) : b0.Keeps (b.rankFree m reg) := h.rankUntil

theorem putOffer {reg : Nat} (h : b0.Keeps b) : b0.Keeps (b.putOffer reg o st) := probe (h.same rfl)

theorem offerIf {reg i : Nat} (h : b0.Keeps b) : b0.Keeps (b.offerIf reg i st e).1 := by
  unfold Blk.offerIf
  split
  · exact h.putOffer
  · exact h

/-! ### What an update does to its entry -/

theorem withdrawEntry {i : Nat} (h : b0.Keeps b) : b0.Keeps (b.withdrawEntry i st e).1 := by
  have hw : b0.Keeps (b.withdraw i st.mapgen).1 := h.withdraw
  unfold Blk.withdrawEntry
  generalize b.withdraw i st.mapgen = r at hw ⊢
  exact ite_fst h (ite_fst hw hw.probe)

theorem release {i : Nat} {r : Rel} (h : b0.Keeps b) : b0.Keeps (b.release i st e r).1 :=
  ite_fst h (ite_fst h.withdrawEntry h)

theorem dispatch {d : Dispatch} (h : b0.Keeps b) : b0.Keeps (b.dispatch d) := by
  have hn : b0.Keeps { b with nth := b.nth + 1 } := h.same rfl
  exact ite hn.modCl.raise (ite hn.modCl hn.modCl)

theorem holdArrival {i : Nat} {cause : Cause} {exc : Bool} {pl : Payload} {time : Dword}
    {r : Blk × Entry} (h : b0.Keeps b) (hr : b.holdArrival i st e cause exc pl time = some r) : b0.Keeps r.1 := by
  unfold Blk.holdArrival at hr
  dsimp only at hr
  split at hr
  · cases hr
  · cases hr
    exact h.dispatch

theorem arrival {i : Nat} {cause : Cause} {exc : Bool} {pl : Payload} {time : Dword}
    {r : Blk × Entry} (h : b0.Keeps b) (hr : b.arrival i st e cause exc pl time = some r) : b0.Keeps r.1 := by
  unfold Blk.arrival at hr
  split at hr
  · exact h.holdArrival hr
  · cases hr
    exact release (ite h.modCl h)

theorem levelChange {i : Nat} {active : Bool} (h : b0.Keeps b) : b0.Keeps (b.levelChange i st e active).1 :=
  ite_fst h (ite_fst h.withdrawEntry h)

theorem arrivalStops {i : Nat} {gen : BitVec 8} (h : b0.Keeps b) (hb : b.arrivalStops i st gen = some b') : b0.Keeps b' := by
  unfold Blk.arrivalStops at hb
  dsimp only at hb
  split at hb
  · cases hb
    exact h
  split at hb
  · cases hb
    exact h.same rfl
  · cases hb

theorem emit {i : Nat} {d : Dispatch} {n : RankNames} (h : b0.Keeps b) : b0.Keeps (b.emit i st e d n).1 :=
  h.release.probe

theorem coalesce {i : Nat} {d : Dispatch} {n : RankNames} (h : b0.Keeps b) : b0.Keeps (b.coalesce i st e d n).1 := by
  unfold Blk.coalesce
  have hp : b0.Keeps (b.probe 6 i st.domid d.dcls) := h.probe
  dsimp only
  split
  · exact hp.same rfl
  split
  · exact hp
  split
  · exact hp.same rfl
  · exact h.modCl.emit

theorem result {i : Nat} {c : Closing} (h : b0.Keeps b) : b0.Keeps (b.result i st e c).1 := by
  unfold Blk.result
  split
  · exact h.probe
  · exact h.emit
  · exact h.coalesce
  · exact h.emit

theorem close {i : Nat} {c : Closing} (h : b0.Keeps b) : b0.Keeps (b.close m i st e c).1 := by
  unfold Blk.close
  dsimp only
  split
  · exact h
  · refine logAll (result ?_)
    split
    · exact h.same rfl
    · exact h

theorem timerDue {i : Nat} {key : Nat} {time : Dword} {gen : BitVec 8} {r : Blk × Entry} (h : b0.Keeps b)
    (hr : b.timerDue i st e key time gen = some r) : b0.Keeps r.1 := by
  unfold Blk.timerDue at hr
  dsimp only at hr
  split at hr
  · cases hr
    exact h
  split at hr
  · cases hr
    exact h.modDom (fun _ => rfl) fun _ => rfl
  split at hr
  · exact h.holdArrival hr
  split at hr
  · cases hr
  · cases hr
    exact h

theorem reofferDue {reg i : Nat} {f : ReofferFrom} (h : b0.Keeps b) : b0.Keeps (b.reofferDue reg i st e f).1 :=
  ite_fst h (ite_fst (ite_fst h (ite_fst h h.putOffer)) (ite_fst h.putOffer h))

theorem claimReqDue {i : Nat} {n k c : Nat} {cur : Bool} (h : b0.Keeps b) :
    b0.Keeps (b.claimReqDue i st e n k c cur).1 :=
  have hl : b0.Keeps (b.loseClaim n k).1 := h.loseClaim
  ite_fst h.probe.winClaim (ite_fst hl.probe hl)

theorem claimedDue {i : Nat} {n k c : Nat} (h : b0.Keeps b) : b0.Keeps (b.claimedDue i st e n k c).1 :=
  handleAfter (probe (ite h.takeShared h))

theorem noticeDue {i : Nat} {k : NoticeKind} {n x c : Nat} {gen : BitVec 8} (h : b0.Keeps b) :
    b0.Keeps (b.noticeDue i st e k n x c gen).1 :=
  have hgone := (ite_fst (p := k = .released) (y := (b, true)) h.gaveUp h).handleAfter
  ite_fst h (ite_fst h.claimReqDue (ite_fst h (ite_fst
    (ite_fst h.claimedDue h.handleAfter)
    (ite_fst hgone (ite_fst hgone.probe hgone.probe)))))

theorem updGone (h : b0.Keeps b) : b0.Keeps (b.updGone u) := by
  unfold Blk.updGone
  split
  · exact h.loseClaim
  · exact ite h (handleAfter (ite h.gaveUp h))
  · exact h.dropTrack
  · exact h

theorem updBody {reg : Nat} {r : Blk × Entry} (h : b0.Keeps b)
    (hr : b.updBody m reg u st e = some r) : b0.Keeps r.1 := by
  unfold Blk.updBody at hr
  dsimp only at hr
  split at hr
  case h_1 ev =>
    split at hr
    case h_1 c hc => cases hr; exact h.arrivalStops hc
    split at hr
    · cases hr; exact h.probe.levelChange
    · exact h.probe.arrival hr
  case h_2 =>
    split at hr
    case h_1 c hc => cases hr; exact h.arrivalStops hc
    · exact h.probe.arrival hr
  case h_3 =>
    split at hr
    case h_1 c hc => cases hr; exact h.arrivalStops hc
    · exact h.probe.arrival hr
  case h_4 c => cases hr; exact h.close
  case h_5 => exact h.timerDue hr
  case h_6 => cases hr; exact h.reofferDue
  case h_7 => cases hr; exact h.noticeDue
  case h_8 => cases hr; exact h.bcastDue
  case h_9 => cases hr; exact h
  case h_10 => cases hr; exact h
  case h_11 => cases hr; exact h

theorem performOn {reg : Nat} {r : Blk × Entry} (h : b0.Keeps b)
    (hr : b.performOn m reg u st e = some r) : b0.Keeps r.1 := by
  unfold Blk.performOn at hr
  split at hr
  · cases hr
  case h_2 hbody =>
    cases hr
    exact (h.updBody hbody).offerIf

/-! ### Any update -/

theorem sttRead_eq {i : Nat} (h : b0.Keeps b) : b.sttRead i = b := by
  simp [Blk.sttRead, h.injHit]

theorem slotRead {n : Nat} (h : b0.Keeps b) : b0.Keeps (b.slotRead n) := by
  simp only [Blk.slotRead, h.injHit, Bool.false_eq_true, if_false]
  split
  · have hce : b0.Keeps { b with ecc := { b.ecc with entryCe := setDel b.ecc.entryCe n } } := h.same rfl
    rw [hce.corrected.injHit, if_neg Bool.false_ne_true]
    exact hce.corrected
  · rw [h.injHit, if_neg Bool.false_ne_true]
    exact h

theorem mirror {i : Nat} (h : b0.Keeps b) : b0.Keeps (b.mirror i e) := by
  unfold Blk.mirror
  split
  · exact h
  · exact h.modSlot.granted

theorem sstWrite {i : Nat} (h : b0.Keeps b) : b0.Keeps (b.sstWrite m i e) := by
  have hm : b0.Keeps (b.mirror i e) := h.mirror
  refine ite (hm.same rfl) ?_
  split <;> exact hm.same rfl

theorem updSlot {input : Nat} (h : b0.Keeps b) (hb : b.updSlot m u st input = some b') : b0.Keeps b' := by
  unfold Blk.updSlot at hb
  dsimp only at hb
  split at hb
  · cases hb
  split at hb
  · cases hb
  case h_2 hperform =>
    cases hb
    exact (performOn h.slotRead.rankFree.granted hperform).modSlot

theorem updLine (h : b0.Keeps b) (hb : b.updLine m u st = some b') : b0.Keeps b' := by
  unfold Blk.updLine at hb
  dsimp only at hb
  split at hb
  · cases hb
  split at hb
  · cases hb
  case h_2 hperform =>
    cases hb
    exact (performOn h.rankFree hperform).sstWrite

theorem freeOrphan (h : b0.Keeps b) : b0.Keeps (b.freeOrphan u) := by
  unfold Blk.freeOrphan
  split
  · split
    · exact h.modSlot
    · exact h
  · exact h

theorem update {input : Nat} (h : b0.Keeps b) (hb : b.update m u input = some b') : b0.Keeps b' := by
  unfold Blk.update at hb
  simp only [h.sttRead_eq] at hb
  split at hb
  · cases hb
    exact h.freeOrphan.updGone
  split at hb
  · exact h.updSlot hb
  split at hb
  · exact h.updLine hb
  · cases hb

theorem rpApply (h : b0.Keeps b) : b0.Keeps (b.rpApply m u) := by
  unfold Blk.rpApply
  refine ite h.toSpill ?_
  split
  case h_1 hu => exact h.update hu
  case h_2 => exact h.same rfl

/-! ### Notices, a quiesce that begins, expiries and the lines at an entry to RUN -/

theorem noticeTake {bank n : Nat} (h : b0.Keeps b) (hb : b.noticeTake m bank n = some b') : b0.Keeps b' := by
  unfold Blk.noticeTake at hb
  split at hb
  · cases hb
  dsimp only at hb
  split at hb
  · cases hb
    exact h.modLink.toSpill
  · exact h.modLink.update hb

theorem grant7 {bank : Nat} (h : b0.Keeps b) (hb : b.grant7 m bank = some b') : b0.Keeps b' := by
  obtain ⟨n, -, htake⟩ := List.exists_of_findSome?_eq_some hb
  obtain ⟨c, hc, rfl⟩ := Option.map_eq_some_iff.1 htake
  exact (h.noticeTake hc).same rfl

theorem noticesRun {n : Nat} (h : b0.Keeps b) : b0.Keeps (b.noticesRun m n) := by
  induction n generalizing b with
  | zero => exact h
  | succ n ih =>
    unfold Blk.noticesRun
    refine ite h ?_
    split
    case h_1 c hc =>
      obtain ⟨k, -, hgrant⟩ := List.exists_of_findSome?_eq_some hc
      exact ih (h.grant7 hgrant)
    case h_2 => exact h

theorem sendNotice {n k : Nat} (h : b0.Keeps b) : b0.Keeps (b.sendNotice m n k u) :=
  ite h.toSpill h.noticeHold.noticesRun

theorem releaseHandle {n k : Nat} (h : b0.Keeps b) : b0.Keeps (b.releaseHandle m n k) := by
  unfold Blk.releaseHandle
  refine ite h ?_
  split
  · exact h.toHome.handleAfter
  · exact h.sendNotice

theorem startQuiesce {n : Nat} (h : b0.Keeps b) : b0.Keeps (b.startQuiesce m n) :=
  modLink (foldl (fun _ _ hb => ite hb.releaseHandle hb) h.modLink.modLink)

theorem update5 {ranking : Bool} (h : b0.Keeps b) (hb : b.update5 m u ranking = some b') : b0.Keeps b' := by
  unfold Blk.update5 at hb
  dsimp only at hb
  split at hb
  · exact h.update hb
  split at hb
  · cases hb
  · obtain ⟨c, hc, rfl⟩ := Option.map_eq_some_iff.1 hb
    exact (h.update hc).took5

theorem timerRequest {key : Nat} {time : Dword} (h : b0.Keeps b) : b0.Keeps (b.timerRequest m key time) := by
  unfold Blk.timerRequest
  have hrec := h.modDom (d := (b.stt (tabGet {} (b.cl (key / 1024)).att (key % 1024)).owner).domid)
    (f := fun d => { d with expired := setAdd d.expired key }) (fun _ => rfl) fun _ => rfl
  refine ite (h.same rfl) (ite (hrec.same rfl) (ite ?_ (ite h (ite (h.toSpill.same rfl) (h.toSpill.same rfl)))))
  split
  case h_1 hu => exact (h.update5 hu).same rfl
  case h_2 => exact h.same rfl

theorem timerExpiry {c a : Nat} (h : b0.Keeps b) : b0.Keeps (b.timerExpiry m c a) := by
  unfold Blk.timerExpiry
  dsimp only
  split
  · exact h.timerRequest
  split
  · exact h
  · exact timerRequest (h.same rfl)

theorem expireDue (h : b0.Keeps b) : b0.Keeps (b.expireDue m) := foldl (fun _ _ hb => hb.timerExpiry) h

theorem sampleLevel {i : Nat} (h : b0.Keeps b) : b0.Keeps (b.sampleLevel m i) := ite h.rpApply h

theorem sampleLine {i : Nat} (h : b0.Keeps b) : b0.Keeps (b.sampleLine m i) := ite h.sampleLevel h

theorem sampleLines (h : b0.Keeps b) : b0.Keeps (b.sampleLines m) :=
  foldl (fun _ _ hb => hb.sampleLine) (h.same rfl)

end Blk.Keeps
end Sys2Proof.Machine

/-! Starts: the steps from the lock of the IRQPLL to RUN (16 R582 to R589, Table 16-3; 13 R512). -/
namespace Sys2Proof.Machine
open Sys2Proof

/-! ### S10: the internal sources and domain 0 -/

/-- Internal source `k` is mapped under its INTID (03 R89). -/
def Blk.MapsInternal (b : Blk) (k : Nat) : Prop :=
  (b.stt (1536 + k)).valid = true ∧ (b.stt (1536 + k)).kind = .internal ∧
  (b.stt (1536 + k)).vintid = BitVec.ofNat 24 (0xA00 + k)

/-- Mapping an internal source writes the sources' tables, and of these the STT and the slots. -/
theorem Blk.mapInternal_frame (b : Blk) (k : Nat) :
    { b.mapInternal k with sram := b.sram } = b ∧ (b.mapInternal k).sram.doms = b.sram.doms := by
  unfold Blk.mapInternal
  dsimp only
  split <;> exact ⟨rfl, rfl⟩

theorem Blk.foldl_mapInternal_frame (l : List Nat) (b : Blk) :
    { l.foldl Blk.mapInternal b with sram := b.sram } = b ∧ (l.foldl Blk.mapInternal b).sram.doms = b.sram.doms := by
  induction l generalizing b with
  | nil => exact ⟨rfl, rfl⟩
  | cons k l ih =>
    obtain ⟨hrest, hdoms⟩ := ih (b.mapInternal k)
    obtain ⟨hrest', hdoms'⟩ := b.mapInternal_frame k
    refine ⟨?_, hdoms.trans hdoms'⟩
    calc ({ l.foldl Blk.mapInternal (b.mapInternal k) with sram := b.sram } : Blk)
        = { ({ l.foldl Blk.mapInternal (b.mapInternal k) with sram := (b.mapInternal k).sram } : Blk) with sram := b.sram } := rfl
      _ = { b.mapInternal k with sram := b.sram } := by rw [hrest]
      _ = b := hrest'

/-- An entry that is mapped stays; the named source's is made anew. -/
theorem Blk.stt_mapInternal {b : Blk} (hbad : b.ecc.sttBad = []) (k j : Nat) :
    (b.mapInternal k).stt j =
      if j = 1536 + k ∧ (b.stt j).valid = false then
        (b.stt j).fresh .internal false 0 (BitVec.ofNat 24 (0xA00 + k)) true (1536 + k)
      else b.stt j := by
  have hread : ∀ c : Blk, c.ecc.sttBad = [] → ∀ i, c.stt i = tabGet {} c.sram.stt i := fun c hc i => by
    simp [Blk.stt, hc, setHas]
  unfold Blk.mapInternal
  dsimp only
  cases hv : (b.stt (1536 + k)).valid with
  | true =>
    rw [if_pos rfl, if_neg]
    rintro ⟨rfl, hno⟩
    rw [hv] at hno
    cases hno
  | false =>
    rw [if_neg Bool.false_ne_true, hread _ hbad, hread _ (by exact hbad)]
    simp only [Blk.modSlot, Blk.modStt, tabGet_tabMod]
    by_cases hj : j = 1536 + k
    · subst hj
      rw [hread _ hbad] at hv
      rw [if_pos rfl, if_pos ⟨rfl, hv⟩]
    · rw [if_neg hj, if_neg (fun e => hj e.1)]

/-- No STT entry is lost, and what is mapped at an internal source's index is that source. -/
def Blk.InternalsSound (b : Blk) : Prop :=
  b.ecc.sttBad = [] ∧ ∀ k, (b.stt (1536 + k)).valid = true → b.MapsInternal k

theorem Blk.InternalsSound.mapsInternal {b : Blk} (h : b.InternalsSound) {k j : Nat} (hj : j = k ∨ b.MapsInternal j) :
    (b.mapInternal k).MapsInternal j := by
  obtain ⟨hbad, hsound⟩ := h
  unfold Blk.MapsInternal
  rw [Blk.stt_mapInternal hbad]
  by_cases hnew : 1536 + j = 1536 + k ∧ (b.stt (1536 + j)).valid = false
  · obtain rfl : j = k := by omega
    rw [if_pos hnew]
    exact ⟨rfl, rfl, rfl⟩
  · rw [if_neg hnew]
    rcases hj with rfl | hj
    · exact hsound j (by simpa using hnew)
    · exact hj

theorem Blk.InternalsSound.mapInternal {b : Blk} (h : b.InternalsSound) (k : Nat) : (b.mapInternal k).InternalsSound := by
  refine ⟨(congrArg (·.ecc.sttBad) (b.mapInternal_frame k).1).trans h.1, fun j hv => h.mapsInternal ?_⟩
  rw [Blk.stt_mapInternal h.1] at hv
  split at hv
  case isTrue hnew => exact .inl (by omega)
  case isFalse => exact .inr (h.2 j hv)

theorem Blk.InternalsSound.foldl_mapsInternal {l : List Nat} {b : Blk} (h : b.InternalsSound) {k : Nat}
    (hk : k ∈ l ∨ b.MapsInternal k) : (l.foldl Blk.mapInternal b).MapsInternal k := by
  induction l generalizing b with
  | nil => exact hk.resolve_left List.not_mem_nil
  | cons j l ih =>
    refine ih (h.mapInternal j) ?_
    rw [List.mem_cons, or_assoc, or_left_comm] at hk
    exact hk.imp_right h.mapsInternal

/-! ### The whole of S10 -/

theorem forall_mem_tabMap {α : Type} [DecidableEq α] {P : α → Prop} {d : α} {f : Nat → α → α} {t : Tab α}
    (h : ∀ x ∈ t, P x.2) (hf : ∀ n a, P a → P (f n a)) : ∀ x ∈ tabMap d f t, P x.2 := by
  induction t with
  | nil => exact fun x hx => absurd hx List.not_mem_nil
  | cons y t ih =>
    obtain ⟨hy, ht⟩ := List.forall_mem_cons.1 h
    unfold tabMap
    split
    · exact forall_mem_tabDel (ih ht) y.1
    · exact List.forall_mem_cons.2 ⟨hf y.1 y.2 hy, ih ht⟩

/-- S10 with the internal sources `l`. -/
def Blk.startS10With (b : Blk) (l : List Nat) : Blk :=
  let b := (l.foldl Blk.mapInternal b.zeroGens).modDom 0 (fun d => if d.st = .absent then
    { d with st := .live, sh := { d.sh with rshare := 260352, elimit := 0xFFFFFF } } else { d with st := .live })
  { b with rings := { b.rings with snapSeq := 0 } }

theorem Blk.startS10_eq (b : Blk) : b.startS10 = b.startS10With internalSources := rfl

/-- S10 writes the sources' tables, the links' handles, the Ranking Unit's trackers and the snapshot counter. -/
theorem Blk.startS10With_frame (b : Blk) (l : List Nat) :
    { b.startS10With l with sram := b.sram, links := b.links, rank := b.rank, rings := b.rings } = b ∧
    (b.startS10With l).links = b.zeroGens.links ∧ (b.startS10With l).rings.mgr = b.rings.mgr := by
  have hmaps := (Blk.foldl_mapInternal_frame l b.zeroGens).1
  exact ⟨congrArg (fun c : Blk => { c with sram := b.sram, links := b.links, rank := b.rank, rings := b.rings }) hmaps,
    (congrArg Blk.links hmaps :), (congrArg (·.rings.mgr) hmaps :)⟩

/-- A start on an empty Hub: no link to train, nothing mapped, no domain, no descriptor and nothing in the lanes. -/
structure Blk.Empty (b : Blk) : Prop where
  link : ∀ x ∈ b.links, x.2.pop = false
  stt : ∀ i, b.stt i = {}
  sttBad : b.ecc.sttBad = []
  lane : ∀ q < 12, b.lane q = {}
  doms : b.sram.doms = []
  mgr : b.rings.mgr = []
  noInject : b.inj.arm = []

namespace Blk.Empty
variable {b : Blk} (h : b.Empty) (l : List Nat)
include h

theorem link_startS10 : ∀ x ∈ (b.startS10With l).links, x.2.pop = false := by
  rw [(b.startS10With_frame l).2.1]
  exact forall_mem_tabMap (P := fun x : Link => x.pop = false) h.link fun _ _ hp => hp

theorem mapsInternal_startS10 {k : Nat} (hk : k ∈ l) : (b.startS10With l).MapsInternal k := by
  have hsound : b.zeroGens.InternalsSound := by
    refine ⟨h.sttBad, fun k hv => ?_⟩
    have hv' : (b.stt (1536 + k)).valid = true := hv
    rw [h.stt] at hv'
    cases hv'
  exact hsound.foldl_mapsInternal (.inl hk)

theorem allExec_startS10 : (b.startS10With l).allExec = [] := by
  refine Blk.allExec_modDom (b := l.foldl Blk.mapInternal b.zeroGens) ?_ (fun x => ?_) 0
  · rw [Blk.allExec_eq_nil_iff, (Blk.foldl_mapInternal_frame l _).2]
    have hmgr : (l.foldl Blk.mapInternal b.zeroGens).rings.mgr = b.rings.mgr :=
      congrArg (·.rings.mgr) (Blk.foldl_mapInternal_frame l b.zeroGens).1
    have hdoms : b.zeroGens.sram.doms = tabMap {} (fun _ d => { d with gen := 0 }) b.sram.doms := rfl
    rw [hmgr, h.mgr, hdoms, h.doms]
    exact ⟨fun x hx => absurd hx List.not_mem_nil, fun x hx => absurd hx List.not_mem_nil⟩
  · split <;> rfl

end Blk.Empty

theorem Blk.dom_startS10With (b : Blk) (l : List Nat) : ((b.startS10With l).dom 0).st = .live := by
  show (((l.foldl Blk.mapInternal b.zeroGens).modDom 0 _).dom 0).st = .live
  rw [Blk.dom_modDom_self]
  split <;> rfl

/-! ### The arrival in RUN -/

/-- A step that changes nothing for any member of a list. -/
theorem foldl_eq_self {α β : Type} {f : β → α → β} {l : List α} {b : β} (h : ∀ x ∈ l, f b x = b) : l.foldl f b = b := by
  induction l with
  | nil => rfl
  | cons x l ih =>
    obtain ⟨hx, hl⟩ := List.forall_mem_cons.1 h
    rw [List.foldl_cons, hx, ih hl]

theorem Blk.laneResume_of_idle {b : Blk} {q : Nat} (h : b.lane q = {}) : b.laneResume q = b := by
  have hstall : (b.lane q).stall = none := by rw [h]
  have hrx : (b.lane q).rx = [] := by rw [h]
  simp [Blk.laneResume, hstall, Blk.laneRun, hrx]

theorem Blk.pump_of_noExec {b : Blk} (h : b.allExec = []) (m : List Host.Cell) : b.pump m = b := by
  simp [Blk.pump, h]

/-- The message lanes are empty and no descriptor executes: nothing goes on when the Hub comes to RUN. -/
structure Blk.Idle (b : Blk) : Prop where
  noInject : b.inj.arm = []
  noExec : b.allExec = []
  lane : ∀ q < 12, b.lane q = {}

theorem Blk.Keeps.idle {b0 b : Blk} (h : b0.Keeps b) (hi : b0.Idle) : b.Idle :=
  ⟨h.noInject, h.noExec hi.noExec, fun q hq => (h.lane q (by omega)).trans (hi.lane q hq)⟩

/-- The Hub stands in RUN, before its lanes and its rings go on. -/
def Blk.inRunState (b : Blk) : Blk :=
  let b := b.modSeq (fun q => { q with seq := .none, stopped := [], wake := none, alarm := none, cwPstate := .run })
  { (b.modPwr (fun r => { r with state := .run })).resumeLinks with cal := { b.cal with valid := false } }

theorem Blk.Idle.inRunState {b : Blk} (h : b.Idle) : b.inRunState.Idle := ⟨h.noInject, h.noExec, h.lane⟩

/-- On an idle block nothing goes on. -/
theorem Blk.Idle.toRun_eq {b : Blk} (h : b.Idle) (m : List Host.Cell) : b.toRun m = b.inRunState := by
  have hlanes : b.inRunState.resumeLanes = b.inRunState :=
    foldl_eq_self fun q hq => Blk.laneResume_of_idle (h.inRunState.lane q (List.mem_range.1 hq))
  calc b.toRun m = b.inRunState.resumeLanes.pump m := rfl
    _ = b.inRunState := by rw [hlanes, Blk.pump_of_noExec h.inRunState.noExec]

/-- From `b` the Hub has come to RUN: `t` keeps its clocks, clamps, credits and sources, and the states of its domains. -/
structure Blk.Arrived (b t : Blk) : Prop where
  state : t.pwr.regs.state = .run
  seq : t.pwr.seq.seq = .none
  cwPstate : t.pwr.seq.cwPstate = .run
  clamp : t.pwr.seq.clamp = b.pwr.seq.clamp
  hubReset : t.pwr.seq.hubReset = b.pwr.seq.hubReset
  measured : t.pwr.cfg.measured = b.pwr.cfg.measured
  offset : t.pwr.cfg.offset = b.pwr.cfg.offset
  rest : (t.clk, t.aon, t.ss, t.ing.credit, t.sram.stt, t.ecc.sttBad) =
    (b.clk, b.aon, b.ss, b.ing.credit, b.sram.stt, b.ecc.sttBad)
  dom : ∀ d, (t.dom d).st = (b.dom d).st

theorem Blk.Idle.arrived_toRun {b : Blk} (h : b.Idle) (m : List Host.Cell) : b.Arrived (b.toRun m) := by
  rw [h.toRun_eq]
  exact ⟨rfl, rfl, rfl, rfl, rfl, rfl, rfl, rfl, fun _ => rfl⟩

namespace Blk.Arrived
variable {b t t' : Blk}

theorem keeps (h : b.Arrived t) (hk : t.Keeps t') : b.Arrived t' := by
  have hfixed := hk.fixed
  simp only [Blk.fixed, Prod.mk.injEq] at hfixed
  obtain ⟨-, -, hclk, hpwr, hcredit, hstt, hbad, -, -, -, hss, haon, -⟩ := hfixed
  refine ⟨?_, ?_, ?_, ?_, ?_, ?_, ?_, ?_, fun d => (hk.dom d).trans (h.dom d)⟩
  case refine_8 => rw [hclk, haon, hss, hcredit, hstt, hbad, h.rest]
  all_goals rw [hpwr]
  exacts [h.state, h.seq, h.cwPstate, h.clamp, h.hubReset, h.measured, h.offset]

theorem wakeStat (h : b.Arrived t) (w : Nat × Nat) (entry : Bool) : b.Arrived (t.wakeStat w entry) :=
  ⟨h.state, h.seq, h.cwPstate, h.clamp, h.hubReset, h.measured, h.offset, h.rest, h.dom⟩

theorem vtDue (h : b.Arrived t) : b.Arrived (t.modSeq (fun q => { q with vtDue := false })).vtimeout :=
  ⟨h.state, h.seq, h.cwPstate, h.clamp, h.hubReset, h.measured, h.offset, h.rest, h.dom⟩

end Blk.Arrived

/-- With no exit in progress the Hub comes to RUN, samples its lines, and lets the timers that are due expire (13 R506). -/
theorem Blk.Idle.arrived_arrive {b : Blk} (h : b.Idle) (hseq : b.pwr.seq.seq = .none) (m : List Host.Cell) :
    b.Arrived (b.arrive m 0) := by
  have hidle : ({ b with tim := { b.tim with tick := b.tim.tick + 0 } }).Idle := ⟨h.noInject, h.noExec, h.lane⟩
  have hrun : b.Arrived ((({ b with tim := { b.tim with tick := b.tim.tick + 0 } }).toRun m).sampleLines m |>.expireDue m) :=
    (hidle.arrived_toRun m).keeps (Blk.Keeps.refl (hidle.toRun_eq m ▸ hidle.inRunState.noInject)).sampleLines.expireDue
  unfold Blk.arrive
  simp only [hseq, if_true]
  generalize Blk.expireDue _ m = t at hrun ⊢
  cases b.pwr.seq.wake with
  | none =>
    split
    · exact hrun.vtDue
    · exact hrun
  | some w =>
    split
    · exact (hrun.wakeStat w false).vtDue
    · exact hrun.wakeStat w false

/-- A start has ended in RUN, with the power controller's settings of `p` and the operating point that `c` names: the clamps
are released, every credit is returned and OPS.START_STAT is `ss` (16 Table 16-3, S13). -/
structure Blk.Started (t : Blk) (p : Pwr) (c : Clk) (ss : StartStat) : Prop where
  state : t.pwr.regs.state = .run
  seq : t.pwr.seq.seq = .none
  cwPstate : t.pwr.seq.cwPstate = .run
  clamp : t.pwr.seq.clamp = false
  hubReset : t.pwr.seq.hubReset = false
  measured : t.pwr.cfg.measured = p.cfg.measured
  offset : t.pwr.cfg.offset = p.cfg.offset
  curOp : t.clk.curOp = c.target
  aon : t.aon = { start := none }
  ss : t.ss = ss
  credit : t.ing.credit = (List.range 96).map (fun n => (n, 4))

/-- The block whose start is told of in OPS.START_STAT and over. -/
def Blk.startOver (b : Blk) : Blk :=
  { b with
    ss := b.aon.stat .cold, aon := { start := none }, clk := { b.clk with curOp := b.clk.target },
    arb := { b.arb with mode := 0 } }

/-- The links that were asked to quiesce begin to. -/
def Blk.quiesceAsked (b : Blk) (m : List Host.Cell) : Blk :=
  (List.range 16).foldl (fun b n => if (b.link n).quiesce && (b.link n).st = .up then b.startQuiesce m n else b) b

/-- The Hub main domain is out of its clamps and of reset. -/
def Blk.unclamped (b : Blk) : Blk := b.clampOff.modSeq (fun q => { q with hubReset := false })

theorem Blk.startS13_cold (b : Blk) (m : List Host.Cell) :
    b.startS13 m .cold = (b.startOver.quiesceAsked m).unclamped.arrive m 0 := by
  simp only [Blk.startS13, reduceCtorEq, if_false]
  rfl

/-- From S13 on an idle block the start ends, the sources and the states of the domains kept. -/
theorem Blk.Idle.started_startS13 {b : Blk} (h : b.Idle) (hseq : b.pwr.seq.seq = .none) (m : List Host.Cell) :
    (b.startS13 m .cold).Started b.pwr b.clk (b.aon.stat .cold) ∧ (∀ i, (b.startS13 m .cold).stt i = b.stt i) ∧
    ∀ d, ((b.startS13 m .cold).dom d).st = (b.dom d).st := by
  have hover : b.startOver.Idle := ⟨h.noInject, h.noExec, h.lane⟩
  have hkeeps : b.startOver.Keeps (b.startOver.quiesceAsked m) :=
    Blk.Keeps.foldl (fun _ _ hb => .ite hb.startQuiesce hb) (.refl h.noInject)
  rw [Blk.startS13_cold]
  generalize b.startOver.quiesceAsked m = c at hkeeps ⊢
  have hidle : c.unclamped.Idle :=
    have hc := hkeeps.idle hover
    ⟨hc.noInject, hc.noExec, hc.lane⟩
  have hfixed := hkeeps.fixed
  simp only [Blk.fixed, Prod.mk.injEq] at hfixed
  obtain ⟨-, -, hclk, hpwr, -, hstt, hbad, -, -, -, hss, haon, -⟩ := hfixed
  have ht := hidle.arrived_arrive ((congrArg (·.seq.seq) hpwr).trans hseq) m
  have hrest := ht.rest
  simp only [Prod.mk.injEq] at hrest
  obtain ⟨htclk, htaon, htss, htcredit, htstt, htbad⟩ := hrest
  refine ⟨{
    state := ht.state
    seq := ht.seq
    cwPstate := ht.cwPstate
    clamp := ht.clamp
    hubReset := ht.hubReset
    measured := ht.measured.trans (congrArg (·.cfg.measured) hpwr)
    offset := ht.offset.trans (congrArg (·.cfg.offset) hpwr)
    curOp := congrArg (·.curOp) (htclk.trans hclk)
    aon := htaon.trans haon
    ss := htss.trans hss
    credit := htcredit }, fun i => ?_, fun d => (ht.dom d).trans (hkeeps.dom d)⟩
  have htstt' : (c.unclamped.arrive m 0).sram.stt = b.sram.stt := htstt.trans hstt
  have htbad' : (c.unclamped.arrive m 0).ecc.sttBad = b.ecc.sttBad := htbad.trans hbad
  rw [Blk.stt, htstt', htbad', Blk.stt]

/-! ### S9 to S13 on an empty Hub -/

theorem Blk.startLinks_of_unpopulated {b : Blk} (h : ∀ x ∈ b.links, x.2.pop = false) : b.startLinks = b := by
  refine foldl_eq_self fun n _ => ?_
  have hpop : (b.link n).pop = false := tabGet_of_forall_mem (P := fun x : Link => x.pop = false) h rfl n
  simp [hpop]

theorem Blk.linksReady_of_unpopulated {b : Blk} (h : ∀ x ∈ b.links, x.2.pop = false) : b.linksReady = true :=
  List.all_eq_true.2 fun x hx => by simp [h x hx]

/-- The block that waits in S12 for its links. -/
def Blk.awaitsLinks (b : Blk) : Blk := { b with aon := { b.aon with start := some (.cold, .s12) } }

theorem Blk.startGo_of_unpopulated {b : Blk} (h : ∀ x ∈ b.links, x.2.pop = false) (hiso : b.pins.iso = false)
    (m : List Host.Cell) : b.awaitsLinks.startGo m = b.awaitsLinks.startS13 m .cold := by
  have hready : b.awaitsLinks.linksReady = true := Blk.linksReady_of_unpopulated h
  have hiso' : b.awaitsLinks.pins.iso = false := hiso
  have hstart : b.awaitsLinks.aon.start = some (.cold, .s12) := rfl
  simp [Blk.startGo, hstart, hready, hiso']

theorem Blk.startS9_of_noLinks {b : Blk} (h : b.startS10.startLinks = b.startS10) (m : List Host.Cell) :
    b.startS9 m .cold = b.startS10.awaitsLinks.startGo m := by
  simp only [Blk.startS9, reduceCtorEq, if_false, Blk.awaitsLinks, h]

/-- On an empty Hub with no isolation asked for, a cold start runs from S9 to its end. -/
theorem Blk.Empty.started_startS9 {b : Blk} (h : b.Empty) (hiso : b.pins.iso = false) (hseq : b.pwr.seq.seq = .none)
    (m : List Host.Cell) :
    (b.startS9 m .cold).Started b.pwr b.clk (b.aon.stat .cold) ∧ ((b.startS9 m .cold).dom 0).st = .live ∧
    ∀ k ∈ internalSources, (b.startS9 m .cold).MapsInternal k := by
  have hnone : b.startS10.startLinks = b.startS10 := Blk.startLinks_of_unpopulated (h.link_startS10 internalSources)
  rw [Blk.startS9_of_noLinks hnone, Blk.startS10_eq]
  generalize internalSources = l
  have hframe := (b.startS10With_frame l).1
  have hmaps := fun k (hk : k ∈ l) => h.mapsInternal_startS10 l hk
  have hlive := b.dom_startS10With l
  rw [Blk.startGo_of_unpopulated (h.link_startS10 l) ((congrArg (·.pins.iso) hframe).trans hiso)]
  have hidle : (b.startS10With l).awaitsLinks.Idle :=
    ⟨(congrArg (·.inj.arm) hframe).trans h.noInject, h.allExec_startS10 l,
      fun q hq => (congrArg (·.lane q) hframe).trans (h.lane q hq)⟩
  have hpwr : (b.startS10With l).awaitsLinks.pwr = b.pwr := (congrArg (·.pwr) hframe :)
  have hclk : (b.startS10With l).awaitsLinks.clk = b.clk := (congrArg (·.clk) hframe :)
  have hstat : (b.startS10With l).awaitsLinks.aon.stat .cold = b.aon.stat .cold := (congrArg (·.aon.stat .cold) hframe :)
  obtain ⟨hstarted, hstt, hdom⟩ := hidle.started_startS13 ((congrArg (·.pwr.seq.seq) hframe).trans hseq) m
  rw [hpwr, hclk, hstat] at hstarted
  refine ⟨hstarted, (hdom 0).trans hlive, fun k hk => ?_⟩
  unfold Blk.MapsInternal
  rw [hstt]
  exact hmaps k hk

/-! ### Failed starts, and the lock of the IRQPLL -/

/-- A start that has not failed before begins anew as a cold one, with its cause kept (16 R589). -/
theorem Blk.startFail_first {b : Blk} (h : b.aon.retried = false) (cause : Nat) :
    b.startFail cause = ({ b with aon := { b.aon with retried := true, fail1 := cause } }).startCold := by
  simp [Blk.startFail, h]

/-- A start that goes on at the lock with its ROM, its fuses and the Sequencer's RAM in order (16 Table 16-3). -/
structure Blk.LockGood (b : Blk) (k : StartKind) : Prop where
  bist : k ≠ .cold ∨ b.pins.bistOk = true
  rom : romOk = true
  fuse : b.pins.fuseAck = true
  ram : b.dbg.seqBad = false

/-- The block with its IRQPLL locked. -/
def Blk.locked (b : Blk) : Blk := { b with clk := { b.clk with lock := true } }

section
variable {b : Blk} {k : StartKind} (m : List Host.Cell)

theorem Blk.pllLock_of_start (hstart : b.aon.start = some (k, .s2)) (hon : b.clk.pllOn = true) (hl : b.clk.lock = false) :
    b.pllLock m = b.startLocked m k := by
  simp [Blk.pllLock, hstart, hon, hl]

theorem Blk.startLocked_bist (hk : k = .cold) (h : b.pins.bistOk = false) : b.startLocked m k = b.locked.startFail 1 := by
  simp [Blk.startLocked, hk, h, Blk.locked]

theorem Blk.startLocked_rom (hbist : k ≠ .cold ∨ b.pins.bistOk = true) (h : romOk = false) :
    b.startLocked m k = b.locked.startFail 2 := by
  rcases hbist with hb | hb <;> simp [Blk.startLocked, hb, h, Blk.locked]

theorem Blk.startLocked_fuse (hbist : k ≠ .cold ∨ b.pins.bistOk = true) (hrom : romOk = true) (h : b.pins.fuseAck = false) :
    b.startLocked m k = b.locked.startFail 4 := by
  rcases hbist with hb | hb <;> simp [Blk.startLocked, hb, hrom, h, Blk.locked]

theorem Blk.startLocked_ram (hbist : k ≠ .cold ∨ b.pins.bistOk = true) (hrom : romOk = true) (hfuse : b.pins.fuseAck = true)
    (h : b.dbg.seqBad = true) : b.startLocked m k = b.locked.startFail 5 := by
  rcases hbist with hb | hb <;> simp [Blk.startLocked, hb, hrom, hfuse, h, Blk.locked]

end

theorem Blk.startLocked_cold {b : Blk} (h : b.LockGood .cold) (m : List Host.Cell) :
    b.startLocked m .cold = b.locked.startRead.startS8 := by
  obtain ⟨hbist, hrom, hfuse, hram⟩ := h
  have hbist := hbist.resolve_left (not_not_intro rfl)
  simp [Blk.startLocked, hbist, hrom, hfuse, hram, Blk.locked]

theorem Blk.startLocked_off {b : Blk} (h : b.LockGood .off) (m : List Host.Cell) :
    b.startLocked m .off = b.locked.startRead.startS7 m := by
  obtain ⟨-, hrom, hfuse, hram⟩ := h
  simp [Blk.startLocked, hrom, hfuse, hram, Blk.locked]

/-! ### The population -/

theorem Blk.foldl_modLink_frame (f : Nat → Link → Link) (l : List Nat) (b : Blk) :
    { l.foldl (fun b n => b.modLink n (f n)) b with links := b.links } = b := by
  induction l generalizing b with
  | nil => rfl
  | cons n l ih => exact congrArg (fun c : Blk => { c with links := b.links }) (ih (b.modLink n (f n)))

theorem Blk.pop_foldl_modLink {p : Nat → Bool} {l : List Nat} {n : Nat} {b : Blk} (h : n ∈ l ∨ (b.link n).pop = p n) :
    ((l.foldl (fun b n => b.modLink n (fun x => { x with pop := p n })) b).link n).pop = p n := by
  induction l generalizing b with
  | nil => exact h.resolve_left List.not_mem_nil
  | cons k l ih =>
    refine ih ?_
    rw [Blk.link_modLink]
    by_cases hk : n = k
    · exact .inr (by rw [if_pos hk, hk])
    · rw [if_neg hk]
      exact h.imp_left fun hmem => (List.mem_cons.1 hmem).resolve_left hk

theorem setHas_bitsOf {w v n : Nat} (h : n < w) : setHas (bitsOf w v) n = v.testBit n := by
  rw [Bool.eq_iff_iff, setHas_iff, bitsOf, List.mem_filter, List.mem_range]
  exact and_iff_right h

/-- The block that has read its fuses, before the population of its links stands. -/
def Blk.fusesRead (b : Blk) : Blk :=
  let f (k : Nat) : Nat := (tabGet 0 b.pins.fuse k).toNat
  let tiles := bitsOf 16 (f 0)
  { b with
    hctl := { b.hctl with
      fwver := (Sys2Proof.Config.romWord 65534).toNat % 2 ^ 16, tilePop := tiles,
      ctxPop := (List.range 1024).filter (fun p => bit (f (1 + p / 32)) (p % 32) && setHas tiles (p / 64)) }
    dbg := { b.dbg with lc := b.pins.lc } }

theorem Blk.startRead_eq (b : Blk) :
    b.startRead = (List.range 16).foldl (fun c n => c.modLink n (fun l => { l with pop := setHas b.fusesRead.hctl.tilePop n }))
      b.fusesRead := rfl

theorem Blk.startRead_frame (b : Blk) : { b.startRead with links := b.links } = b.fusesRead := by
  rw [Blk.startRead_eq]
  exact Blk.foldl_modLink_frame (fun n l => { l with pop := setHas b.fusesRead.hctl.tilePop n }) _ b.fusesRead

theorem Blk.pop_startRead (b : Blk) {n : Nat} (hn : n < 16) :
    (b.startRead.link n).pop = setHas b.fusesRead.hctl.tilePop n := by
  rw [Blk.startRead_eq]
  exact Blk.pop_foldl_modLink (.inl (List.mem_range.2 hn))

theorem Blk.tilePop_fusesRead (b : Blk) {n : Nat} (hn : n < 16) :
    setHas b.fusesRead.hctl.tilePop n = (tabGet 0 b.pins.fuse 0).getLsbD n := by
  rw [← BitVec.testBit_toNat]
  exact setHas_bitsOf hn

/-- What a cold start reaches at the lock: the first write of its voltage, the population read. -/
structure Blk.AtS8 (b t : Blk) : Prop where
  aon : t.aon = { b.aon with start := some (.cold, .s8) }
  lock : t.clk.lock = true
  avs : t.pwr.seq.avs = some (.startAging, 580 + b.pwr.cfg.offset.toNat)
  lc : t.dbg.lc = b.pins.lc
  tiles : ∀ n < 16, setHas t.hctl.tilePop n = (tabGet 0 b.pins.fuse 0).getLsbD n ∧ (t.link n).pop = setHas t.hctl.tilePop n

theorem Blk.voltage_two (b : Blk) : b.voltage 2 = 580 + b.pwr.cfg.offset.toNat := rfl

theorem Blk.atS8_startS8 (b : Blk) : b.AtS8 b.locked.startRead.startS8 := by
  have hframe := b.locked.startRead_frame
  have hpop := fun n (hn : n < 16) => b.locked.pop_startRead hn
  generalize b.locked.startRead = c at hframe hpop
  have haon : c.aon = b.aon := (congrArg (·.aon) hframe :)
  have hclk : c.clk = b.locked.clk := (congrArg (·.clk) hframe :)
  have hpwr : c.pwr = b.pwr := (congrArg (·.pwr) hframe :)
  have hdbg : c.dbg = b.locked.fusesRead.dbg := (congrArg (·.dbg) hframe :)
  have hctl : c.hctl = b.locked.fusesRead.hctl := (congrArg (·.hctl) hframe :)
  have hvolt : c.voltage 2 = 580 + b.pwr.cfg.offset.toNat := by rw [Blk.voltage_two, hpwr]
  exact
    { aon := congrArg (fun x : Aon => { x with start := some (.cold, .s8) }) haon
      lock := congrArg (·.lock) hclk
      avs := congrArg (fun v : Nat => some (AvsOcc.startAging, v)) hvolt
      lc := congrArg (·.lc) hdbg
      tiles := fun n hn => by
        have htiles : c.startS8.hctl.tilePop = b.locked.fusesRead.hctl.tilePop := congrArg (·.tilePop) hctl
        have hlinks : c.startS8.links = c.links := rfl
        rw [htiles, Blk.link, hlinks, ← Blk.link]
        exact ⟨b.locked.tilePop_fusesRead hn, hpop n hn⟩ }

/-- A start leaving OFF without its Caldera image becomes cold, for cause 1 (16 R584). -/
theorem Blk.startS7_invalid {b : Blk} (h : b.cal.valid = false) (m : List Host.Cell) :
    (b.startS7 m).aon.start = some (.cold, .s2) ∧ (b.startS7 m).aon.conv = 1 ∧ (b.startS7 m).sram = {} := by
  have hok : b.cal.ok = false := by simp [Caldera.ok, h]
  simp only [Blk.startS7, hok, Bool.false_and, Bool.not_false, if_true]
  split <;> exact ⟨rfl, rfl, rfl⟩

/-! ### The answer to the voltage request of S8 -/

/-- The block after an acknowledgement in S8, with a further aging step where the voltage was one's (13 R511). -/
def Blk.agingStep (b : Blk) (v : Nat) : Blk :=
  if v = b.voltage 2 then b.avsAcked v 0 else (b.avsAcked v 0).agingTaken.raise 0x63

/-- The aging offset that then stands. -/
def Blk.agedOffset (b : Blk) (v : Nat) : Nat :=
  if v = 580 + b.pwr.cfg.offset.toNat then b.pwr.cfg.offset.toNat else min 40 (b.pwr.cfg.offset.toNat + 5)

/-- The aging offset is measured. -/
def Blk.offsetMeasured (b : Blk) : Blk := b.modCfg (fun c => { c with measured := true })

theorem Blk.agingStep_keeps (b : Blk) (v : Nat) : (b.agingStep v).aon = b.aon ∧ (b.agingStep v).pins = b.pins ∧
    (b.agingStep v).clk = b.clk ∧ (b.agingStep v).pwr.seq.seq = b.pwr.seq.seq := by
  unfold Blk.agingStep
  split <;> exact ⟨rfl, rfl, rfl, rfl⟩

theorem Blk.offset_agingStep (b : Blk) (v : Nat) : (b.agingStep v).pwr.cfg.offset.toNat = b.agedOffset v := by
  unfold Blk.agingStep Blk.agedOffset
  rw [Blk.voltage_two]
  split
  · rfl
  · show (BitVec.ofNat 6 (min 40 (b.pwr.cfg.offset.toNat + 5))).toNat = _
    rw [BitVec.toNat_ofNat]
    omega

theorem Blk.agingWants_agingStep (b : Blk) (v : Nat) :
    (b.agingStep v).agingWants = (decide (b.agedOffset v < b.pins.need) && decide (b.agedOffset v < 40)) := by
  obtain ⟨-, hpins, -⟩ := b.agingStep_keeps v
  rw [Blk.agingWants, b.offset_agingStep, hpins]

section
variable {b : Blk} {v : Nat}

theorem Blk.Empty.agingStep (h : b.Empty) : (b.agingStep v).Empty := by
  unfold Blk.agingStep
  split
  · exact ⟨h.link, h.stt, h.sttBad, h.lane, h.doms, h.mgr, h.noInject⟩
  · refine ⟨h.link, h.stt, h.sttBad, fun q hq => ?_, h.doms, h.mgr, h.noInject⟩
    rw [Blk.raise, Blk.lane_modLane, if_neg (by omega)]
    exact h.lane q hq

theorem Blk.Empty.offsetMeasured (h : b.Empty) : b.offsetMeasured.Empty :=
  ⟨h.link, h.stt, h.sttBad, h.lane, h.doms, h.mgr, h.noInject⟩

variable (ha : b.pwr.seq.avs = some (.startAging, v)) (harm : b.inj.arm = []) (m : List Host.Cell)
include ha harm

theorem Blk.avsAck_startAging : b.avsAck m 0 true v =
    if (b.agingStep v).agingWants then (b.agingStep v).agingWrite .startAging 2
    else (b.agingStep v).offsetMeasured.startS9 m .cold := by
  rw [Blk.avsAck_of_acknowledged ha harm (by decide)]
  show (b.avsExchange v 0).startS8Ack m v = _
  unfold Blk.startS8Ack
  rw [Blk.avsDone_avsExchange (by decide)]
  rfl

/-- While the monitors want margin another step is written (13 R511). -/
theorem Blk.avsAck_startAging_of_wanted (hneed : b.agedOffset v < b.pins.need) (hroom : b.agedOffset v < 40) :
    b.avsAck m 0 true v = (b.agingStep v).agingWrite .startAging 2 := by
  simp [Blk.avsAck_startAging ha harm, Blk.agingWants_agingStep, hneed, hroom]

/-- With the offset measured the start goes on with S9. -/
theorem Blk.avsAck_startAging_of_measured (hno : b.pins.need ≤ b.agedOffset v ∨ 40 ≤ b.agedOffset v) :
    b.avsAck m 0 true v = (b.agingStep v).offsetMeasured.startS9 m .cold := by
  have hwants : (decide (b.agedOffset v < b.pins.need) && decide (b.agedOffset v < 40)) = false := by
    rw [Bool.and_eq_false_iff, decide_eq_false_iff_not, decide_eq_false_iff_not]; omega
  simp [Blk.avsAck_startAging ha harm, Blk.agingWants_agingStep, hwants]

end

/-! ### The obligation -/

/-- A first failure zeroes the Hub main domain and begins a cold start (16 R589). -/
theorem Blk.startFail_gives {b : Blk} (h : b.aon.retried = false) (cause : Nat) :
    (b.startFail cause).aon = { b.aon with start := some (.cold, .s2), retried := true, fail1 := cause } ∧
    (b.startFail cause).sram = {} := by
  rw [Blk.startFail_first h]
  exact ⟨rfl, rfl⟩

theorem tabGet_credit : ∀ n < 96, tabGet 0 ((List.range 96).map (fun n => (n, 4))) n = 4 := by decide

/-- Settles O55: at the lock a start fails or reads its population; at the acknowledgement it takes a step, or runs S9 to S13
on the empty Hub, whose updates leave alone what the statement names (`Blk.Keeps`). -/
theorem startsReachRunOrFail : Obligations.StartsReachRunOrFail := by
  unfold Obligations.StartsReachRunOrFail
  intro s b0 aon fails
  have hfails : ∀ (c : Instr) (cause : Nat) (b : Blk), b.aon = aon → exec c s = s.becomes (b.startFail cause) →
      fails c cause := fun c cause b haon hc hr =>
    ⟨_, hc, haon ▸ Blk.startFail_gives (haon ▸ hr) cause⟩
  refine ⟨fun k hstart hon hl => ?lock, fun v at_ hstart ha harm => ⟨?step, ?run, ?timeout⟩⟩
  case lock =>
    have hexec : exec .pllLock s = s.becomes (b0.startLocked s.mem k) :=
      congrArg s.becomes (Blk.pllLock_of_start s.mem hstart hon hl)
    have hlockFails : ∀ cause, b0.startLocked s.mem k = b0.locked.startFail cause → fails .pllLock cause := fun cause h =>
      hfails .pllLock cause b0.locked rfl (hexec.trans (congrArg s.becomes h))
    refine ⟨fun hk h => hlockFails 1 (Blk.startLocked_bist s.mem hk h), fun hbist =>
      ⟨fun h => hlockFails 2 (Blk.startLocked_rom s.mem hbist h), fun hrom h =>
        hlockFails 4 (Blk.startLocked_fuse s.mem hbist hrom h), fun hrom hfuse =>
          ⟨fun h => hlockFails 5 (Blk.startLocked_ram s.mem hbist hrom hfuse h), fun hram => ⟨?cold, ?off⟩⟩⟩⟩
    case cold =>
      rintro rfl
      have hS8 := b0.atS8_startS8
      exact ⟨_, hexec.trans (congrArg s.becomes (Blk.startLocked_cold ⟨hbist, hrom, hfuse, hram⟩ s.mem)),
        hS8.aon, hS8.lock, hS8.avs, hS8.lc, hS8.tiles⟩
    case off =>
      rintro rfl hcal
      exact ⟨_, hexec.trans (congrArg s.becomes (Blk.startLocked_off ⟨hbist, hrom, hfuse, hram⟩ s.mem)),
        Blk.startS7_invalid ((congrArg (·.cal.valid) b0.locked.startRead_frame).trans hcal) s.mem⟩
  case timeout => exact hfails .avsTimeout 6 (b0.avsDone none) rfl (congrArg s.becomes (Blk.avsTimeout_of_running ha))
  all_goals
    have hoffset := b0.offset_agingStep v
    obtain ⟨haon, hpins, hclk, hseq⟩ := b0.agingStep_keeps v
  case step =>
    intro hneed hroom
    have hvolt : (b0.agingStep v).voltage 2 + 5 = 580 + b0.agedOffset v + 5 := by rw [Blk.voltage_two, hoffset]
    exact ⟨_, congrArg s.becomes (Blk.avsAck_startAging_of_wanted ha harm s.mem hneed hroom), hoffset,
      congrArg (fun n : Nat => some (AvsOcc.startAging, n)) hvolt, congrArg (·.start) haon⟩
  case run =>
    intro hno hlink hiso hstt hecc hlanes hdoms harmed hmgr hnone
    have hempty : b0.Empty :=
      ⟨hlink, hstt, congrArg (·.sttBad) hecc, fun q _ => by rw [Blk.lane, hlanes, tabGet_nil], hdoms, hmgr, harm⟩
    obtain ⟨ht, hlive, hmaps⟩ := hempty.agingStep.offsetMeasured.started_startS9 ((congrArg (·.iso) hpins).trans hiso)
      (hseq.trans hnone) s.mem
    have hoff := (congrArg BitVec.toNat ht.offset).trans hoffset
    exact ⟨_, congrArg s.becomes (Blk.avsAck_startAging_of_measured ha harm s.mem hno), ht.state, ht.seq, ht.clamp, ht.hubReset,
      ht.cwPstate, ht.aon, ht.measured, hoff, ht.curOp.trans (congrArg (·.target) hclk), hlive, congrArg (·.kind) ht.ss,
      (congrArg (·.retried) ht.ss).trans (congrArg (·.retried) haon), ht.credit ▸ tabGet_credit, hmaps⟩

end Sys2Proof.Machine

/-! Host memory: what a command makes of it, and the canonical form that every step keeps (02 R71, R72). -/
namespace Sys2Proof.Machine
open Sys2Proof

/-- The outcome is a next state in which nothing but the block has changed. -/
def State.OnlyBlk (s : State) (o : Host.Outcome State Fault Refusal) : Prop := ∃ b, o = .next { s with blk := b }

section
variable {s : State}

theorem State.onlyBlk_run (f : List Host.Cell → Blk → Blk) : s.OnlyBlk (s.run f) := ⟨_, rfl⟩

theorem State.onlyBlk_ite {p : Prop} [Decidable p] {o o' : Host.Outcome State Fault Refusal} (h : s.OnlyBlk o)
    (h' : s.OnlyBlk o') : s.OnlyBlk (if p then o else o') := by
  split
  · exact h
  · exact h'

theorem State.onlyBlk_writeReg (src : Src) (off v : Nat) : s.OnlyBlk (s.writeReg src off v) := State.onlyBlk_run _

/-- A row that writes a register of one of an array's groups, and that does nothing for a group the block has not. -/
theorem State.onlyBlk_writeReg_ite (p : Prop) [Decidable p] (src : Src) (off v : Nat) :
    s.OnlyBlk (if p then s.writeReg src off v else s.run (fun _ b => b)) :=
  State.onlyBlk_ite (State.onlyBlk_writeReg src off v) (State.onlyBlk_run _)

theorem State.onlyBlk_clusterCtl (src : Src) (c rsv en : Nat) : s.OnlyBlk (s.clusterCtl src c rsv en) :=
  State.onlyBlk_writeReg_ite ..

theorem State.onlyBlk_linkCtl (src : Src) (n q : Nat) (w : Bool) (r : Nat) : s.OnlyBlk (s.linkCtl src n q w r) :=
  State.onlyBlk_writeReg_ite ..

end

/-- Only the acknowledgement of a write touches host memory. -/
def acksWrite : Instr → Bool
  | .lineWritebackAck _ | .lineWriteAck _ => true
  | _ => false

/-- Every other command changes the block alone. -/
theorem exec_onlyBlk (c : Instr) (s : State) (h : acksWrite c = false) : s.OnlyBlk (exec c s) := by
  cases c
  case lineWritebackAck => cases h
  case lineWriteAck => cases h
  case ringEnable => exact State.onlyBlk_writeReg_ite ..
  case ringDisable => exact State.onlyBlk_writeReg_ite ..
  case engineRevive => exact State.onlyBlk_writeReg_ite ..
  case agentBind => exact State.onlyBlk_writeReg_ite ..
  case clusterEnable => exact State.onlyBlk_clusterCtl ..
  case clusterDisable => exact State.onlyBlk_clusterCtl ..
  case linkQuiesce => exact State.onlyBlk_linkCtl ..
  case linkService => exact State.onlyBlk_linkCtl ..
  case linkRetrain => exact State.onlyBlk_linkCtl ..
  all_goals exact ⟨_, rfl⟩

/-- Host memory after the acknowledgement of a line's write-back: as it was, or with the line of its line buffer. -/
theorem State.mem_writebackAck (s : State) (line : Nat) :
    (s.writebackAck line).mem = s.mem ∨ ∃ d, (s.writebackAck line).mem = memWriteLine s.mem line d := by
  unfold State.writebackAck
  split
  · exact .inl rfl
  · exact .inr ⟨_, rfl⟩

/-- Host memory after the acknowledgement of a whole-line write: as it was, or with the line written. -/
theorem State.mem_writeAck (s : State) (line : Nat) :
    (s.writeAck line).mem = s.mem ∨ ∃ d, (s.writeAck line).mem = memWriteLine s.mem line d := by
  unfold State.writeAck
  split
  · exact .inl rfl
  · exact .inr ⟨_, rfl⟩

/-- What a command can make of host memory: nothing, or one line written whole (02 R72). -/
theorem exec_mem {c : Instr} {s t : State} (h : exec c s = .next t) :
    t.mem = s.mem ∨ ∃ line d, t.mem = memWriteLine s.mem line d := by
  cases hc : acksWrite c
  case false =>
    obtain ⟨b, hb⟩ := exec_onlyBlk c s hc
    cases hb.symm.trans h
    exact .inl rfl
  case true =>
    cases c <;> cases hc
    case lineWritebackAck line =>
      cases h
      exact (s.mem_writebackAck line).imp_right fun hd => ⟨line, hd⟩
    case lineWriteAck line =>
      cases h
      exact (s.mem_writeAck line).imp_right fun hd => ⟨line, hd⟩

theorem exec_keeps_inv {c : Instr} {s t : State} (hs : s.Inv) (h : exec c s = .next t) : t.Inv := by
  unfold State.Inv at hs ⊢
  rcases exec_mem h with hm | ⟨line, d, hm⟩
  · rw [hm]; exact hs
  · rw [hm]; exact wf_memWriteLine s.mem line d hs

/-- Settles O2: a step is a command or a period of the clock; a command writes host memory by whole lines only, and a period
leaves it as it is. -/
theorem stepKeepsMemoryForm : Obligations.StepKeepsMemoryForm := by
  unfold Obligations.StepKeepsMemoryForm
  intro s t hs h
  unfold step at h
  split at h
  case h_1 c rest _ => exact exec_keeps_inv (s := { s with pending := rest }) hs h
  case h_2 => cases h; exact hs

end Sys2Proof.Machine

/-! A record that its lane discards: what the discard counts, captures and reports, and what it leaves (02 R44 to R54;
04 R130 to R139). -/
namespace Sys2Proof.Machine
open Sys2Proof

/-! ### The lane at one record -/

/-- A record that comes now at an MIP is the only one of its lane, which takes it at once. -/
structure Blk.LaneFree (b : Blk) (mip : Nat) : Prop where
  port : mip < 96
  credit : tabGet 0 b.ing.credit mip ≠ 0
  awake : b.awake = true
  client : setHas b.pwr.seq.stopped (mip / 8) = false
  noInject : b.inj.arm = []
  noStall : (b.lane (mip / 8)).stall = none
  empty : (b.lane (mip / 8)).rx = []

/-- The record as the receive buffer keeps it. -/
def Blk.rxRec (b : Blk) (mip : Nat) (msg : MsgRec) : RxRec :=
  { mip := mip, time := b.now, msg := msg, at_ := (b.time.frames, b.time.hclk, b.time.tb) }

/-- A record of an MIP was discarded: the error registers hold `e`, source `k` is reported, the credit is back, and neither a
table, a holding register nor a place of the spill path has changed. -/
structure Blk.Discards (b0 b : Blk) (mip k : Nat) (e : Err) : Prop where
  sram : b.sram = b0.sram
  rings : b.rings = b0.rings
  hold : (b.lane (mip / 8)).hold = (b0.lane (mip / 8)).hold
  rx : (b.lane (mip / 8)).rx = []
  credit : tabGet 0 b.ing.credit mip = tabGet 0 b0.ing.credit mip
  reports : (b.lane 24).reports = (b0.lane 24).reports ++ [k]
  err : b.err = e
  frame : b.ing.frame = b0.ing.frame

/-- The block with other error registers and other cancelled TATs, and a report of source `k`: all that a discard changes. -/
def Blk.discarded (b : Blk) (v : List VoidTat) (e : Err) (k : Nat) : Blk :=
  ({ b with ing := { b.ing with voids := v }, err := e }).raise k

@[simp] theorem Blk.lane_creditBack (b : Blk) (mip q : Nat) : (b.creditBack mip).lane q = b.lane q := rfl

theorem Blk.lane_discarded (b : Blk) (v : List VoidTat) (e : Err) (k q : Nat) : (b.discarded v e k).lane q =
    if q = 24 then { b.lane 24 with reports := (b.lane 24).reports ++ [k] } else b.lane q := Blk.lane_modLane ..

theorem Blk.laneRun_of_empty {b : Blk} {q : Nat} (h : (b.lane q).rx = []) (n : Nat) : b.laneRun q n = b := by
  cases n with
  | zero => rfl
  | succ n => simp [Blk.laneRun, h]

/-- The lane's only record, found to be no event, leaves the lane with its credit. -/
theorem Blk.laneRun_of_none {b c : Blk} {q : Nat} {r : RxRec} (hs : (b.lane q).stall = none) (hrx : (b.lane q).rx = [r])
    (hd : b.decodeRec r = (c, none)) (n : Nat) :
    b.laneRun q (n + 1) = (c.modLane q (fun l => { l with rx := [] })).creditBack r.mip := by
  simp only [Blk.laneRun, hs, hrx, hd, Option.isSome_none, Bool.false_eq_true, if_false]
  exact Blk.laneRun_of_empty (by rw [Blk.lane_creditBack, Blk.lane_modLane_self]) n

theorem Blk.lane_keepRecord (b : Blk) (mip : Nat) (msg : MsgRec) (q : Nat) :
    (b.keepRecord mip msg).lane q = if q = mip / 8 then
      { b.lane q with rx := (b.lane q).rx.take (b.lane q).stalled ++
                              insertRx (b.rxRec mip msg) ((b.lane q).rx.drop (b.lane q).stalled) }
    else b.lane q := by
  refine (Blk.lane_modLane ..).trans ?_
  split
  case isTrue hq => subst hq; rfl
  case isFalse => rfl

section
variable {b : Blk} {mip : Nat} {msg : MsgRec}

theorem Blk.LaneFree.lane_keepRecord_self (h : b.LaneFree mip) :
    (b.keepRecord mip msg).lane (mip / 8) = { b.lane (mip / 8) with rx := [b.rxRec mip msg] } := by
  rw [Blk.lane_keepRecord, if_pos rfl]
  simp [h.empty, insertRx]

theorem Blk.LaneFree.internal_ne (h : b.LaneFree mip) : 24 ≠ mip / 8 := by
  have hport := h.port
  omega

/-- A record that its lane finds to be no event is discarded. -/
theorem Blk.LaneFree.discards (h : b.LaneFree mip) (m : List Host.Cell) {v : List VoidTat} {e : Err} {k : Nat}
    (hd : (b.keepRecord mip msg).decodeRec (b.rxRec mip msg) = ((b.keepRecord mip msg).discarded v e k, none)) :
    b.Discards (b.recordIn m mip msg) mip k e := by
  have hup : b.clientUp (mip / 8) = true := by simp [Blk.clientUp, h.client]
  have hself := h.lane_keepRecord_self (msg := msg)
  have hrun : b.recordIn m mip msg =
      (((b.keepRecord mip msg).discarded v e k).modLane (mip / 8) (fun l => { l with rx := [] })).creditBack mip := by
    simp only [Blk.recordIn, h.awake, hup, Bool.and_self, if_true, Blk.receive]
    exact Blk.laneRun_of_none (by rw [hself]; exact h.noStall) (by rw [hself]) hd 31
  have hlane (q : Nat) : (b.recordIn m mip msg).lane q =
      if q = mip / 8 then { b.lane q with rx := [] }
      else if q = 24 then { b.lane q with reports := (b.lane q).reports ++ [k] } else b.lane q := by
    rw [hrun, Blk.lane_creditBack, Blk.lane_modLane]
    split
    case isTrue hq => subst hq; rw [Blk.lane_discarded, if_neg h.internal_ne.symm, hself]
    case isFalse hq =>
      rw [Blk.lane_discarded, Blk.lane_keepRecord, if_neg h.internal_ne, Blk.lane_keepRecord, if_neg hq]
      split
      case isTrue h24 => rw [h24]
      case isFalse => rfl
  refine ⟨by rw [hrun]; rfl, by rw [hrun]; rfl, by rw [hlane, if_pos rfl], by rw [hlane, if_pos rfl], ?_,
    by rw [hlane, if_neg h.internal_ne, if_pos rfl], by rw [hrun]; rfl, by rw [hrun]; rfl⟩
  have hcredit : tabGet 0 (b.recordIn m mip msg).ing.credit mip = tabGet 0 b.ing.credit mip - 1 + 1 := by
    rw [hrun]
    exact (tabGet_tabMod_self 0 _ mip (· + 1)).trans (congrArg (· + 1) (tabGet_tabMod_self 0 b.ing.credit mip (· - 1)))
  have hpos := h.credit
  omega

end

/-! ### What stage q+3 finds -/

/-- ERR after a malformed record (02 R54). -/
def Err.malformed (e : Err) (mip cause reqid : Nat) : Err :=
  { e with malfCnt := satInc e.malfCnt, malfCap := e.malfCap.take mip cause reqid }

/-- ERR after an untranslated record (04 R139). -/
def Err.unmapped (e : Err) (mip cause reqid : Nat) : Err :=
  { e with unmapCnt := satInc e.unmapCnt, unmapCap := e.unmapCap.take mip cause reqid }

theorem Blk.voidDecision_voids (b : Blk) (r : RxRec) : ∃ v, b.voidDecision r = { b with ing := { b.ing with voids := v } } := by
  unfold Blk.voidDecision
  split
  · exact ⟨_, rfl⟩
  · dsimp only
    split <;> exact ⟨_, rfl⟩

section
variable {b : Blk} {r : RxRec} {c : Nat}

theorem Blk.decodeRec_of_malformed (h : b.inj.arm = []) (hm : malformed r.msg false false = some c) :
    ∃ v, b.decodeRec r = (b.discarded v (b.err.malformed r.mip c (decodeMsg r.msg).reqid) 0x04, none) := by
  obtain ⟨v, hv⟩ := b.voidDecision_voids r
  refine ⟨v, ?_⟩
  simp only [Blk.decodeRec, Blk.injHit_of_noArm h, Bool.false_eq_true, if_false, hm, hv]
  rfl

theorem Blk.sttRead_of_noArm (h : b.inj.arm = []) (i : Nat) : b.sttRead i = b := by
  simp [Blk.sttRead, Blk.injHit_of_noArm h]

theorem Blk.decodeRec_of_untranslated (h : b.inj.arm = []) (hm : malformed r.msg false false = none)
    (ht : b.translate (decodeMsg r.msg) = .inl c) :
    ∃ v, b.decodeRec r = (b.discarded v (b.err.unmapped r.mip c (decodeMsg r.msg).reqid) 0x05, none) := by
  obtain ⟨v, hv⟩ := b.voidDecision_voids r
  refine ⟨v, ?_⟩
  simp only [Blk.decodeRec, Blk.injHit_of_noArm h, Bool.false_eq_true, if_false, hm]
  cases hidx : b.translateIdx (decodeMsg r.msg) with
  | inl _ => simp only [ht, hv]; rfl
  | inr i => simp only [Blk.sttRead_of_noArm h, ht, hv]; rfl

end

end Sys2Proof.Machine

/-! Message records that are malformed, broken off or untranslated (02 R45, R54, Table 2-3; 04 R134, R135, R139, Table 4-4). -/
namespace Sys2Proof.Machine
open Sys2Proof

/-! ### A record broken off by MIPn_VLD low (02 R45, R54) -/

/-- Beat `k` of a command with the signals beside it. -/
def msgBeat (x : MsgRec) (k : Nat) : RxBeat :=
  { data := x.beats.getD k 0, som := x.som.getLsbD k, vld := x.vld.getLsbD k,
    chk := if k < 4 then x.chk[k]? else none, ecc := x.ecc.getD (k - 4) .clean }

/-- The stage that waits for MIPn_SOM passes beats without it. -/
theorem beats_hunting {l : List RxBeat} (h : ∀ x ∈ l, x.som = false) : RxFrame.hunting.beats l = (.hunting, []) := by
  induction l with
  | nil => rfl
  | cons x l ih =>
    obtain ⟨hx, hl⟩ := List.forall_mem_cons.1 h
    simp [RxFrame.beats, RxFrame.beat, hx, ih hl]

/-- Within a record, a beat with MIPn_VLD low ends it: the beats so far are a record, and the rest passes. -/
theorem beats_within_broken {l rest : List RxBeat} {x : RxBeat} (hl : ∀ y ∈ l, y.som = false ∧ y.vld = true)
    (hx : x.som = false ∧ x.vld = false) (hrest : ∀ y ∈ rest, y.som = false) (bs : List RxBeat)
    (hlen : bs.length + l.length < 8) :
    (RxFrame.within bs).beats (l ++ x :: rest) = (.hunting, [recOfBeats (bs ++ l ++ [x])]) := by
  induction l generalizing bs with
  | nil => simp [RxFrame.beats, RxFrame.beat, hx, beats_hunting hrest]
  | cons y l ih =>
    obtain ⟨hy, hl⟩ := List.forall_mem_cons.1 hl
    have hroom : bs.length ≠ 7 := by simp only [List.length_cons] at hlen; omega
    have hstep := ih hl (bs ++ [y]) (by simp only [List.length_append, List.length_cons, List.length_nil] at hlen ⊢; omega)
    simp [RxFrame.beats, RxFrame.beat, hy, hroom, hstep]

/-- The record of a command whose beat `j` came with MIPn_VLD low: the beats up to that one. -/
def brokenRec (x : MsgRec) (j : Nat) : MsgRec := recOfBeats ((List.range (j + 1)).map (msgBeat x))

/-- MIPn_VLD of a record broken off in beat `j` is low in that beat alone. -/
theorem vld_brokenAt : ∀ j < 8, ∀ k < 8, (255 - 1#8 <<< j : BitVec 8).getLsbD k = decide (k ≠ j) := by decide

/-- The beats of a record, cut at beat `j`. -/
theorem range_cut : ∀ j < 8, 1 ≤ j →
    List.range 8 = 0 :: (List.range' 1 (j - 1) ++ j :: List.range' (j + 1) (7 - j)) ∧
    List.range (j + 1) = 0 :: List.range' 1 (j - 1) ++ [j] := by decide

section
variable {msg : MsgRec} {j : Nat}

/-- The receive stage between records, at a command broken off in a beat after the first. -/
theorem beats_broken (h1 : 1 ≤ j) (h8 : j < 8) (hsom : msg.som = 1) (hvld : msg.vld = 255 - 1#8 <<< j) :
    RxFrame.between.beats (msgBeats msg) = (.hunting, [brokenRec msg j]) := by
  have hs (k : Nat) (hk : 0 < k) : (msgBeat msg k).som = false := by
    rw [msgBeat, hsom]
    simp [BitVec.getLsbD_one]; omega
  have hv (k : Nat) (hk : k < 8) : (msgBeat msg k).vld = decide (k ≠ j) := by
    rw [msgBeat, hvld]
    exact vld_brokenAt j h8 k hk
  have hfirst : RxFrame.between.beat (msgBeat msg 0) = (.within [msgBeat msg 0], none) := by
    have h0 : (msgBeat msg 0).som = true := by rw [msgBeat, hsom]; rfl
    simp [RxFrame.beat, h0]
  have hcut : msgBeats msg = msgBeat msg 0 :: ((List.range' 1 (j - 1)).map (msgBeat msg) ++
      msgBeat msg j :: (List.range' (j + 1) (7 - j)).map (msgBeat msg)) := by
    change (List.range 8).map (msgBeat msg) = _
    rw [(range_cut j h8 h1).1]
    simp
  have hbroken := beats_within_broken (l := (List.range' 1 (j - 1)).map (msgBeat msg)) (x := msgBeat msg j)
    (rest := (List.range' (j + 1) (7 - j)).map (msgBeat msg))
    (by
      simp only [List.forall_mem_map, List.mem_range'_1]
      exact fun k hk => ⟨hs k hk.1, by rw [hv k (by omega), decide_eq_true_eq]; omega⟩)
    ⟨hs j h1, by rw [hv j h8]; simp⟩
    (by
      simp only [List.forall_mem_map, List.mem_range'_1]
      exact fun k hk => hs k (by omega))
    [msgBeat msg 0] (by simp; omega)
  have hrec : [msgBeat msg 0] ++ (List.range' 1 (j - 1)).map (msgBeat msg) ++ [msgBeat msg j] =
      (List.range (j + 1)).map (msgBeat msg) := by
    rw [(range_cut j h8 h1).2]
    simp
  rw [hcut, RxFrame.beats, hfirst]
  simp only [hbroken, hrec, brokenRec, Option.map_none, Option.toList_none, List.nil_append]

end

theorem testBit_foldl_or {s : NSet} {a n : Nat} :
    (s.foldl (fun a k => a ||| 2 ^ k) a).testBit n = true ↔ a.testBit n = true ∨ n ∈ s := by
  induction s generalizing a with
  | nil => simp
  | cons k s ih =>
    rw [List.foldl_cons, ih, Nat.testBit_or, Nat.testBit_two_pow, Bool.or_eq_true, decide_eq_true_eq, List.mem_cons,
      eq_comm (a := k), or_assoc]

/-- A record whose MIPn_VLD was low in one of its beats does not read as eight valid ones. -/
theorem vld_recOfBeats_ne {l : List RxBeat} {j : Nat} (hj : j < 8)
    (h : (l.map (·.vld)).getD j false = false) : (recOfBeats l).vld ≠ 255 := by
  intro he
  have hbit : (recOfBeats l).vld.getLsbD j = true := by
    rw [he]
    interval_cases j <;> rfl
  simp only [recOfBeats, bitsTo, BitVec.getLsbD_ofNat, Bool.and_eq_true, testBit_foldl_or, List.mem_filter, h,
    Nat.zero_testBit, Bool.false_eq_true, and_false, or_false] at hbit

theorem msgFramed_iff {x : MsgRec} : msgFramed x = true ↔ x.som = 1 ∧ x.vld = 255 ∧ x.beats.length = 8 := by
  simp only [msgFramed, Bool.and_eq_true, beq_iff_eq, and_assoc]

/-- Cause 1 of Table 2-3. -/
theorem malformed_of_not_framed {x : MsgRec} (h : ¬ msgFramed x = true) (p2 p3 : Bool) : malformed x p2 p3 = some 1 := by
  rw [msgFramed_iff, not_and_or, not_and_or] at h
  exact if_pos h

section
variable {msg : MsgRec} {j : Nat}

theorem malformed_brokenRec (h8 : j < 8) (hvld : msg.vld = 255 - 1#8 <<< j) (p2 p3 : Bool) :
    malformed (brokenRec msg j) p2 p3 = some 1 := by
  have hlow : (msgBeat msg j).vld = false := by
    rw [msgBeat, hvld]
    simpa using vld_brokenAt j h8 j h8
  have hne : (brokenRec msg j).vld ≠ 255 := vld_recOfBeats_ne h8 (by simp [hlow])
  exact malformed_of_not_framed (fun hf => hne (msgFramed_iff.1 hf).2.1) p2 p3

/-- Beats 0 to 3 are not corrected: the requester is read off beat 0 as it came (02 R49, R50). -/
theorem reqid_eq (m : MsgRec) : (decodeMsg m).reqid = bits (m.beats.getD 0 0).toNat 15 0 := by
  have hbeat : beat m 0 = (m.beats.getD 0 0).toNat := by
    unfold beat
    dsimp only
    split <;> simp
  simp only [decodeMsg, hbeat]

theorem reqid_brokenRec : (decodeMsg (brokenRec msg j)).reqid = (decodeMsg msg).reqid := by
  have hfirst : (brokenRec msg j).beats.getD 0 0 = msg.beats.getD 0 0 := by
    simp [brokenRec, recOfBeats, msgBeat]
  rw [reqid_eq, reqid_eq, hfirst]

end

/-! ### Eight beats at an MIP -/

section
variable {b : Blk} {mip : Nat} {msg : MsgRec}

theorem Blk.LaneFree.messageRecord_eq (h : b.LaneFree mip) (m : List Host.Cell) :
    b.messageRecord m mip msg = (b.framing mip msg).2.foldl (fun b r => b.recordIn m mip r) (b.framing mip msg).1 := by
  have hport := h.port
  simp [Blk.messageRecord, h.credit]
  omega

/-- Between records, a framed record is received as it came. -/
theorem Blk.LaneFree.messageRecord_framed (h : b.LaneFree mip) (hf : tabGet .between b.ing.frame mip = .between)
    (hm : msgFramed msg = true) (m : List Host.Cell) : b.messageRecord m mip msg = b.recordIn m mip msg := by
  simp [h.messageRecord_eq, Blk.framing, hf, hm]

/-- Between records, a record broken off is received as far as it came, and the stage waits for MIPn_SOM. -/
theorem Blk.LaneFree.messageRecord_broken (h : b.LaneFree mip) (hf : tabGet .between b.ing.frame mip = .between) {j : Nat}
    (h1 : 1 ≤ j) (h8 : j < 8) (hsom : msg.som = 1) (hvld : msg.vld = 255 - 1#8 <<< j) (m : List Host.Cell) :
    b.messageRecord m mip msg =
      ({ b with ing := { b.ing with frame := tabSet .between b.ing.frame mip .hunting } }).recordIn m mip (brokenRec msg j) := by
  have hnot : ¬ msgFramed msg = true := fun hframed => by
    have hall := (msgFramed_iff.1 hframed).2.1
    rw [hvld] at hall
    interval_cases j <;> cases hall
  simp [h.messageRecord_eq, Blk.framing, hf, hnot, beats_broken h1 h8 hsom hvld]

/-- A record found malformed is discarded. -/
theorem Blk.LaneFree.discards_malformed (h : b.LaneFree mip) (m : List Host.Cell) {c : Nat}
    (hm : malformed msg false false = some c) :
    b.Discards (b.recordIn m mip msg) mip 0x04 (b.err.malformed mip c (decodeMsg msg).reqid) := by
  obtain ⟨v, hv⟩ := Blk.decodeRec_of_malformed (b := b.keepRecord mip msg) (r := b.rxRec mip msg) h.noInject hm
  exact h.discards m hv

/-- A well-formed record that finds no source is discarded. -/
theorem Blk.LaneFree.discards_untranslated (h : b.LaneFree mip) (m : List Host.Cell) {c : Nat}
    (hm : malformed msg false false = none) (ht : b.translate (decodeMsg msg) = .inl c) :
    b.Discards (b.recordIn m mip msg) mip 0x05 (b.err.unmapped mip c (decodeMsg msg).reqid) := by
  obtain ⟨v, hv⟩ := Blk.decodeRec_of_untranslated (b := b.keepRecord mip msg) (r := b.rxRec mip msg) h.noInject hm ht
  exact h.discards m hv

theorem msgFramed_of_wellFormed (h : malformed msg false false = none) : msgFramed msg = true := by
  by_contra hnot
  rw [malformed_of_not_framed hnot] at h
  cases h

end

/-! ### Translation (04 R134, R135) -/

/-- The vector or channel of a record. -/
def Msg.number (d : Msg) : Nat := if d.data then d.channel else d.vector

/-- Sources of a block of the requester, of the record's kind. -/
def Requester.count (r : Requester) (d : Msg) : Nat := if d.data then r.ccount else r.mcount

/-- The STT index that the requester's entry gives. -/
def Requester.index (r : Requester) (d : Msg) : Nat :=
  (if d.data then r.cbase else r.mbase) + (if r.pmode then d.pasid else 0) * r.count d + d.number

/-- The requester is known, and the record's PASID lies in its blocks. -/
def Requester.Covers (r : Requester) (d : Msg) : Prop :=
  r.valid = true ∧ (r.pmode = true → d.pv = true ∧ d.pasid < r.pcount)

section
variable {b : Blk} {d : Msg} {rq : Requester}

theorem Blk.requester_of_sound {r : Nat} (h : setHas b.ecc.reqBad r = false) : b.requester r = tabGet {} b.sram.req r := by
  simp [Blk.requester, h]

theorem Blk.translate_unknown (hrq : b.requester d.reqid = rq) (hv : rq.valid = false) : b.translate d = .inl 1 := by
  simp [Blk.translate, Blk.translateIdx, hrq, hv]

theorem Blk.translate_outside (hrq : b.requester d.reqid = rq) (hv : rq.valid = true) (hp : rq.pmode = true)
    (ho : d.pv = false ∨ rq.pcount ≤ d.pasid) : b.translate d = .inl 2 := by
  simp [Blk.translate, Blk.translateIdx, hrq, hv, hp, ho]

theorem Blk.translateIdx_covered (hrq : b.requester d.reqid = rq) (hc : rq.Covers d) : b.translateIdx d =
    if rq.count d ≤ d.number then .inl 3 else if 524287 < rq.index d then .inl 3 else .inr (rq.index d) := by
  obtain ⟨hv, hp⟩ := hc
  have hin : (rq.pmode && (!d.pv || decide (rq.pcount ≤ d.pasid))) = false := by
    cases hpm : rq.pmode
    · rfl
    · simp [hp hpm]
  simp only [Blk.translateIdx, hrq, hv, hin, Bool.not_true, Bool.false_eq_true, if_false]
  rfl

theorem Blk.translate_beyond (hrq : b.requester d.reqid = rq) (hc : rq.Covers d) (hn : rq.count d ≤ d.number) :
    b.translate d = .inl 3 := by
  simp [Blk.translate, Blk.translateIdx_covered hrq hc, hn]

theorem Blk.stt_invalid {i : Nat} (h : (tabGet {} b.sram.stt i).valid = false) : (b.stt i).valid = false := by
  unfold Blk.stt
  dsimp only
  split
  · rfl
  · exact h

/-- The window is the 4 KiB page of the two HCTL.MSI registers (04 R135). -/
theorem Blk.inMsiWindow_iff (a : Dword) : b.inMsiWindow a = true ↔
    a.toNat / 4096 = b.hctl.msiHi.toNat * 2 ^ 20 + b.hctl.msiLo.toNat / 4096 := by
  have ha := a.isLt
  have hlo := b.hctl.msiLo.isLt
  simp only [Blk.inMsiWindow, bits, beq_iff_eq, Nat.shiftRight_eq_div_pow]
  omega

/-! The index lies in the requester's block and in the STT: its entry decides. -/

variable (hrq : b.requester d.reqid = rq) (hc : rq.Covers d) (hn : d.number < rq.count d) (hi : rq.index d ≤ 524287)
include hrq hc hn hi

theorem Blk.translateIdx_indexed : b.translateIdx d = .inr (rq.index d) := by
  rw [Blk.translateIdx_covered hrq hc, if_neg (by omega), if_neg (by omega)]

theorem Blk.translate_invalid (hv : (b.stt (rq.index d)).valid = false) : b.translate d = .inl 4 := by
  simp only [Blk.translate, Blk.translateIdx_indexed hrq hc hn hi, hv, Bool.not_false, if_true]

theorem Blk.translate_otherKind (hv : (b.stt (rq.index d)).valid = true)
    (hk : (b.stt (rq.index d)).kind ≠ if d.data then .data else .msi) : b.translate d = .inl 5 := by
  simp only [Blk.translate, Blk.translateIdx_indexed hrq hc hn hi, hv, Bool.not_true, Bool.false_eq_true, if_false, if_pos hk]

theorem Blk.translate_outsideWindow (hv : (b.stt (rq.index d)).valid = true) (hd : d.data = false)
    (hk : (b.stt (rq.index d)).kind = .msi) (hw : b.inMsiWindow d.addr = false) : b.translate d = .inl 6 := by
  simp [Blk.translate, Blk.translateIdx_indexed hrq hc hn hi, hv, hd, hk, hw]

end

/-- Settles O5: the lane finds the record malformed or without a source, and `Blk.LaneFree.discards` gives what the discard
leaves; a record broken off is the malformed record of the beats that came. -/
theorem badRecordIsDiscarded : Obligations.BadRecordIsDiscarded := by
  unfold Obligations.BadRecordIsDiscarded
  intro s mip msg b0 d rq n v count i lane hport hcredit hawake hclient harm hframe hstall hempty hsound cap keeps unmapped idx
    bad
  have hfree : b0.LaneFree mip := ⟨hport, hcredit, hawake, hclient, harm, hstall, hempty⟩
  have hrq : b0.requester d.reqid = rq := Blk.requester_of_sound hsound
  have hkeeps {b : Blk} {k : Nat} {e : Err} (hb : b0.messageRecord s.mem mip msg = b) (h : b0.Discards b mip k e) : keeps b :=
    ⟨congrArg s.becomes hb, h.sram, h.rings, h.hold, h.rx, h.credit⟩
  refine ⟨?malformed, ?broken, fun hm => ?_⟩
  case malformed =>
    intro c hframed hm
    have hd := hfree.discards_malformed s.mem hm
    exact ⟨_, hkeeps (hfree.messageRecord_framed hframe hframed s.mem) hd, hd.reports, hd.err, hd.frame ▸ hframe⟩
  case broken =>
    intro j h1 h8 _ hsom hvld
    have hfree1 : ({ b0 with ing := { b0.ing with frame := tabSet .between b0.ing.frame mip .hunting } } : Blk).LaneFree mip :=
      ⟨hport, hcredit, hawake, hclient, harm, hstall, hempty⟩
    have hd := hfree1.discards_malformed s.mem (malformed_brokenRec h8 hvld false false)
    rw [reqid_brokenRec] at hd
    have hrow := hfree.messageRecord_broken hframe h1 h8 hsom hvld s.mem
    refine ⟨_, ⟨congrArg s.becomes hrow, hd.sram, hd.rings, hd.hold, hd.rx, hd.credit⟩, hd.reports, hd.err, ?_⟩
    rw [hd.frame]
    exact tabGet_tabSet_self RxFrame.between b0.ing.frame mip .hunting
  have hunmapped {c : Nat} (ht : b0.translate d = .inl c) : unmapped c := by
    have hd := hfree.discards_untranslated s.mem hm ht
    exact ⟨_, hkeeps (hfree.messageRecord_framed hframe (msgFramed_of_wellFormed hm) s.mem) hd, hd.reports, hd.err⟩
  refine ⟨fun hv => ?unknown, fun hv hp ho => ?outside, fun hc hn => ?beyond, fun hc hn hi hst => ?invalid,
    fun hc hn hi hst hk => ?kind, fun hc hn hi hst hdata hk hw => ?window⟩
  case unknown => exact hunmapped (Blk.translate_unknown hrq hv)
  case outside => exact hunmapped (Blk.translate_outside hrq hv hp ho)
  case beyond => exact hunmapped (Blk.translate_beyond hrq hc hn)
  case invalid => exact hunmapped (Blk.translate_invalid hrq hc hn hi (Blk.stt_invalid hst))
  case kind => exact hunmapped (Blk.translate_otherKind hrq hc hn hi hst hk)
  case window =>
    exact hunmapped (Blk.translate_outsideWindow hrq hc hn hi hst hdata hk
      (Bool.eq_false_iff.2 fun hin => hw ((Blk.inMsiWindow_iff d.addr).1 hin)))

end Sys2Proof.Machine

/-! Wired lines from their pins to their latches, the turn of a wired lane, and reports of internal sources (02 R61 to R64;
04 R140 to R145). -/
namespace Sys2Proof.Machine
open Sys2Proof

/-! ### Sampling edges of a line (02 R61, R62) -/

/-- The synchroniser and samples of a line settled at the other level, after `n` edges that captured `v`. -/
def stagesAfter (v : Bool) : Nat → BitVec 5
  | 0 => if v then 0 else BitVec.allOnes 5
  | n + 1 => syncEdge (stagesAfter v n) v

/-- Before the fifth edge the three samples do not agree on the new level. -/
theorem agreed_stagesAfter_ne : ∀ v : Bool, ∀ n < 5, agreed false (stagesAfter v n) ≠ some v := by decide

theorem agreed_stagesAfter_five : ∀ v : Bool, agreed false (stagesAfter v 5) = some v := by decide

/-- From `b0` to `b`, the pin of line `i` took the level `v` and `n` edges captured it; nothing else changed. -/
structure Blk.Sampling (b0 b : Blk) (i : Nat) (v : Bool) (n : Nat) : Prop where
  pin : setHas b.pins.lines i = v
  stages : tabGet 0 b.ing.sync i = stagesAfter v n
  rest : b = { b0 with pins := b.pins, ing := { b0.ing with sync := b.ing.sync } }

section
variable {b0 b : Blk} {i : Nat} {v : Bool} {n : Nat}

theorem Blk.Sampling.awake (h : b0.Sampling b i v n) : b.awake = b0.awake := (congrArg Blk.awake h.rest).trans rfl

theorem Blk.Sampling.level (h : b0.Sampling b i v n) : b.ing.level = b0.ing.level :=
  (congrArg (·.ing.level) h.rest).trans rfl

theorem Blk.Sampling.latch (h : b0.Sampling b i v n) : b.ing.latch = b0.ing.latch :=
  (congrArg (·.ing.latch) h.rest).trans rfl

/-- The block with these synchroniser stages. -/
def Blk.withSync (b : Blk) (t : Tab (BitVec 5)) : Blk := { b with ing := { b.ing with sync := t } }

/-- The block with the next edge of line `i` captured. -/
def Blk.captured (b : Blk) (i : Nat) : Blk :=
  b.withSync (tabSet 0 b.ing.sync i (syncEdge (tabGet 0 b.ing.sync i) (setHas b.pins.lines i)))

theorem Blk.Sampling.captured (h : b0.Sampling b i v n) : b0.Sampling (b.captured i) i v (n + 1) := by
  refine ⟨h.pin, ?_, ?_⟩
  · refine (tabGet_tabSet_self 0 b.ing.sync i _).trans ?_
    rw [h.stages, h.pin]
    rfl
  · exact congrArg (Blk.withSync · _) h.rest

/-- An edge in RUN: a level on which the samples agree is accepted when it is a new one. -/
theorem Blk.lineEdge_of_awake (ha : b.awake = true) (m : List Host.Cell) (i : Nat) :
    b.lineEdge m i = match agreed false (syncEdge (tabGet 0 b.ing.sync i) (setHas b.pins.lines i)) with
      | none => b.captured i
      | some w => if w == setHas b.ing.level i then b.captured i else (b.captured i).lineInRun m i w := by
  have hclk : b.lineClk = .hclk := by simp [Blk.lineClk, ha]
  simp only [Blk.lineEdge, hclk]
  rfl

theorem Blk.Sampling.lineEdge_eq (h : b0.Sampling b i v n) (ha : b0.awake = true) (m : List Host.Cell) :
    b.lineEdge m i = match agreed false (stagesAfter v (n + 1)) with
      | none => b.captured i
      | some w => if w == setHas b0.ing.level i then b.captured i else (b.captured i).lineInRun m i w := by
  have hnext : syncEdge (tabGet 0 b.ing.sync i) (setHas b.pins.lines i) = stagesAfter v (n + 1) := by
    rw [h.stages, h.pin]
    rfl
  rw [Blk.lineEdge_of_awake (h.awake.trans ha), hnext, h.level]

variable (ha : b0.awake = true) (hnew : v ≠ setHas b0.ing.level i)
include ha hnew

/-- Before the fifth edge nothing is accepted. -/
theorem Blk.Sampling.lineEdge (h : b0.Sampling b i v n) (hn : n + 1 < 5) (m : List Host.Cell) :
    b0.Sampling (b.lineEdge m i) i v (n + 1) := by
  have hne := agreed_stagesAfter_ne v (n + 1) hn
  rw [h.lineEdge_eq ha]
  split
  · exact h.captured
  case h_2 w hw =>
    have hold : w = setHas b0.ing.level i := by
      rw [hw] at hne
      cases w <;> cases v <;> cases hl : setHas b0.ing.level i <;> simp_all
    rw [if_pos (beq_iff_eq.2 hold)]
    exact h.captured

theorem Blk.Sampling.lineEdges (h : b0.Sampling b i v n) (m : List Host.Cell) (k : Nat) (hn : n + k < 5) :
    b0.Sampling (b.lineEdges m i k) i v (n + k) := by
  induction k generalizing b n with
  | zero => exact h
  | succ k ih =>
    have hstep := ih (h.lineEdge ha hnew (by omega) m) (by omega)
    rwa [show n + 1 + k = n + (k + 1) by omega] at hstep

/-- The fifth edge accepts the new level. -/
theorem Blk.Sampling.lineEdges_five (h : b0.Sampling b i v 0) (m : List Host.Cell) :
    ∃ b', b0.Sampling b' i v 5 ∧ b.lineEdges m i 5 = b'.lineInRun m i v := by
  have h4 := h.lineEdges ha hnew m 4 (by omega)
  refine ⟨_, h4.captured, ?_⟩
  have hsplit : b.lineEdges m i 5 = (b.lineEdges m i 4).lineEdge m i := rfl
  rw [hsplit, h4.lineEdge_eq ha, agreed_stagesAfter_five]
  exact if_neg (by simpa using hnew)

end

/-! ### The latch of a line (04 R140, R141) -/

section
variable (b : Blk) (i : Nat) (v : Bool)

/-- The latch of line `i` after an accepted change to `v`. -/
def Blk.latched : WLatch :=
  let l := tabGet {} b.ing.latch i
  { full := true, level := v, edge := l.edge || v == (b.stt i).pol, time := if l.full then l.time else b.now }

theorem Blk.ing_lineChange : (b.lineChange i v).ing =
    { b.ing with level := setPut b.ing.level i v, latch := tabSet {} b.ing.latch i (b.latched i v) } := by
  unfold Blk.lineChange
  dsimp only
  split <;> rfl

theorem Blk.pwr_lineChange : (b.lineChange i v).pwr = b.pwr := by
  unfold Blk.lineChange
  dsimp only
  split <;> rfl

theorem Blk.level_lineChange : setHas (b.lineChange i v).ing.level i = v := by
  rw [Blk.ing_lineChange]
  simp [setHas_setPut]

theorem Blk.latch_lineChange : tabGet {} (b.lineChange i v).ing.latch i = b.latched i v := by
  rw [Blk.ing_lineChange]
  exact tabGet_tabSet_self {} b.ing.latch i (b.latched i v)

/-- The group's count of coalesced activations after an accepted change of line `i` to `v`. -/
def Blk.coalCnt : Word :=
  let l := tabGet {} b.ing.latch i
  let n := tabGet 0 b.err.wlCoal (i / 128)
  if l.full && l.edge && v == (b.stt i).pol && (b.stt i).kind == .edge then satInc n else n

theorem Blk.wlCoal_lineChange (hv : (b.stt i).valid = true) :
    tabGet 0 (b.lineChange i v).err.wlCoal (i / 128) = b.coalCnt i v := by
  unfold Blk.lineChange
  simp only [hv, Bool.and_true]
  split
  case isTrue hc => exact (tabGet_tabMod_self 0 b.err.wlCoal (i / 128) satInc).trans (if_pos hc).symm
  case isFalse hc => exact (if_neg hc).symm

end

section
variable {b0 b : Blk} {i : Nat} {v : Bool} {n : Nat}

theorem Blk.Sampling.stt (h : b0.Sampling b i v n) (k : Nat) : b.stt k = b0.stt k :=
  (congrArg (Blk.stt · k) h.rest).trans rfl

theorem Blk.Sampling.latched (h : b0.Sampling b i v n) : b.latched i v = b0.latched i v :=
  (congrArg (Blk.latched · i v) h.rest).trans rfl

theorem Blk.Sampling.coalCnt (h : b0.Sampling b i v n) : b.coalCnt i v = b0.coalCnt i v :=
  (congrArg (Blk.coalCnt · i v) h.rest).trans rfl

end

/-- What the row makes of a line of a port. -/
theorem exec_wiredLineChange {s : State} {wlp line : Nat} (hw : wlp < 24) (hl : line < 64) (level : Bool) (n : Nat) :
    exec (.wiredLineChange wlp line level n) s = s.becomes (s.blk.wiredLevel s.mem (64 * wlp + line) level n) := by
  have hrow : exec (.wiredLineChange wlp line level n) s = s.becomes (s.blk.when (wlp < 24 && line < 64) (fun b =>
      b.wiredLevel s.mem (64 * wlp + line) level n)) := rfl
  rw [hrow]
  simp [hw, hl]

/-- The pin of a settled line takes its new level. -/
theorem Blk.sampling_pin {b : Blk} {i : Nat} {v : Bool} (hnew : v ≠ setHas b.ing.level i)
    (hsettled : tabGet 0 b.ing.sync i = if setHas b.ing.level i then BitVec.allOnes 5 else 0) :
    b.Sampling { b with pins := { b.pins with lines := setPut b.pins.lines i v } } i v 0 := by
  refine ⟨?_, ?_, rfl⟩
  · simp [setHas_setPut]
  · refine hsettled.trans ?_
    cases hl : setHas b.ing.level i <;> cases v <;> simp_all [stagesAfter]

/-- Fewer than five edges accept nothing. -/
theorem Blk.wiredLevel_early {b : Blk} {i : Nat} {v : Bool} (ha : b.awake = true) (hnew : v ≠ setHas b.ing.level i)
    (hsettled : tabGet 0 b.ing.sync i = if setHas b.ing.level i then BitVec.allOnes 5 else 0) {n : Nat} (hn : n < 5)
    (m : List Host.Cell) : b.Sampling (b.wiredLevel m i v n) i v n := by
  have hs := (Blk.sampling_pin hnew hsettled).lineEdges ha hnew m n (by omega)
  rw [Nat.zero_add] at hs
  rwa [Blk.wiredLevel, Nat.min_eq_left (by omega)]

/-- Five edges or more accept the new level, at the fifth. -/
theorem Blk.wiredLevel_settled {b : Blk} {i : Nat} {v : Bool} (ha : b.awake = true) (hnew : v ≠ setHas b.ing.level i)
    (hsettled : tabGet 0 b.ing.sync i = if setHas b.ing.level i then BitVec.allOnes 5 else 0)
    (hclient : setHas b.pwr.seq.stopped (i / 128) = false) {n : Nat} (hn : 5 ≤ n) (m : List Host.Cell) :
    ∃ b', b.Sampling b' i v 5 ∧ b.wiredLevel m i v n = b'.lineChange i v := by
  obtain ⟨b', hs, hfive⟩ := (Blk.sampling_pin hnew hsettled).lineEdges_five ha hnew m
  refine ⟨b', hs, ?_⟩
  have hpwr : (b'.lineChange i v).pwr = b.pwr := (b'.pwr_lineChange i v).trans ((congrArg (·.pwr) hs.rest).trans rfl)
  have hup : (b'.lineChange i v).clientUp (i / 128) = true := by simp [Blk.clientUp, hpwr, hclient]
  rw [Blk.wiredLevel, Nat.min_eq_right hn, hfive]
  simp [Blk.lineInRun, hup]

/-! ### The turn of a wired lane (04 R142, R145) -/

/-- An event of a resident source enters the free holding register of its bank. -/
theorem Blk.placeEvent_of_free {b : Blk} {q : Nat} {ev : Event} (hres : (b.stt ev.stt).res = true)
    (hfree : ∀ x ∈ (b.lane q).hold, x.1 ≠ (b.stt ev.stt).slot % 16) : b.placeEvent q ev =
      (b.modLane q (fun l => { l with hold := tabPut l.hold ((b.stt ev.stt).slot % 16) ev, stall := none }), true) := by
  have hnone : (b.lane q).hold.any (fun x => x.1 == (b.stt ev.stt).slot % 16) = false := by
    simpa using fun k e hx => hfree (k, e) hx
  simp only [Blk.placeEvent, hres, hnone, Bool.not_true, Bool.false_eq_true, if_false]

section
variable {b : Blk} {i : Nat} {l : WLatch}

/-- The event of a line: its source, under the generation of its domain, at the time that the latch captured. -/
def Blk.lineEvent (b : Blk) (i : Nat) (l : WLatch) (kind : EventKind) : Event :=
  { stt := i, mapgen := (b.stt i).mapgen, gen := (b.dom (b.stt i).domid).gen, kind := kind, time := l.time }

theorem Blk.latchEvent_unmapped (hv : (b.stt i).valid = false) : b.latchEvent i l = (b, none) := by
  simp [Blk.latchEvent, hv]

theorem Blk.latchEvent_level (hv : (b.stt i).valid = true) (hk : (b.stt i).kind = .level) :
    b.latchEvent i l = (b, some (b.lineEvent i l (.level (l.level == (b.stt i).pol)))) := by
  simp [Blk.latchEvent, hv, hk, Blk.lineEvent]

theorem Blk.latchEvent_noEdge (hv : (b.stt i).valid = true) (hk : (b.stt i).kind = .edge) (he : l.edge = false) :
    b.latchEvent i l = (b, none) := by
  simp [Blk.latchEvent, hv, hk, he]

theorem Blk.latchEvent_edge (hv : (b.stt i).valid = true) (hk : (b.stt i).kind = .edge) (henv : (b.stt i).env.envv = false)
    (he : l.edge = true) : b.latchEvent i l = (b, some (b.lineEvent i l .arrival)) := by
  simp [Blk.latchEvent, hv, hk, he, Blk.envelopeCheck, henv, Blk.lineEvent]

end

/-- The block with the latch of line `k` of a group taken. -/
def Blk.latchTaken (b : Blk) (g k : Nat) : Blk :=
  ({ b with ing := { b.ing with latch := tabDel b.ing.latch (128 * g + k) } }).modLane (12 + g) (fun x => { x with last := k })

section
variable {b : Blk} {g k : Nat} {rest : List Nat} (hstall : (b.lane (12 + g)).stall = none) (harm : b.inj.arm = [])
  (horder : b.latchOrder g = k :: rest)
include hstall harm horder

/-- A turn takes the first full latch, and places the event that it makes, if it makes one. -/
theorem Blk.wiredTurn_eq : b.wiredTurn g =
    ((b.latchTaken g k).latchEvent (128 * g + k) (tabGet {} b.ing.latch (128 * g + k))).2.elim
      ((b.latchTaken g k).latchEvent (128 * g + k) (tabGet {} b.ing.latch (128 * g + k))).1
      (fun ev => (((b.latchTaken g k).latchEvent (128 * g + k) (tabGet {} b.ing.latch (128 * g + k))).1.placeEvent
        (12 + g) ev).1) := by
  have hread : (b.latchTaken g k).sttRead (128 * g + k) = b.latchTaken g k := Blk.sttRead_of_noArm (b := b.latchTaken g k) harm _
  unfold Blk.latchTaken at hread ⊢
  simp only [Blk.wiredTurn, hstall, Option.isSome_none, Bool.false_eq_true, if_false, horder, hread]
  split
  case h_1 hnone => rw [hnone]; rfl
  case h_2 ev hev => rw [hev]; rfl

end

/-! ### Reports of internal sources (04 R143) -/

theorem Blk.internalReport_eq {b : Blk} {k : Nat} (hstall : (b.lane 24).stall = none)
    (hv : (b.stt (1536 + k)).valid = true) (hres : (b.stt (1536 + k)).res = true)
    (hfree : ∀ x ∈ (b.lane 24).hold, x.1 ≠ (b.stt (1536 + k)).slot % 16) :
    ((b.internalReport k).lane 24).reports = (b.lane 24).reports.erase k ∧
    ((b.internalReport k).lane 24).hold = tabPut (b.lane 24).hold ((b.stt (1536 + k)).slot % 16)
      { stt := 1536 + k, mapgen := (b.stt (1536 + k)).mapgen, gen := (b.dom (b.stt (1536 + k)).domid).gen, time := b.now } := by
  let b1 := b.modLane 24 (fun x => { x with reports := x.reports.erase k })
  let ev : Event :=
    { stt := 1536 + k, mapgen := (b.stt (1536 + k)).mapgen, gen := (b.dom (b.stt (1536 + k)).domid).gen, time := b.now }
  have hlane : b1.lane 24 = { b.lane 24 with reports := (b.lane 24).reports.erase k } := Blk.lane_modLane_self ..
  have hplace : b1.placeEvent 24 ev = (b1.modLane 24 (fun l =>
      { l with hold := tabPut l.hold ((b.stt (1536 + k)).slot % 16) ev, stall := none }), true) :=
    Blk.placeEvent_of_free (b := b1) (ev := ev) hres (by rw [hlane]; exact hfree)
  have hreport : b.internalReport k = (b1.placeEvent 24 ev).1 := by
    have hv1 : (b1.stt (1536 + k)).valid = true := hv
    simp only [Blk.internalReport, hstall, Option.isSome_none, Bool.false_eq_true, if_false, Blk.internalEvent]
    exact (congrArg (fun p : Bool => if !p then b1 else _) hv1).trans rfl
  rw [hreport, hplace, Blk.lane_modLane_self, hlane]
  exact ⟨rfl, rfl⟩

/-! ### The rows -/

section
variable {s : State} (ha : s.blk.awake = true)
include ha

theorem exec_wiredLaneTurn {g : Nat} (hg : g < 12) (hclient : setHas s.blk.pwr.seq.stopped g = false) :
    exec (.wiredLaneTurn g) s = s.becomes (s.blk.wiredTurn g) := by
  have hrow : exec (.wiredLaneTurn g) s = s.becomes (s.blk.when (s.blk.awake && g < 12 && s.blk.clientUp g) (fun b =>
      b.wiredTurn g)) := rfl
  rw [hrow]
  simp [ha, hg, Blk.clientUp, hclient]

theorem exec_internalReport {k : Nat} (hk : k < 256) (hclient : setHas s.blk.pwr.seq.stopped 46 = false) :
    exec (.internalReport k) s = s.becomes (s.blk.internalReport k) := by
  have hrow : exec (.internalReport k) s = s.becomes (s.blk.when (k < 256) (fun b => b.report k)) := rfl
  rw [hrow]
  simp [hk, Blk.report, ha, Blk.clientUp, hclient]

end

/-- Settles O6: a line's edges up to the fifth are `Blk.Sampling`, a turn is the taking of a latch and the placing of its
event, and a report the placing of its own. -/
theorem wiredAndInternalEvents : Obligations.WiredAndInternalEvents := by
  unfold Obligations.WiredAndInternalEvents
  intro s ha harm b0
  refine ⟨?line, ?turn, ?report⟩
  case line =>
    intro wlp line level hw hl i st l hnew hsettled hclient
    refine ⟨fun n hn => ?early, fun n hn hv => ?accepted⟩
    case early =>
      have hs := Blk.wiredLevel_early ha hnew hsettled hn s.mem
      exact ⟨_, exec_wiredLineChange hw hl level n, hs.level, hs.latch⟩
    case accepted =>
      obtain ⟨b', hs, hlevel⟩ := Blk.wiredLevel_settled ha hnew hsettled hclient hn s.mem
      have hv' : (b'.stt i).valid = true := (congrArg (·.valid) (hs.stt i)).trans hv
      exact ⟨_, (exec_wiredLineChange hw hl level n).trans (congrArg s.becomes hlevel), b'.level_lineChange i level,
        (b'.latch_lineChange i level).trans hs.latched, (b'.wlCoal_lineChange i level hv').trans hs.coalCnt⟩
  case turn =>
    intro g k rest hg hclient hstall horder i st l lane ev takes
    have hlane : (b0.latchTaken g k).lane (12 + g) = { lane with last := k } := Blk.lane_modLane_self ..
    have hnone (he : (b0.latchTaken g k).latchEvent i l = (b0.latchTaken g k, none)) : takes lane.hold := by
      have hturn : b0.wiredTurn g = b0.latchTaken g k := by rw [Blk.wiredTurn_eq hstall harm horder, he, Option.elim_none]
      exact ⟨_, (exec_wiredLaneTurn ha hg hclient).trans (congrArg s.becomes hturn), rfl, by rw [hlane], by rw [hlane]⟩
    refine ⟨fun hv => hnone (Blk.latchEvent_unmapped hv), fun hv hres hfree => ?mapped⟩
    have hevent (kind : EventKind)
        (he : (b0.latchTaken g k).latchEvent i l = (b0.latchTaken g k, some ((b0.latchTaken g k).lineEvent i l kind))) :
        takes (tabPut lane.hold (st.slot % 16) (ev kind)) := by
      have hturn := Blk.wiredTurn_eq hstall harm horder
      rw [he, Option.elim_some, Blk.placeEvent_of_free hres (by rw [hlane]; exact hfree)] at hturn
      refine ⟨_, (exec_wiredLaneTurn ha hg hclient).trans (congrArg s.becomes hturn), rfl, ?_, ?_⟩
      · rw [Blk.lane_modLane_self, hlane]
      · rw [Blk.lane_modLane_self, hlane]
        rfl
    exact ⟨fun hk => hevent _ (Blk.latchEvent_level hv hk),
      fun hk henv hedge => hevent _ (Blk.latchEvent_edge hv hk henv hedge),
      fun hk hedge => hnone (Blk.latchEvent_noEdge hv hk hedge)⟩
  case report =>
    intro k hk hclient hstall st hv hres hfree
    exact ⟨_, exec_internalReport ha hk hclient, Blk.internalReport_eq hstall hv hres hfree⟩

end Sys2Proof.Machine

/-! The Line Cache's switch, its drain and its fills (10 R396, R401 to R403). -/
namespace Sys2Proof.Machine
open Sys2Proof

/-! ### LCACHE.CTL -/

/-- Both rows of the switch are writes of LCACHE.CTL.EN. -/
theorem exec_cacheSwitch {s : State} (h : s.blk.Port4) (id : BitVec 8) {v : Bool} (hv : v ≠ s.blk.lc.en) :
    exec (if v then .cacheEnable (.fp4 id) else .cacheDisable (.fp4 id)) s =
      s.becomes (s.blk.rwl s.mem (.fp4 id) true (fun b => b.writeCacheEn v)) := by
  have hrow : exec (if v then .cacheEnable (.fp4 id) else .cacheDisable (.fp4 id)) s = s.writeReg (.fp4 id) 0xE0000 (b2n v) := by
    cases v <;> rfl
  have hbit : bit (BitVec.ofNat 32 (b2n v)).toNat 0 = v := by cases v <;> decide
  have hreg : s.blk.writeRegF s.mem (.fp4 id) 0xE0000 (BitVec.ofNat 32 (b2n v)) none =
      s.blk.writeLcache s.mem (.fp4 id) 0 (BitVec.ofNat 32 (b2n v)) := rfl
  rw [hrow, State.writeReg_becomes h (by decide), hreg]
  simp only [Blk.writeLcache, hbit, if_neg hv]

/-- Written by the holder of the Setup Lock, the switch is thrown. -/
theorem Blk.Holder.exec_cacheSwitch {s : State} {id : BitVec 8} {a : Nat} (h : s.blk.Holder id a) {v : Bool}
    (hv : v ≠ s.blk.lc.en) :
    exec (if v then .cacheEnable (.fp4 id) else .cacheDisable (.fp4 id)) s = s.becomes (s.blk.writeCacheEn v) := by
  rw [Machine.exec_cacheSwitch h.toPort4 id hv, h.rwl_eq]

/-- Written by another agent, it is refused. -/
theorem Blk.NotHolder.exec_cacheSwitch {s : State} {id : BitVec 8} (h : s.blk.NotHolder id) {v : Bool} (hv : v ≠ s.blk.lc.en) :
    exec (if v then .cacheEnable (.fp4 id) else .cacheDisable (.fp4 id)) s = s.becomes s.blk.rwlRefuse := by
  rw [Machine.exec_cacheSwitch h.toPort4 id hv, h.rwl_eq]

section
variable {b : Blk}

theorem Blk.writeCacheEn_of_disabled (h : b.lc.st = .disabled) : b.writeCacheEn true = b.cacheOn := by
  simp only [Blk.writeCacheEn, if_true, h]

theorem Blk.writeCacheEn_of_busy (h : b.lc.st = .busy) :
    b.writeCacheEn true = { b with lc := { b.lc with en := true, again := true } } := by
  simp only [Blk.writeCacheEn, if_true, h]

theorem Blk.writeCacheEn_of_enabled (h : b.lc.st = .enabled) :
    b.writeCacheEn false = { b with lc := { b.lc with en := false, st := .busy, invalSince := false } } := by
  simp only [Blk.writeCacheEn, Bool.false_eq_true, if_false, h]

end

theorem Blk.lc_cacheOn (b : Blk) : b.cacheOn.lc =
    { b.lc with en := true, st := .enabled, again := false,
                stale := b.lc.stale || (!b.lc.lines.isEmpty && !b.lc.invalSince) } := by
  unfold Blk.cacheOn
  dsimp only
  split <;> rfl

theorem Blk.reports_cacheOn (b : Blk) : (b.cacheOn.lane 24).reports =
    (b.lane 24).reports ++ if !b.lc.lines.isEmpty && !b.lc.invalSince then [0x0E] else [] := by
  unfold Blk.cacheOn
  dsimp only
  split
  · exact Blk.reports_raise ..
  · exact (List.append_nil _).symm

/-! ### The drain (10 R401, R403) -/

/-- Nothing of the cache is outstanding or held. -/
def Blk.cacheFree (b : Blk) : Prop :=
  b.lc.fills = [] ∧ b.lc.bufs = [] ∧ (∀ w ∈ b.fp.out, w.buf = false) ∧ ∀ l ∈ b.lc.lines, l.held = false

theorem Blk.lbufs_eq_zero_iff (b : Blk) : b.lbufs = 0 ↔ b.lc.bufs = [] ∧ ∀ w ∈ b.fp.out, w.buf = false := by
  simp [Blk.lbufs]

/-- What the drain waits for is that nothing is outstanding or held. -/
theorem Blk.drainWaits_eq_false_iff (b : Blk) :
    (!b.lc.fills.isEmpty || b.lbufs ≠ 0 || b.lc.lines.any (·.held)) = false ↔ b.cacheFree := by
  simp [Blk.cacheFree, Blk.lbufs_eq_zero_iff, and_assoc]

theorem Blk.cacheDrained_of_free {b : Blk} (hst : b.lc.st = .busy) (hagain : b.lc.again = false) (h : b.cacheFree) :
    b.cacheDrained =
      { b with lc := { b.lc with st := .disabled, dirtyAtDisable := b.lc.dirtyAtDisable || b.lc.lines.any (·.dirty) } } := by
  have hw := b.drainWaits_eq_false_iff.2 h
  simp only [Bool.or_eq_false_iff] at hw
  obtain ⟨⟨hfills, hbufs⟩, hheld⟩ := hw
  simp [Blk.cacheDrained, hst, hfills, hbufs, hheld, hagain]

theorem Blk.cacheDrained_of_not_free {b : Blk} (hst : b.lc.st = .busy) (h : ¬ b.cacheFree) : b.cacheDrained = b := by
  have hw := Bool.eq_true_of_not_eq_false fun e => h (b.drainWaits_eq_false_iff.1 e)
  unfold Blk.cacheDrained
  rw [if_pos (by simp only [hst] at hw ⊢; simpa using hw)]

theorem exec_cacheDrainEnd {s : State} (ha : s.blk.awake = true) : exec .cacheDrainEnd s = s.becomes s.blk.cacheDrained := by
  have hrow : exec .cacheDrainEnd s = s.becomes (s.blk.when s.blk.awake Blk.cacheDrained) := rfl
  rw [hrow, ha, Blk.when_true]

/-! ### A fill (10 R396) -/

/-- The cache once the fill of a line is no longer outstanding. -/
def LCache.fillGone (c : LCache) (line : Nat) : LCache :=
  { c with fills := setDel c.fills line, fillFailed := setDel c.fillFailed line }

/-- Host memory gives the line, and a place is free: it is the most recently used one. -/
theorem Blk.sstFill_of_room {b : Blk} {line : Nat} (hon : b.lc.on = true) (hfind : b.lc.find line = none)
    (hheld : b.lc.heldBuf line = none) (hfill : setHas b.lc.fills line = false) (hbuf : b.inBuf line = false)
    (hroom : b.lc.lines.length < 48) (harm : b.inj.arm = []) (hfail : tabGet 0 b.fp.fail line = 0) (m : List Host.Cell) :
    b.sstFill m line = some { b with lc := b.lc.miss.front { line := line, data := b.hostLine m line } } := by
  have hplace : b.makeRoom = some b.lc := by simp [Blk.makeRoom, hroom]
  have hread : b.readRetries line = b := by simp [Blk.readRetries, Blk.injHit_of_noArm harm, hfail]
  simp [Blk.sstFill, hheld, hon, hfind, hfill, hbuf, hplace, hread]

theorem LCache.lines_front_of_none {c : LCache} {l : CLine} (h : c.find l.line = none) : (c.front l).lines = l :: c.lines := by
  have hne : ∀ x ∈ c.lines, x.line ≠ l.line := by simpa [LCache.find] using h
  have hall : c.lines.filter (fun k => k.line ≠ l.line) = c.lines := List.filter_eq_self.2 fun x hx => by simpa using hne x hx
  simp only [LCache.front, hall]

theorem setHas_setDel_self (s : NSet) (n : Nat) : setHas (setDel s n) n = false := by
  have h := setHas_setPut s n n false
  simpa [setPut] using h

theorem Blk.spillServe_of_empty {b : Blk} (hq : b.rings.spillq = []) (hw : b.rings.spillw = []) (m : List Host.Cell) :
    b.spillServe m = b := by
  simp [Blk.spillServe, hq, Blk.spillRefill, hw]

/-- A fill that arrives, its line nowhere else, a place free and no update or descriptor waiting for it. -/
theorem Blk.lineFill_eq {b : Blk} {line : Nat} (hon : b.lc.st ≠ .disabled) (hfill : setHas b.lc.fills line = true)
    (harm : b.inj.arm = []) (hfail : b.fp.fail = []) (hexec : b.allExec = []) (hq : b.rings.spillq = [])
    (hw : b.rings.spillw = []) (hroom : b.lc.lines.length < 48) (hfind : b.lc.find line = none)
    (hbufs : ∀ l ∈ b.lc.bufs, l.line ≠ line) (hout : ∀ w ∈ b.fp.out, w.buf = false) (m : List Host.Cell) :
    b.lineFill m line =
      { b with lc := (b.lc.fillGone line).miss.front { line := line, data := b.hostLine m line } } := by
  have hheld : b.lc.heldBuf line = none := by simpa [LCache.heldBuf] using fun x hx he => absurd he (hbufs x hx)
  have hbuf : b.inBuf line = false := by
    simp only [Blk.inBuf, Bool.or_eq_false_iff, List.any_eq_false, beq_iff_eq, Bool.and_eq_true, not_and]
    exact ⟨hbufs, fun w hw' hb => absurd hb (by simp [hout w hw'])⟩
  have hreads : b.readFails line = false := by simp [Blk.readFails, Blk.injHit_of_noArm harm, hfail]
  let b1 : Blk := { b with lc := b.lc.fillGone line }
  have hon1 : b.lc.on = true := by simpa [LCache.on] using hon
  have htake : b1.sstFill m line =
      some { b1 with lc := b1.lc.miss.front { line := line, data := b1.hostLine m line } } :=
    Blk.sstFill_of_room (b := b1) hon1 hfind hheld (setHas_setDel_self ..) hbuf hroom harm (by simp [b1, hfail]) m
  have hrow : b.lineFill m line = match b1.sstFill m line with
      | none => b
      | some b => (b.spillServe m).pump m := by
    simp only [Blk.lineFill, hfill, hreads, hon1, Bool.not_true, Bool.false_eq_true, if_false]
    rfl
  rw [hrow, htake]
  dsimp only
  rw [Blk.spillServe_of_empty (by exact hq) (by exact hw), Blk.pump_of_noExec (by exact hexec)]
  rfl

theorem exec_lineFill {s : State} (ha : s.blk.awake = true) (line : Nat) :
    exec (.lineFill line) s = s.becomes (s.blk.lineFill s.mem line) := by
  have hrow : exec (.lineFill line) s = s.becomes (s.blk.when s.blk.awake (fun b => b.lineFill s.mem line)) := rfl
  rw [hrow, ha, Blk.when_true]

end Sys2Proof.Machine

/-! Acknowledgements of line writes, and what a snapshot's bring (02 R71, R72; 10 R397; 11 R441). -/
namespace Sys2Proof.Machine
open Sys2Proof

/-! ### The first of a list -/

section
variable {α : Type} {p : α → Bool} {pre post : List α} {x : α}

theorem find?_append_cons (hpre : ∀ y ∈ pre, p y = false) (hx : p x = true) : (pre ++ x :: post).find? p = some x := by
  have hnone : pre.find? p = none := List.find?_eq_none.2 fun y hy => by simp [hpre y hy]
  simp [List.find?_append, hnone, hx]

theorem erase_append_cons [DecidableEq α] (hpre : x ∉ pre) : (pre ++ x :: post).erase x = pre ++ post := by
  simp [List.erase_append, hpre]

end

/-! ### The ring pairs that a write leaves alone -/

/-- The ring pairs of the block, those of its domains with all else the SRAMs hold. -/
def Blk.tables (b : Blk) : Sram × Tab Pair := (b.sram, b.rings.mgr)

section
variable {b b' : Blk}

theorem Blk.pair_congr (h : b'.tables = b.tables) (r : RingId) : b'.pair r = b.pair r := by
  simp only [Blk.tables, Prod.mk.injEq] at h
  cases r <;> simp [Blk.pair, Blk.dom, h]

theorem Blk.allExec_congr (h : b'.tables = b.tables) : b'.allExec = b.allExec := by
  simp only [Blk.tables, Prod.mk.injEq] at h
  simp [Blk.allExec, h]

theorem Blk.tables_modPair_congr (h : b'.tables = b.tables) (r : RingId) (f : Pair → Pair) :
    (b'.modPair r f).tables = (b.modPair r f).tables := by
  simp only [Blk.tables, Prod.mk.injEq] at h ⊢
  cases r <;> simp [Blk.modPair, Blk.modDom, h]

theorem Blk.tables_fpFail (b : Blk) (first : Bool) : (b.fpFail first).tables = b.tables := by
  unfold Blk.fpFail
  split <;> rfl

theorem Blk.tables_readRetries (b : Blk) (line : Nat) : (b.readRetries line).tables = b.tables := by
  have hstep (b : Blk) (first : Bool) : (b.readFailed line first).tables = b.tables := by
    refine (Blk.tables_fpFail ..).trans ?_
    split <;> rfl
  have hfold (l : List Nat) (b : Blk) : (l.foldl (fun b k => b.readFailed line (k = 0)) b).tables = b.tables := by
    induction l generalizing b with
    | nil => rfl
    | cons k l ih => exact (ih _).trans (hstep b _)
  exact hfold _ b

theorem Blk.tables_cleanHit (b : Blk) (l : CLine) : (b.cleanHit l).tables = b.tables := by
  unfold Blk.cleanHit
  split <;> rfl

theorem Blk.tables_takeLine (b : Blk) (m : List Host.Cell) (line : Nat) : (b.takeLine m line).1.tables = b.tables := by
  have hmiss (b : Blk) : (({ b with lc := b.lc.miss } : Blk).readRetries line).tables = b.tables :=
    Blk.tables_readRetries { b with lc := b.lc.miss } line
  unfold Blk.takeLine
  extract_lets c
  have hc : c.tables = b.tables := by
    unfold c
    split
    · split
      · exact Blk.tables_cleanHit ..
      · rfl
    · rfl
  clear_value c
  split
  · exact hc
  · split
    · exact (hmiss c).trans hc
    · exact (hmiss c).trans hc

theorem Blk.tables_recNote (b : Blk) (k : WKind) : (b.recNote k).tables = b.tables := by
  unfold Blk.recNote
  split
  · rfl
  · split <;> rfl
  · split
    · rfl
    · split <;> rfl
  · rfl

theorem Blk.tables_writeRec (b : Blk) (m : List Host.Cell) (addr : Nat) (ws : List Word) (k : WKind) :
    (b.writeRec m addr ws k).tables = b.tables := by
  unfold Blk.writeRec
  dsimp only
  split
  · exact (Blk.tables_recNote ..).trans (Blk.tables_takeLine ..)
  · rfl

end

/-! ### Descriptors that do not try again -/

/-- No descriptor executing on the ring pair waits for something that any command may give. -/
def Pair.Settled (p : Pair) : Prop := ∀ e ∈ p.exec, e.wait.retries = false

/-- The same of every ring pair. -/
def Blk.Settled (b : Blk) : Prop := ∀ x ∈ b.allExec, x.2.wait.retries = false

theorem Blk.settled_iff (b : Blk) : b.Settled ↔
    (∀ x ∈ b.rings.mgr, x.2.Settled) ∧ ∀ x ∈ b.sram.doms, x.2.pair.Settled := by
  simp only [Blk.Settled, Blk.allExec, Pair.Settled, List.forall_mem_append, List.forall_mem_flatMap, List.forall_mem_map]

theorem Blk.pump_of_settled {b : Blk} (h : b.Settled) (m : List Host.Cell) : b.pump m = b := by
  have hfold (l : List (RingId × Exec)) (hl : ∀ x ∈ l, x.2.wait.retries = false) (f : Blk → RingId × Exec → Blk) :
      l.foldl (fun c x => if x.2.wait.retries && (c.pair x.1).exec.any (fun e => e.seq == x.2.seq) then f c x else c) b = b := by
    induction l with
    | nil => rfl
    | cons x l ih =>
      obtain ⟨hx, hl⟩ := List.forall_mem_cons.1 hl
      simpa [hx] using ih hl
  unfold Blk.pump
  split
  · rfl
  · exact hfold _ h _

/-- A change of a ring pair that keeps it settled. -/
theorem Blk.Settled.modPair {b : Blk} (h : b.Settled) (r : RingId) {f : Pair → Pair}
    (hf : ∀ p : Pair, p.Settled → (f p).Settled) : (b.modPair r f).Settled := by
  have hempty : Pair.Settled {} := fun e he => absurd he List.not_mem_nil
  rw [Blk.settled_iff] at h ⊢
  cases r with
  | mgr k => exact ⟨forall_mem_tabMod (P := Pair.Settled) h.1 hempty hf k, h.2⟩
  | guest d =>
    exact ⟨h.1, forall_mem_tabMod (P := fun x : Dom => x.pair.Settled) (f := fun x => { x with pair := f x.pair }) h.2 hempty
      (fun x hx => hf _ hx) d⟩

/-! ### The completion of an executing descriptor -/

section
variable {b : Blk} {r : RingId} {e : Exec} (m : List Host.Cell) (st : Status) (detail : Nat) (res : List Word)

/-- The ring pair of a completed descriptor: it has left, and its record has its place. -/
def Pair.finished (p : Pair) (seq : Nat) : Pair :=
  { p with exec := p.exec.filter (fun e => e.seq ≠ seq), cpl := { p.cpl with w := seqInc p.cpl.w } }

/-- A completion changes no ring pair but its own. -/
theorem Blk.tables_finish : (b.finish m r e st detail res).tables =
    ((b.dropExec r e.seq).modPair r (fun p => { p with cpl := { p.cpl with w := seqInc (b.pair r).cpl.w } })).tables := by
  refine (Blk.tables_writeRec ..).trans ?_
  have hcpl : ((b.dropExec r e.seq).pair r).cpl = (b.pair r).cpl := by rw [Blk.dropExec, Blk.pair_modPair_self]
  rw [hcpl]
  refine Blk.tables_modPair_congr ?_ r _
  split <;> rfl

theorem Blk.pair_finish : (b.finish m r e st detail res).pair r = (b.pair r).finished e.seq := by
  rw [Blk.pair_congr (b.tables_finish m st detail res), Blk.pair_modPair_self, Blk.dropExec, Blk.pair_modPair_self]
  rfl

theorem Blk.Settled.finish (h : b.Settled) : (b.finish m r e st detail res).Settled := by
  unfold Blk.Settled
  rw [Blk.allExec_congr (b.tables_finish m st detail res)]
  exact (h.modPair r fun p hp x hx => hp x (List.mem_of_mem_filter hx)).modPair r fun p hp => hp

end

end Sys2Proof.Machine

/-! The rows LINE_WRITEBACK_ACK and LINE_WRITE_ACK (02 R71, R72; 10 R397; 11 R441). -/
namespace Sys2Proof.Machine
open Sys2Proof

/-- A row that puts a line into host memory puts its 64 bytes there and no other (02 R72). -/
theorem State.puts_settled (s : State) (line : Nat) (d : BitVec 512) (b : Blk) :
    s.puts (.next ({ s with mem := memWriteLine s.mem line d, blk := b } : State).settled) line d b := by
  refine ⟨memWriteLine s.mem line d, rfl, fun a => ?_⟩
  rw [memRead_memWriteLine]
  split
  case isTrue ha => rw [show a - 64 * line = a % 64 by omega]
  case isFalse => rfl

/-! ### Write-backs (10 R397) -/

section
variable {b : Blk} {l : CLine}

/-- Nothing waits for the line: it stays out of the cache. -/
theorem Blk.placeAgain_of_unwanted (hexec : b.allExec = []) (hq : b.rings.spillq = []) (hrecs : b.fp.recs = []) (line : Nat)
    (d : BitVec 512) : b.placeAgain line d = b := by
  simp [Blk.placeAgain, Blk.lineWanted, hexec, hq, hrecs]

theorem Blk.flushStep_of_noExec (hexec : b.allExec = []) (m : List Host.Cell) (line : Nat) : b.flushStep m line = b := by
  simp [Blk.flushStep, hexec]

theorem Blk.bufAck_eq (hexec : b.allExec = []) (hq : b.rings.spillq = []) (hrecs : b.fp.recs = []) (m : List Host.Cell) :
    b.bufAck m l = { b with lc := { b.lc with bufs := b.lc.bufs.erase l } } := by
  unfold Blk.bufAck
  dsimp only
  rw [Blk.placeAgain_of_unwanted (by exact hexec) (by exact hq) (by exact hrecs), Blk.flushStep_of_noExec (by exact hexec)]
  simp only [hq]
  exact Blk.pump_of_noExec (by exact hexec) m

theorem Blk.lc_settleNotes (hnotes : b.rings.notes = []) (m : List Host.Cell) : (b.settleNotes m).lc = b.lc := by
  simp [Blk.settleNotes, hnotes]

end

theorem exec_lineWritebackAck {s : State} {line : Nat} {l : CLine}
    (hl : s.blk.lc.bufs.find? (fun l => l.line == line && !l.held) = some l) :
    s.puts (exec (.lineWritebackAck line) s) line l.data
      ((s.blk.bufAck (memWriteLine s.mem line l.data) l).settleNotes (memWriteLine s.mem line l.data)) := by
  have hrow : exec (.lineWritebackAck line) s = .next (s.writebackAck line).settled := rfl
  rw [hrow, State.writebackAck, hl]
  exact s.puts_settled line l.data _

/-! ### Whole-line writes -/

section
variable {b : Blk} {w : OutW}

theorem Blk.outAck_of_plain (hsnap : w.kind ≠ .snapshot) (himage : w.kind ≠ .spillImage) (hexec : b.allExec = [])
    (m : List Host.Cell) : b.outAck m w = b.dropOut w := by
  have hdrop : (b.dropOut w).allExec = [] := hexec
  unfold Blk.outAck
  split
  case h_1 h => exact absurd h hsnap
  case h_2 h => exact absurd h himage
  case h_3 => exact Blk.pump_of_noExec hdrop m

theorem Blk.outAck_of_snapshot (hk : w.kind = .snapshot) (m : List Host.Cell) :
    b.outAck m w = ((b.dropOut w).snapAck m w.line).pump m := by
  simp only [Blk.outAck, hk]

end

theorem exec_lineWriteAck {s : State} {line : Nat} {w : OutW} (hw : s.blk.fp.out.find? (fun w => w.line == line) = some w) :
    s.puts (exec (.lineWriteAck line) s) line w.data (s.blk.outAck (memWriteLine s.mem line w.data) w) := by
  have hrow : exec (.lineWriteAck line) s = .next (s.writeAck line).settled := rfl
  rw [hrow, State.writeAck, hw]
  exact s.puts_settled line w.data _

/-! ### A snapshot's lines (11 R441) -/

/-- The executing descriptors of a ring pair with the named one waiting for `w`. -/
def Pair.waits (p : Pair) (seq : Nat) (w : Wait) : Pair :=
  { p with exec := p.exec.map (fun e => if e.seq = seq then { e with wait := w } else e) }

theorem Pair.Settled.waits {p : Pair} (h : p.Settled) {w : Wait} (hw : w.retries = false) (seq : Nat) :
    (p.waits seq w).Settled := by
  intro e he
  obtain ⟨y, hy, rfl⟩ := List.mem_map.1 he
  split
  · exact hw
  · exact h y hy

@[simp] theorem Blk.fp_modPair (b : Blk) (r : RingId) (f : Pair → Pair) : (b.modPair r f).fp = b.fp := by cases r <;> rfl

section
variable {b : Blk} {r : RingId} {e : Exec} {line : Nat} (hall : b.allExec = [(r, e)])
include hall

/-- The last body line issues the header. -/
theorem Blk.snapAck_lastBody {at_ n : Nat} {hdr : BitVec 512} (hwait : e.wait = .snapBody [line] at_ hdr n) (m : List Host.Cell) :
    b.snapAck m line = (b.writeLine at_ hdr .snapshot).modPair r (fun p => p.waits e.seq (.snapHdr at_ n)) := by
  simp only [Blk.snapAck, hall, List.foldl_cons, List.foldl_nil, hwait, setDel, if_true, List.isEmpty_nil]
  rfl

/-- The header completes the command. -/
theorem Blk.snapAck_header {n : Nat} (hwait : e.wait = .snapHdr line n) (m : List Host.Cell) :
    b.snapAck m line = b.finish m r e .ok 0 [wd n] := by
  simp only [Blk.snapAck, hall, List.foldl_cons, List.foldl_nil, hwait, if_true]

variable (hexec : (b.pair r).exec = [e])
include hexec

theorem Blk.pump_snapAck_lastBody {at_ n : Nat} {hdr : BitVec 512} (hwait : e.wait = .snapBody [line] at_ hdr n)
    (m : List Host.Cell) :
    ((b.snapAck m line).pump m).fp.out = b.fp.out ++ [{ line := at_, data := hdr, kind := .snapshot }] ∧
    (((b.snapAck m line).pump m).pair r).exec = [{ e with wait := .snapHdr at_ n }] ∧
    (((b.snapAck m line).pump m).pair r).cpl = (b.pair r).cpl := by
  have htables : (b.writeLine at_ hdr .snapshot).tables = b.tables := rfl
  have hsettled : (b.writeLine at_ hdr .snapshot).Settled := by
    unfold Blk.Settled
    rw [Blk.allExec_congr htables, hall]
    simp [hwait, Wait.retries]
  rw [Blk.snapAck_lastBody hall hwait, Blk.pump_of_settled (hsettled.modPair r fun p hp => hp.waits rfl e.seq),
    Blk.pair_modPair_self, Blk.pair_congr htables, Blk.fp_modPair]
  refine ⟨rfl, ?_, rfl⟩
  simp [Pair.waits, hexec]

theorem Blk.pump_snapAck_header {n : Nat} (hwait : e.wait = .snapHdr line n) (m : List Host.Cell) :
    (((b.snapAck m line).pump m).pair r).exec = [] ∧
    (((b.snapAck m line).pump m).pair r).cpl.w = ((b.pair r).cpl.w + 1) % 2 ^ 24 := by
  have hsettled : b.Settled := by
    unfold Blk.Settled
    rw [hall]
    simp [hwait, Wait.retries]
  rw [Blk.snapAck_header hall hwait, Blk.pump_of_settled (hsettled.finish m .ok 0 [wd n]), Blk.pair_finish]
  refine ⟨?_, rfl⟩
  simp [Pair.finished, hexec]

end

end Sys2Proof.Machine

/-! Failed attempts of host-memory accesses, and the obligation (14 R522, Table 14-1 code 25). -/
namespace Sys2Proof.Machine
open Sys2Proof

/-! ### A failed attempt -/

section
variable (b : Blk) (first : Bool)

@[simp] theorem Blk.fp_fpFail : (b.fpFail first).fp = b.fp := by
  unfold Blk.fpFail
  split <;> rfl

@[simp] theorem Blk.err_fpFail : (b.fpFail first).err =
    { b.err with fpFailCnt := satInc b.err.fpFailCnt, st := { b.err.st with fpFail := true } } := by
  unfold Blk.fpFail
  split <;> rfl

theorem Blk.reports_fpFail : ((b.fpFail first).lane 24).reports = (b.lane 24).reports ++ if first then [0x0F] else [] := by
  unfold Blk.fpFail
  split
  · exact Blk.reports_raise ..
  · exact (List.append_nil _).symm

end

section
variable {b : Blk} {w : OutW} {line : Nat} (spill : Blk → Blk)

theorem Blk.accessFails_of_out (hw : b.fp.out.find? (fun w => w.line == line) = some w) (m : List Host.Cell) :
    b.accessFails m line spill = b.outFails m w spill := by
  simp only [Blk.accessFails, hw]

/-- The retries of a write are counted with it. -/
theorem Blk.outFails_retried (ht : w.tries < 3) (m : List Host.Cell) : b.outFails m w spill =
    { b.fpFail (w.tries = 0) with fp := { b.fp with
      out := b.fp.out.map (fun x => if x = w then { x with tries := x.tries + 1 } else x) } } := by
  simp only [Blk.outFails, ht, if_true, Blk.fp_fpFail]

/-- After three retries a write of neither a snapshot nor a spill image is lost. -/
theorem Blk.outFails_lost (ht : 3 ≤ w.tries) (hsnap : w.kind ≠ .snapshot) (himage : w.kind ≠ .spillImage)
    (m : List Host.Cell) : b.outFails m w spill = ((b.fpFail false).dropOut w).writeLost w.line := by
  have hfirst : decide (w.tries = 0) = false := decide_eq_false (by omega)
  have hlast : ¬ w.tries < 3 := by omega
  unfold Blk.outFails
  rw [hfirst]
  dsimp only
  rw [if_neg hlast]
  split
  case h_1 h => exact absurd h hsnap
  case h_2 h => exact absurd h himage
  case h_3 => rfl

/-- With nothing of the line outstanding, its next read is to fail once. -/
theorem Blk.accessFails_of_none (hout : ∀ w ∈ b.fp.out, w.line ≠ line) (hbufs : ∀ l ∈ b.lc.bufs, l.line ≠ line)
    (hfill : setHas b.lc.fills line = false) (m : List Host.Cell) :
    b.accessFails m line spill = { b with fp := { b.fp with fail := tabMod 0 b.fp.fail line (· + 1) } } := by
  have hno : b.fp.out.find? (fun w => w.line == line) = none := by simpa using hout
  have hnb : b.lc.bufs.find? (fun l => l.line == line && !l.held) = none := by
    simpa using fun l hl he => absurd he (hbufs l hl)
  simp only [Blk.accessFails, hno, hnb, hfill, Bool.false_eq_true, if_false]

end

/-- The named member of a list changed, and no other. -/
theorem map_ite_append_cons {α : Type} [DecidableEq α] {pre post : List α} {x : α} (f : α → α) (hpre : x ∉ pre)
    (hpost : x ∉ post) : (pre ++ x :: post).map (fun y => if y = x then f y else y) = pre ++ f x :: post := by
  have hid (l : List α) (hl : x ∉ l) : l.map (fun y => if y = x then f y else y) = l :=
    (List.map_congr_left fun y hy => if_neg (ne_of_mem_of_not_mem hy hl)).trans (List.map_id l)
  rw [List.map_append, List.map_cons, hid pre hpre, hid post hpost, if_pos rfl]

/-- What the loss of a write leaves in ERR (14 R516, Table 14-1 code 25). -/
theorem Blk.err_writeLost (b : Blk) (line : Nat) :
    (b.writeLost line).err.fpFailCnt = b.err.fpFailCnt ∧ (b.writeLost line).err.st = { b.err.st with fatal := true } ∧
    (b.writeLost line).err.ueCnt = satInc b.err.ueCnt ∧
    (b.err.ueCap.valid = false →
      (b.writeLost line).err.ueCap = { code := 25, cls := 3, index := line % 2 ^ 24, valid := true }) := by
  refine ⟨rfl, rfl, rfl, fun hv => ?_⟩
  simp [Blk.writeLost, Blk.uncorr, hv]

theorem Blk.reports_writeLost (b : Blk) (line : Nat) :
    ((b.writeLost line).lane 24).reports = (b.lane 24).reports ++ [0x03] := Blk.reports_raise ..

/-! ### The obligation -/

/-- Settles O49: the switch is a write of LCACHE.CTL, a fill and each acknowledgement are the operation that the lemmas above give
in closed form, and a failed attempt is counted before it is retried or given up. -/
theorem hostMemoryAndLineCache : Obligations.HostMemoryAndLineCache := by
  unfold Obligations.HostMemoryAndLineCache
  intro s line b0 lc stores
  refine ⟨fun id a hholder => ?switch, fun id hnot c hc => ?refused, ?drain, ?fill, ?writeback,
    fun pre w post hout hline hpre => ?write, ?idle⟩
  case switch =>
    have hswitch (v : Bool) (hv : v ≠ lc.en) := hholder.exec_cacheSwitch (s := s) hv
    refine ⟨fun hen hst => ?enabled, fun hen hst => ?again, fun hen hst => ?disabled⟩
    case enabled =>
      have hon : b0.writeCacheEn true = b0.cacheOn := Blk.writeCacheEn_of_disabled hst
      exact ⟨_, hswitch true (by simp [hen]), by rw [hon]; exact b0.lc_cacheOn, by rw [hon]; exact b0.reports_cacheOn⟩
    case again =>
      exact ⟨_, hswitch true (by simp [hen]), by rw [Blk.writeCacheEn_of_busy hst]⟩
    case disabled =>
      exact ⟨_, hswitch false (by simp [hen]), by rw [Blk.writeCacheEn_of_enabled hst]⟩
  case refused =>
    have hsame : c = if !lc.en then .cacheEnable (.fp4 id) else .cacheDisable (.fp4 id) := by
      rw [hc]
      cases lc.en <;> rfl
    rw [hsame]
    exact ⟨_, hnot.exec_cacheSwitch (Bool.not_ne_self lc.en), b0.refused_rwlRefuse⟩
  case drain =>
    intro ha hbusy free
    refine ⟨fun hfree hagain => ?_, fun hfree => ?_⟩
    · exact ⟨_, (exec_cacheDrainEnd ha).trans (congrArg s.becomes (Blk.cacheDrained_of_free hbusy hagain hfree)), rfl⟩
    · exact (exec_cacheDrainEnd ha).trans (congrArg s.becomes (Blk.cacheDrained_of_not_free hbusy hfree))
  case fill =>
    intro ha hon hfill harm hfail hexec hq hw hbits hroom hfind hbufs hbuf
    have hrow := Blk.lineFill_eq hon hfill harm hfail hexec hq hw hroom hfind hbufs hbuf s.mem
    exact ⟨_, (exec_lineFill ha line).trans (congrArg s.becomes hrow), LCache.lines_front_of_none hfind, rfl, rfl, rfl⟩
  case writeback =>
    intro hexec hq hnotes hrecs pre l post hbufs hl hheld hpre
    have hfind : lc.bufs.find? (fun l => l.line == line && !l.held) = some l := by
      rw [hbufs]
      exact find?_append_cons (fun y hy => by simp [hpre y hy]) (by simp [hl, hheld])
    have hack (m : List Host.Cell) : ((b0.bufAck m l).settleNotes m).lc = { lc with bufs := lc.bufs.erase l } := by
      rw [Blk.bufAck_eq hexec hq hrecs, Blk.lc_settleNotes (by exact hnotes)]
    refine ⟨_, exec_lineWritebackAck hfind, ?_, ?_⟩
    · rw [hack, hbufs]
      exact erase_append_cons fun h => hpre l h hl
    · rw [hack]
  case write =>
    have hnot : w ∉ pre := fun h => hpre w h hline
    have hfind : b0.fp.out.find? (fun w => w.line == line) = some w := by
      rw [hout]
      exact find?_append_cons (fun y hy => by simp [hpre y hy]) (by simp [hline])
    have herase : b0.fp.out.erase w = pre ++ post := by
      rw [hout]
      exact erase_append_cons hnot
    refine ⟨fun hsnap himage hexec => ?plain, fun r e hsnap hall hexec => ?snapshot, fun hsnap himage => ?fails⟩
    case plain =>
      refine ⟨_, exec_lineWriteAck hfind, ?_, ?_⟩
      all_goals rw [Blk.outAck_of_plain hsnap himage hexec]
      · exact herase
      · rfl
    case snapshot =>
      have hall' : (b0.dropOut w).allExec = [(r, e)] := hall
      refine ⟨fun hl hdr n hwait => ⟨_, exec_lineWriteAck hfind, ?_⟩, fun n hwait => ⟨_, exec_lineWriteAck hfind, ?_⟩⟩
      all_goals rw [Blk.outAck_of_snapshot hsnap, hline]
      · rw [← herase]
        exact Blk.pump_snapAck_lastBody hall' hexec hwait _
      · exact Blk.pump_snapAck_header hall' hexec hwait _
    case fails =>
      intro fails
      have hrow : exec (.hostAccessRetry line) s = s.becomes (b0.outFails s.mem w (fun b => b.spillFails s.mem)) :=
        congrArg s.becomes (Blk.accessFails_of_out _ hfind s.mem)
      refine ⟨fun ht hpre' hpost' => ?retried, fun ht => ?lost⟩
      case retried =>
        rw [Blk.outFails_retried _ ht] at hrow
        have hpost : w ∉ post := fun h => by simpa using List.all_eq_true.1 hpost' w h
        refine ⟨_, ⟨hrow, congrArg (·.fpFailCnt) (b0.err_fpFail _), congrArg (·.st.fpFail) (b0.err_fpFail _)⟩, ?_,
          (b0.reports_fpFail _).trans (by simp)⟩
        rw [hout]
        exact map_ite_append_cons (fun x : OutW => { x with tries := x.tries + 1 }) hnot hpost
      case lost =>
        rw [Blk.outFails_lost _ ht hsnap himage, hline] at hrow
        have herr : ((b0.fpFail false).dropOut w).err = _ := b0.err_fpFail false
        obtain ⟨hcnt, hst, hue, hcap⟩ := ((b0.fpFail false).dropOut w).err_writeLost line
        rw [herr] at hcnt hst hue hcap
        refine ⟨_, ⟨hrow, hcnt, by rw [hst]⟩, ?_, hue, by rw [hst], fun hv => ?_, ?_⟩
        · exact (congrArg (·.out.erase w) (b0.fp_fpFail false)).trans herase
        · rw [hcap hv]
          exact ⟨rfl, rfl, rfl⟩
        · rw [Blk.reports_writeLost]
          exact congrArg (· ++ [0x03]) ((b0.reports_fpFail false).trans (List.append_nil _))
  case idle =>
    intro hout hbufs hfill
    exact ⟨_, congrArg s.becomes (Blk.accessFails_of_none _ hout hbufs hfill s.mem),
      tabGet_tabMod_self 0 b0.fp.fail line (· + 1), rfl⟩

end Sys2Proof.Machine

/-! Accesses of the cores to their context pages (03 R109 to R121; 05 R172 to R175; 06 R238 to R246). -/
namespace Sys2Proof.Machine
open Sys2Proof

/-! ### Fields of a record (06 Table 6-2) -/

theorem rec24_toNat {t : Nat} (ht : t < 16) (low : Nat) : (rec24 t low).toNat = t * 2 ^ 20 + low % 2 ^ 20 := by
  rw [rec24, BitVec.toNat_ofNat, Nat.mod_eq_of_lt (by omega)]

theorem bits_eq_mod_div (v : Nat) {hi lo : Nat} (h : lo ≤ hi) : bits v hi lo = v % 2 ^ (hi + 1) / 2 ^ lo := by
  rw [bits, Nat.shiftRight_eq_div_pow, ← Nat.mod_mul_right_div_self, ← Nat.pow_add, Nat.add_sub_cancel' (by omega)]

/-- A field of the low 20 bits of a record. -/
theorem bits_rec24 {t : Nat} (ht : t < 16) (low : Nat) {hi lo : Nat} (h : hi < 20) (hl : lo ≤ hi) :
    bits (rec24 t low).toNat hi lo = bits low hi lo := by
  have hdvd : 2 ^ (hi + 1) ∣ 2 ^ 20 := pow_dvd_pow 2 h
  rw [bits_eq_mod_div _ hl, bits_eq_mod_div _ hl, rec24_toNat ht, Nat.add_mod, Nat.mod_mod_of_dvd _ hdvd,
    Nat.mod_eq_zero_of_dvd (Dvd.dvd.mul_left hdvd t), Nat.zero_add, Nat.mod_mod]

@[simp] theorem recType_rec24 {t : Nat} (ht : t < 16) (low : Nat) : recType (rec24 t low) = t := by
  rw [recType, rec24_toNat ht, bits_eq_mod_div _ (by decide)]
  omega

theorem recType_recHC {t : Nat} (ht : t < 16) (h c : Nat) : recType (recHC t h c) = t := recType_rec24 ht _

theorem recHandle_recHC {t : Nat} (ht : t < 16) {h : Nat} (hh : h < 1024) (c : Nat) : recHandle (recHC t h c) = h := by
  rw [recHandle, recHC, bits_rec24 ht _ (by decide) (by decide), bits_eq_mod_div _ (by decide)]
  omega

theorem recCtx_recHC {t : Nat} (ht : t < 16) (h : Nat) {c : Nat} (hc : c < 64) : recCtx (recHC t h c) = c := by
  rw [recCtx, recHC, bits_rec24 ht _ (by decide) (by decide), bits_eq_mod_div _ (by decide)]
  omega

/-! ### A context and its threshold (05 R171, R174; 06 R236) -/

theorem Ctx.threshold_eq (x : Ctx) : x.threshold = if 8 ≤ x.stack.length then 0x401
    else match x.stack.head? with
      | none => x.pf.toNat
      | some k => max x.pf.toNat (keyLevel k.key + 1) := by
  cases h : x.stack <;> simp [Ctx.threshold, Ctx.running, h]

theorem Ctx.claimReady_eq_none {x : Ctx} : x.claimReady = none ↔ ∀ y ∈ x.ready, keyLevel y.key < x.threshold := by
  simp [Ctx.claimReady, List.find?_eq_none]

/-- The first copy of the Ready List that meets the threshold. -/
theorem Ctx.claimReady_eq_some {x : Ctx} {k : Copy} {before after : List Copy} (hready : x.ready = before ++ k :: after)
    (hk : x.threshold ≤ keyLevel k.key) (hbefore : ∀ y ∈ before, keyLevel y.key < x.threshold) : x.claimReady = some k := by
  rw [Ctx.claimReady, hready]
  exact find?_append_cons (fun y hy => by simpa using hbefore y hy) (by simpa using hk)

theorem keyLevel_lt (k : Word24) : keyLevel k < 1024 := by
  rw [keyLevel, bits_eq_mod_div _ (by decide)]
  have := k.isLt
  omega

/-- RUNPRI of Table 6-4, with level 0 while IDLE. -/
theorem Ctx.runpri_eq (x : Ctx) : x.runpri = BitVec.ofNat 32 (match x.stack.head? with
    | none => 1024
    | some k => keyLevel k.key + 4096 * (x.stack.length % 16)) := by
  rw [Ctx.runpri]
  congr 1
  cases h : x.stack with
  | nil => simp [Ctx.running, h, pack, b2n]
  | cons k l =>
    have hlev := keyLevel_lt k.key
    have hlow : keyLevel k.key < 2 ^ 12 := by omega
    simp [Ctx.running, h, pack, b2n, Nat.mod_eq_of_lt hlev]
    rw [Nat.or_comm, ← Nat.shiftLeft_add_eq_or_of_lt hlow, Nat.shiftLeft_eq]
    omega

/-! ### Records that a Tile Agent sends -/

section
variable (a : Agent) (c t : Nat) (r : Word24)

@[simp] theorem Agent.ctx_send (d : Nat) : (a.send r).ctx d = a.ctx d := rfl
@[simp] theorem Agent.upq_send : (a.send r).upq = a.upq ++ [r] := rfl
@[simp] theorem Agent.upq_modCtx (f : Ctx → Ctx) : (a.modCtx c f).upq = a.upq := rfl
@[simp] theorem Agent.upq_answer (w : Word) : (a.answer c w).upq = a.upq := rfl

@[simp] theorem Agent.ctx_statIf (d : Nat) : (a.statIf c t).ctx d = a.ctx d := by
  unfold Agent.statIf; split <;> rfl

/-- A changed threshold is told in the newest record. -/
theorem Agent.getLast?_upq_statIf (h : (a.ctx c).threshold ≠ t) :
    (a.statIf c t).upq.getLast? = some (rec24 12 (c * 2 ^ 14 + (a.ctx c).threshold)) := by
  simp [Agent.statIf, h, Agent.sendStat]

/-- A context-status notice takes the place of none but its like. -/
theorem Agent.mem_upq_statIf (hr : recType r ≠ 12) (h : r ∈ a.upq) : r ∈ (a.statIf c t).upq := by
  unfold Agent.statIf
  split
  · exact h
  · simp [Agent.sendStat, h, hr]

end


/-! ### Accesses performed at once -/

/-- Nothing holds the accesses of a context: no read of it is held, none waits, and its Tile Agent is in service. -/
structure Agent.Open (a : Agent) (c : Nat) : Prop where
  running : a.inReset = false
  unheld : (a.ctx c).held = none
  idle : (a.ctx c).waiting = []
  served : a.hold = false

theorem Agent.Open.access_eq {a : Agent} {c : Nat} (h : a.Open c) (x : Access) : a.access c x = a.perform c x := by
  simp [Agent.access, Agent.mustWait, h.unheld, h.idle, h.served]

/-- Context `c` becomes `y`, and no other context of the Tile Agent changes. -/
def Agent.Makes (a a' : Agent) (c : Nat) (y : Ctx) : Prop := a'.ctx c = y ∧ ∀ d, d ≠ c → a'.ctx d = a.ctx d

theorem Agent.makes_modCtx (a : Agent) (c : Nat) (f : Ctx → Ctx) : a.Makes (a.modCtx c f) c (f (a.ctx c)) :=
  ⟨a.ctx_modCtx_self c f, fun d hd => by rw [Agent.ctx_modCtx, if_neg hd]⟩

theorem Agent.Makes.refl (a : Agent) (c : Nat) : a.Makes a c (a.ctx c) := ⟨rfl, fun _ _ => rfl⟩

section
variable {a a' : Agent} {c : Nat} {y : Ctx}

theorem Agent.Makes.modCtx (h : a.Makes a' c y) (f : Ctx → Ctx) : a.Makes (a'.modCtx c f) c (f y) :=
  ⟨by rw [Agent.ctx_modCtx_self, h.1], fun d hd => by rw [Agent.ctx_modCtx, if_neg hd, h.2 d hd]⟩

theorem Agent.Makes.send (h : a.Makes a' c y) (r : Word24) : a.Makes (a'.send r) c y := h

theorem Agent.Makes.statIf (h : a.Makes a' c y) (t : Nat) : a.Makes (a'.statIf c t) c y := by
  simpa [Agent.Makes] using h

/-- A word answered joins the answers of its context. -/
theorem Agent.makes_answer (a : Agent) (c : Nat) (w : Word) :
    a.Makes (a.answer c w) c { a.ctx c with resp := w :: (a.ctx c).resp } := a.makes_modCtx c _

/-! ### Reads of a context page (03 R109 to R113, R120) -/

theorem Agent.claim_of_none (h : (a.ctx c).claimReady = none) : a.claim c = a.answer c 0x00FFFFFF := by
  simp only [Agent.claim, h]

/-- The Tile Agent once it took an exclusive copy and sent CLAIMED, before it tells of its threshold. -/
def Agent.taken (a : Agent) (c : Nat) (k : Copy) : Agent :=
  ((a.modCtx c (fun x => { x with ready := x.ready.erase k })).send (recHC 4 k.handle c)).modCtx c
    (fun x => { x with stack := k :: x.stack, resp := k.intid.setWidth 32 :: x.resp })

theorem Agent.claim_exclusive {k : Copy} (h : (a.ctx c).claimReady = some k) (hk : k.shared = false) :
    a.claim c = (a.taken c k).statIf c (a.ctx c).threshold := by
  simp only [Agent.claim, h, hk, Bool.false_eq_true, if_false, Agent.takeCopy, Agent.ctx_send, Agent.ctx_modCtx_self]
  rfl

theorem Agent.makes_taken (a : Agent) (c : Nat) (k : Copy) : a.Makes (a.taken c k) c { a.ctx c with
    ready := (a.ctx c).ready.erase k, stack := k :: (a.ctx c).stack, resp := k.intid.setWidth 32 :: (a.ctx c).resp } :=
  ((a.makes_modCtx c _).send _).modCtx _

theorem Agent.claim_shared {k : Copy} (h : (a.ctx c).claimReady = some k) (hk : k.shared = true) :
    a.claim c = ((a.modCtx c (fun x => { x with ready := x.ready.erase k })).modCtx c (fun x => { x with held := some k })).send
      (recHC 5 k.handle c) := by
  simp only [Agent.claim, h, hk, if_true]

/-- Offset 4 names the claim-ready copy. -/
theorem Agent.pageRead_ready (a : Agent) (c : Nat) : a.pageRead c 4 4 =
    a.answer c (match (a.ctx c).claimReady with
      | some k => k.intid.setWidth 32
      | none => 0x00FFFFFF) := rfl

/-- Every other word, and a read of another size, is answered with 0. -/
theorem Agent.pageRead_other {off size : Nat} (h : size ≠ 4 ∨ off ∉ [0, 4, 8, 0xC, 0x10]) : a.pageRead c off size = a.answer c 0 := by
  by_cases hs : size = 4
  · have hoff : off ∉ [0, 4, 8, 0xC, 0x10] := h.resolve_left (not_not_intro hs)
    simp only [List.mem_cons, List.not_mem_nil, or_false, not_or] at hoff
    obtain ⟨h0, h4, h8, hC, h10⟩ := hoff
    simp only [Agent.pageRead, hs, ne_eq, not_true_eq_false, if_false]
  · simp [Agent.pageRead, hs]

end

/-- An access to the page of a context that nothing holds is performed at once, by its Tile Agent alone. -/
theorem Blk.ctxAccess_of_open {b : Blk} {p : Nat} (hp : p < 1024) (h : (b.ta (p / 64)).Open (p % 64)) (x : Access) :
    b.ctxAccess p x = b.modTa (p / 64) (fun a => a.perform (p % 64) x) := by
  have hacc : b.ctxAccess p x = b.modTa (p / 64) (fun a => a.access (p % 64) x) := by
    simp [Blk.ctxAccess, h.running, Nat.not_le.2 hp]
  rw [hacc, Blk.modTa, tabMod, ← Blk.ta, h.access_eq]
  rfl

theorem exec_claimRead {s : State} {p off : Nat} (hp : p < 1024) (hoff : off < 0x1000) (h : (s.blk.ta (p / 64)).Open (p % 64))
    (size : Nat) : exec (.claimRead p off size) s =
      s.becomes (s.blk.modTa (p / 64) (fun a => a.pageRead (p % 64) off size)) := by
  show s.becomes (s.blk.when (off < 0x1000) (fun b => b.ctxAccess p (.read off size))) = _
  simp [Blk.when, hoff, Blk.ctxAccess_of_open hp h, Agent.perform]

/-- Settles O22: a read that nothing holds is `Agent.pageRead` of its Tile Agent, whose claim-ready copy is the statement's. -/
theorem claimReadTakesHighestCopy : Obligations.ClaimReadTakesHighestCopy := by
  unfold Obligations.ClaimReadTakesHighestCopy
  intro s p off size hp hoff b0 n c a x limit best nothing hrun hheld hwait hserved leaves reads
  have hopen : a.Open c := ⟨hrun, hheld, hwait, hserved⟩
  have hlimit : x.threshold = limit := x.threshold_eq
  have hleaves : ∀ y, a.Makes (a.pageRead c off size) c y →
      leaves y (s.blk.modTa n (fun a => a.pageRead c off size)) := fun y h => by
    have hta : (s.blk.modTa n (fun a => a.pageRead c off size)).ta n = a.pageRead c off size := Blk.ta_modTa_self _ _ _
    exact ⟨exec_claimRead hp hoff hopen size, by rw [hta]; exact h.1, by rw [hta]; exact h.2, rfl, rfl⟩
  have hreads : ∀ w, a.pageRead c off size = a.answer c w → reads w := fun w h =>
    ⟨_, hleaves _ (by rw [h]; exact a.makes_answer c w), by rw [Blk.ta_modTa_self]; exact (congrArg Agent.upq h).trans (a.upq_answer c w)⟩
  have hnone : nothing → x.claimReady = none := fun h => Ctx.claimReady_eq_none.2 (hlimit ▸ h)
  have hsome : ∀ k, best k → x.claimReady = some k := fun k ⟨before, after, hready, hk, hbefore⟩ =>
    Ctx.claimReady_eq_some hready (hlimit ▸ hk) (hlimit ▸ hbefore)
  refine ⟨?none, ?exclusive, ?shared, ?ready, ?runpri, ?floor, ?count, fun h => hreads 0 (Agent.pageRead_other h)⟩
  case none => rintro rfl rfl h; exact hreads _ (Agent.claim_of_none (hnone h))
  case exclusive =>
    rintro rfl rfl k hk hex
    have hclaim : a.pageRead c 0 4 = (a.taken c k).statIf c limit := hlimit ▸ Agent.claim_exclusive (hsome k hk) hex
    refine ⟨_, hleaves _ (by rw [hclaim]; exact (a.makes_taken c k).statIf _), ?_⟩
    have hstat : (s.blk.modTa n (fun a => a.pageRead c 0 4)).ta n = (a.taken c k).statIf c limit :=
      (Blk.ta_modTa_self _ _ _).trans hclaim
    rw [hstat]
    refine ⟨Agent.mem_upq_statIf _ _ _ _ ?_ (by simp [Agent.taken]), fun hne => ?_⟩
    · rw [recType_recHC (by decide)]; decide
    · rw [Agent.ctx_statIf] at hne ⊢
      exact Agent.getLast?_upq_statIf _ _ _ hne
  case shared =>
    rintro rfl rfl k hk hsh
    have hclaim : a.pageRead c 0 4 = _ := Agent.claim_shared (hsome k hk) hsh
    exact ⟨_, hleaves _ (by rw [hclaim]; exact ((a.makes_modCtx c _).modCtx _).send _),
      by rw [Blk.ta_modTa_self]; exact congrArg Agent.upq hclaim⟩
  case ready =>
    rintro rfl rfl
    have hready := a.pageRead_ready c
    exact ⟨fun h => hreads _ (by rw [hready, hnone h]), fun k hk => hreads _ (by rw [hready, hsome k hk])⟩
  case runpri => rintro rfl rfl; exact hreads _ (congrArg (a.answer c) x.runpri_eq)
  case floor => rintro rfl rfl; exact hreads _ rfl
  case count => rintro rfl rfl; exact hreads _ rfl

end Sys2Proof.Machine

/-! Completions, floors and completion faults at a Tile Agent (03 R116 to R118; 05 R172; 06 R246). -/
namespace Sys2Proof.Machine
open Sys2Proof

section
variable {a : Agent} {c : Nat}

/-- A changed threshold is told in the newest record. -/
theorem Agent.Makes.getLast?_upq_statIf {a' : Agent} {y : Ctx} {t : Nat} (h : a.Makes a' c y) (ht : y.threshold ≠ t) :
    (a'.statIf c t).upq.getLast? = some (rec24 12 (c * 2 ^ 14 + y.threshold)) := by
  rw [← h.1] at ht ⊢
  exact Agent.getLast?_upq_statIf _ _ _ ht

/-- A completion fault is counted at its context. -/
theorem Agent.makes_cfaultAt (a : Agent) (c : Nat) :
    a.Makes (a.cfaultAt c) c { a.ctx c with cfault := satInc (a.ctx c).cfault } := (a.makes_modCtx c _).send _

@[simp] theorem Agent.upq_cfaultAt (a : Agent) (c : Nat) : (a.cfaultAt c).upq = a.upq ++ [rec24 13 (c * 2 ^ 14)] := rfl

/-- The complete word is the one at 0x800. -/
theorem Agent.pageWrite_complete (a : Agent) (c : Nat) (v : Word) : a.pageWrite c 0x800 4 v = a.complete c v := rfl

theorem Agent.pageWrite_floor (a : Agent) (c : Nat) (v : Word) : a.pageWrite c 0x00C 4 v = a.floor c v := rfl

/-- Any other write to the complete page is a completion fault. -/
theorem Agent.pageWrite_fault {off size : Nat} (hoff : 0x800 ≤ off) (h : size ≠ 4 ∨ off % 4 ≠ 0) (v : Word) :
    a.pageWrite c off size v = a.cfaultAt c := by
  simp [Agent.pageWrite, hoff, h]

/-- The Tile Agent once it removed an entry from a stack and sent COMPLETE, before it tells of its threshold. -/
def Agent.completed (a : Agent) (c : Nat) (k : Copy) : Agent :=
  (a.modCtx c (fun x => { x with stack := x.stack.erase k })).send (recHC 7 k.handle c)

/-- The topmost entry of the INTID is removed. -/
theorem Agent.complete_of_mem {k : Copy} {before after : List Copy} (hs : (a.ctx c).stack = before ++ k :: after)
    (hbefore : ∀ y ∈ before, y.intid ≠ k.intid) (hk : k.intid ≠ 0xFFFFFF) :
    a.complete c (k.intid.setWidth 32) = (a.completed c k).statIf c (a.ctx c).threshold := by
  have hv : (k.intid.setWidth 32).toNat = k.intid.toNat := by
    rw [BitVec.toNat_setWidth, Nat.mod_eq_of_lt (by have := k.intid.isLt; omega)]
  have hne : k.intid.setWidth 32 ≠ (0x00FFFFFF : Word) := fun h =>
    hk (BitVec.eq_of_toNat_eq (by rw [← hv, h]; rfl))
  have hfind : (a.ctx c).stack.find? (fun y => y.intid.toNat == k.intid.toNat) = some k := by
    rw [hs]
    exact find?_append_cons (fun y hy => by simpa [BitVec.toNat_eq] using hbefore y hy) (beq_self_eq_true _)
  simp only [Agent.complete, if_neg hne, hv, k.intid.isLt, if_true, hfind]
  rfl

theorem Agent.makes_completed {k : Copy} {before after : List Copy} (hs : (a.ctx c).stack = before ++ k :: after)
    (hbefore : ∀ y ∈ before, y.intid ≠ k.intid) : a.Makes (a.completed c k) c { a.ctx c with stack := before ++ after } := by
  have herase : (a.ctx c).stack.erase k = before ++ after := by
    rw [hs]; exact erase_append_cons fun hk => hbefore k hk rfl
  have h : a.Makes (a.completed c k) c _ := (a.makes_modCtx c _).send _
  simpa only [herase] using h

/-- An INTID that is not on the stack is a completion fault. -/
theorem Agent.complete_of_not_mem {v : Word} (hv : v ≠ 0x00FFFFFF) (h : ∀ y ∈ (a.ctx c).stack, y.intid.setWidth 32 ≠ v) :
    a.complete c v = a.cfaultAt c := by
  have hfind : (if v.toNat < 2 ^ 24 then (a.ctx c).stack.find? (fun k => k.intid.toNat == v.toNat) else none) = none := by
    split
    case isFalse => rfl
    case isTrue hlt =>
      refine List.find?_eq_none.2 fun y hy he => h y hy (BitVec.eq_of_toNat_eq ?_)
      rw [BitVec.toNat_setWidth, Nat.mod_eq_of_lt (by have := y.intid.isLt; omega)]
      exact beq_iff_eq.1 he
  simp only [Agent.complete, if_neg hv, hfind]

theorem Agent.complete_spurious (a : Agent) (c : Nat) : a.complete c 0x00FFFFFF = a := rfl

/-- The floor is bits [10:0] of the word, at most 0x400. -/
theorem Agent.floor_eq (a : Agent) (c : Nat) (v : Word) : a.floor c v =
    (a.modCtx c (fun x => { x with pf := BitVec.ofNat 11 (min (v.toNat % 2048) 0x400) })).statIf c (a.ctx c).threshold := by
  have hv : bits v.toNat 10 0 = v.toNat % 2048 := by rw [bits_eq_mod_div _ (by decide)]; simp
  rw [Agent.floor, hv]

end

/-! ### The rows -/

section
variable {s : State} {p : Nat} (hp : p < 1024) (h : (s.blk.ta (p / 64)).Open (p % 64))
include hp h

theorem exec_completeWrite {off : Nat} (hoff : off < 0x1000) (size : Nat) (v : Word) :
    exec (.completeWrite p off size v) s = s.becomes (s.blk.modTa (p / 64) (fun a => a.pageWrite (p % 64) off size v)) := by
  show s.becomes (s.blk.when (off < 0x1000) (fun b => b.ctxAccess p (.complete off size v))) = _
  simp [Blk.when, hoff, Blk.ctxAccess_of_open hp h, Agent.perform]

theorem exec_floorWrite (size : Nat) (v : Word) :
    exec (.floorWrite p size v) s = s.becomes (s.blk.modTa (p / 64) (fun a => a.pageWrite (p % 64) 0x00C size v)) := by
  show s.becomes (s.blk.ctxAccess p (.floor size v)) = _
  rw [Blk.ctxAccess_of_open hp h]
  rfl

end
end Sys2Proof.Machine

/-! Records that reach an end of a Tile Link in sequence (06 R223 to R227). -/
namespace Sys2Proof.Machine
open Sys2Proof

/-! ### A link that runs -/

/-- An event on a link that runs, no pause under way, is what its row does. -/
theorem Blk.LinkRuns.linkRow_eq {b : Blk} {n : Nat} (h : b.LinkRuns n) (m : List Host.Cell) (f : Blk → Blk) :
    b.linkRow m n f = f b := by
  have hruns : b.linksRun = true := by
    have hstart := Blk.start_of_awake h.awake
    simp only [Blk.linksRun, hstart, h.awake]
  simp [Blk.linkRow, hruns, h.steady, Nat.not_le.2 h.link]

/-- From `b0` to `b` nothing has changed but the two ends of links. -/
structure Blk.OnlyEnds (b0 b : Blk) : Prop where
  rest : { b with links := b0.links, tas := b0.tas } = b0
  link : ∀ k, { b.link k with e := (b0.link k).e } = b0.link k
  ta : ∀ k, { b.ta k with e := (b0.ta k).e } = b0.ta k

theorem Blk.OnlyEnds.refl (b : Blk) : b.OnlyEnds b := ⟨rfl, fun _ => rfl, fun _ => rfl⟩

section
variable {b0 b : Blk}

/-- A change of the Hub's end. -/
theorem Blk.OnlyEnds.modLink (h : b0.OnlyEnds b) (n : Nat) {f : Link → Link}
    (hf : { f (b.link n) with e := (b.link n).e } = b.link n) : b0.OnlyEnds (b.modLink n f) := by
  refine ⟨h.rest, fun k => ?_, h.ta⟩
  rw [Blk.link_modLink]
  split
  case isTrue hk =>
    rw [hk, ← h.link n]
    conv_rhs => rw [← hf]
  case isFalse => exact h.link k

/-- A change of the tile's end. -/
theorem Blk.OnlyEnds.modTa (h : b0.OnlyEnds b) (n : Nat) {f : Agent → Agent}
    (hf : { f (b.ta n) with e := (b.ta n).e } = b.ta n) : b0.OnlyEnds (b.modTa n f) := by
  refine ⟨h.rest, h.link, fun k => ?_⟩
  rw [Blk.ta_modTa]
  split
  case isTrue hk =>
    rw [hk, ← h.ta n]
    conv_rhs => rw [← hf]
  case isFalse => exact h.ta k

end

/-! ### A flit of one record -/

/-- No bit error. -/
theorem corrupt_none (f : Flit) : corrupt f (0 ^^^ 0) = f := by
  simp [corrupt]

/-- A record that is neither NOP nor a candidate, alone in its flit. -/
theorem records_mkFlit {r : Word24} (hr : 2 < recType r) (q : BitVec 8) : (mkFlit q r 0 0).records = [r] := by
  have h0 : recType 0#24 = 0 := by decide
  have hne : recType r ≠ 0 := by omega
  simp [Flit.records, mkFlit, h0, hne]

theorem isCand_mkFlit {r : Word24} (hr : 2 < recType r) (q : BitVec 8) : (mkFlit q r 0 0).isCand = false := by
  have h1 : recType r ≠ 1 := by omega
  have h2 : recType r ≠ 2 := by omega
  simp [Flit.isCand, mkFlit, h1, h2]

theorem leads_mkFlit {r : Word24} (hr : 2 < recType r) (q : BitVec 8) : (mkFlit q r 0 0).leads (recType r) = true := by
  rw [Flit.leads, isCand_mkFlit hr, records_mkFlit hr]
  simp

theorem isIdle_mkFlit {r : Word24} (hr : 2 < recType r) (q : BitVec 8) : (mkFlit q r 0 0).isIdle = false := by
  have hne : r ≠ 0#24 := fun h => by rw [h] at hr; exact absurd hr (by decide)
  simp [Flit.isIdle, mkFlit, hne]

theorem legal_mkFlit {r : Word24} (hr : 2 < recType r) {up : Bool} (hl : recLegal up r = true) (q : BitVec 8) :
    (mkFlit q r 0 0).legal up = true := by
  have h0 : recLegal up 0#24 = true := by cases up <;> decide
  rw [Flit.legal, isCand_mkFlit hr]
  simp [mkFlit, hl, h0]

theorem check_mkFlit (e : LinkEnd) (r : Word24) : e.check (mkFlit e.rxExp r 0 0) = true := by
  simp [LinkEnd.check, mkFlit]

/-- The inbox that a flit of one record leaves. -/
theorem LinkEnd.takeFirst_mkFlit (e : LinkEnd) {r : Word24} (hr : 2 < recType r) (q : BitVec 8) :
    e.takeFirst (recType r) (some (mkFlit q r 0 0)) = ({ e with inbox := [] }, some r) := by
  simp only [LinkEnd.takeFirst, Option.map_some, records_mkFlit hr, if_true]

@[simp] theorem Blk.ta_modLink (b : Blk) (n k : Nat) (f : Link → Link) : (b.modLink n f).ta k = b.ta k := rfl

/-! ### At the Hub -/

section
variable {b : Blk} {n : Nat} {r : Word24} {rest : List Flit} (hr : 2 < recType r)
include hr

/-- An intact flit of one record is accepted by the Hub. -/
theorem Blk.ToHub.recvUp (h : b.ToHub n r rest) (hl : recLegal true r = true) :
    ∃ b', (b.modTa n (fun _ => b.ta n)).recvUp n 0 = (b', some (mkFlit (b.link n).e.rxExp r 0 0)) ∧ b.OnlyEnds b' := by
  have hwire : ((b.modTa n (fun _ => b.ta n)).ta n).e.wire = mkFlit (b.link n).e.rxExp r 0 0 :: rest := by
    rw [Blk.ta_modTa_self, h.wire]
  have hinj : (b.modTa n (fun _ => b.ta n)).injHit 18 n = false := Blk.injHit_of_noArm h.noInject _ _
  have hends := ((Blk.OnlyEnds.refl b).modTa n (f := fun _ => b.ta n) rfl).modTa n
    (f := fun a => { a with e := { a.e with wire := rest } }) rfl
  refine ⟨_, ?_, hends.modLink n (f := fun l => { l with e := l.e.accepted (mkFlit (b.link n).e.rxExp r 0 0) }) rfl⟩
  unfold Blk.recvUp
  simp only [hwire, hinj, Bool.false_eq_true, if_false]
  simp only [corrupt_none, Blk.link_modTa, check_mkFlit, Bool.not_true, Bool.false_eq_true, legal_mkFlit hr hl, if_true, if_false]

/-- A record in sequence takes effect at the Hub, on a block in which only the ends of the link have changed. -/
theorem Blk.ToHub.upRec_eq (h : b.ToHub n r rest) (hl : recLegal true r = true) {t : Nat} (ht : recType r = t) :
    ∃ b', b.OnlyEnds b' ∧ ∀ f, b.upRec n t 0 f = f b' r := by
  subst ht
  obtain ⟨b1, hrecv, hends⟩ := h.recvUp hr hl
  have hlaunch : (b.ta n).launchNext b.time.count = b.ta n := by simp [Agent.launchNext, h.wire]
  let b2 := b1.modLink n (fun l => { l with e := { (b1.link n).e with inbox := [] } })
  have hends2 : b.OnlyEnds b2 := hends.modLink n rfl
  have htake : b.takeUp n (recType r) 0 = some (b2, some r) := by
    simp only [Blk.takeUp, h.inbox, h.driven, h.tile, hlaunch, h.wire, leads_mkFlit hr, hrecv, LinkEnd.takeFirst_mkFlit _ hr,
      Bool.not_true, Bool.or_false, Bool.false_and, Bool.false_eq_true, if_false]
    rfl
  refine ⟨if recType r = 8 ∨ recType r = 6 then b2 else b2.abandonPause n, ?_, fun f => by simp only [Blk.upRec, htake]⟩
  have hph : (b2.link n).ph ≠ .pausing := fun hp => h.steady (by rw [← hp, ← hends2.link n])
  split
  · exact hends2
  · exact hends2.modLink n (by rw [if_neg hph])

/-! ### At the Tile Agent -/

/-- An intact flit of one record is accepted by the Tile Agent. -/
theorem Blk.ToTile.recvDown (h : b.ToTile n r rest) (hl : recLegal false r = true) :
    ∃ b', b.recvDown n 0 = (b', some (mkFlit (b.ta n).e.rxExp r 0 0)) ∧ b.OnlyEnds b' := by
  have hinj : b.injHit 17 n = false := Blk.injHit_of_noArm h.noInject _ _
  have hends := (Blk.OnlyEnds.refl b).modLink n (f := fun l => { l with e := { l.e with wire := rest } }) rfl
  refine ⟨_, ?_, hends.modTa n (f := fun a => { a with e := a.e.accepted (mkFlit (b.ta n).e.rxExp r 0 0) }) rfl⟩
  unfold Blk.recvDown
  simp only [h.wire, hinj, Bool.false_eq_true, if_false]
  simp only [corrupt_none, Blk.ta_modLink, check_mkFlit, Bool.not_true, Bool.false_eq_true, legal_mkFlit hr hl, if_true, if_false]

/-- No IDLE flit stands before a record that comes next. -/
theorem Blk.ToTile.idlesAtTile_eq (h : b.ToTile n r rest) : b.idlesAtTile n = b := by
  rw [Blk.idlesAtTile, h.wire, List.length_cons, Blk.idlesDown]
  simp only [h.wire, isIdle_mkFlit hr, Bool.false_eq_true, if_false]

/-- A record in sequence takes effect at the Tile Agent, on a block in which only the ends of the link have changed. -/
theorem Blk.ToTile.downRec_eq (h : b.ToTile n r rest) (hl : recLegal false r = true) {t : Nat} (ht : recType r = t) :
    ∃ b', b.OnlyEnds b' ∧ ∀ f, b.downRec n t 0 f = f b' r := by
  subst ht
  obtain ⟨b1, hrecv, hends⟩ := h.recvDown hr hl
  refine ⟨b1.modTa n (fun a => { a with e := { (b1.ta n).e with inbox := [] } }), hends.modTa n rfl, fun f => ?_⟩
  have hfind : (b.link n).e.wire.find? (fun f => !f.isIdle) = some (mkFlit (b.ta n).e.rxExp r 0 0) := by
    rw [h.wire, List.find?_cons, isIdle_mkFlit hr]
    rfl
  simp only [Blk.downRec, Blk.takeDown, h.inbox, hfind, h.idlesAtTile_eq hr, leads_mkFlit hr, hrecv,
    LinkEnd.takeFirst_mkFlit _ hr, ne_eq, not_true_eq_false, decide_false, Bool.false_and, Bool.not_true, Bool.false_eq_true,
    if_false]

end
end Sys2Proof.Machine

/-! Records of the contexts at the Hub (05 R175; 06 R237, R246), and the settling of O23. -/
namespace Sys2Proof.Machine
open Sys2Proof

/-! ### Legal records -/

theorem bits_recHC_low {t : Nat} (ht : t < 16) (h c : Nat) : bits (recHC t h c).toNat 3 0 = 0 := by
  rw [recHC, bits_rec24 ht _ (by decide) (by decide), bits_eq_mod_div _ (by decide)]
  omega

/-- CTXSTAT of context `c` with threshold `t`. -/
theorem recLegal_ctxstat {c t : Nat} (ht : t < 2048) : recLegal true (rec24 12 (c * 2 ^ 14 + t)) = true := by
  have hlow : bits (rec24 12 (c * 2 ^ 14 + t)).toNat 13 11 = 0 := by
    rw [bits_rec24 (by decide) _ (by decide) (by decide), bits_eq_mod_div _ (by decide)]
    omega
  simp only [recLegal, recType_rec24 (by decide : 12 < 16), hlow, if_true, beq_self_eq_true]

theorem recLegal_cfault (c : Nat) : recLegal true (rec24 13 (c * 2 ^ 14)) = true := by
  have hlow : bits (rec24 13 (c * 2 ^ 14)).toNat 13 0 = 0 := by
    rw [bits_rec24 (by decide) _ (by decide) (by decide), bits_eq_mod_div _ (by decide)]
    omega
  simp only [recLegal, recType_rec24 (by decide : 13 < 16), hlow, if_true, beq_self_eq_true]

theorem recLegal_unpop (h c : Nat) : recLegal true (recHC 14 h c) = true := by
  simp [recLegal, recType_recHC, bits_recHC_low]

/-! ### At the Hub -/

section
variable {b0 b : Blk} (h : b0.OnlyEnds b)
include h

theorem Blk.OnlyEnds.rank : b.rank = b0.rank := by
  have hrest := congrArg Blk.rank h.rest
  exact hrest

theorem Blk.OnlyEnds.lane (k : Nat) : b.lane k = b0.lane k := by
  have hrest := congrArg (fun b => Blk.lane b k) h.rest
  exact hrest

theorem Blk.OnlyEnds.err (k : Nat) : (b.link k).err = (b0.link k).err := by
  have hlink := congrArg Link.err (h.link k)
  exact hlink

end

section
variable {s : State} {n : Nat} {rest : List Flit}

/-- A threshold told by a tile enters the Context Priority Table. -/
theorem exec_ctxstat {c t : Nat} (hc : c < 64) (ht : t < 2048) (h : s.blk.ToHub n (rec24 12 (c * 2 ^ 14 + t)) rest) :
    ∃ b, exec (.ctxstat n 0) s = s.becomes b ∧ b.rank.cpt = tabSet 0 s.blk.rank.cpt (64 * n + c) (BitVec.ofNat 11 t) := by
  obtain ⟨b, hends, hup⟩ := h.upRec_eq (by rw [recType_rec24 (by decide)]; decide) (recLegal_ctxstat ht)
    (recType_rec24 (by decide) _)
  have hctx : bits (rec24 12 (c * 2 ^ 14 + t)).toNat 19 14 = c := by
    rw [bits_rec24 (by decide) _ (by decide) (by decide), bits_eq_mod_div _ (by decide)]
    omega
  have hlev : bits (rec24 12 (c * 2 ^ 14 + t)).toNat 10 0 = t := by
    rw [bits_rec24 (by decide) _ (by decide) (by decide), bits_eq_mod_div _ (by decide)]
    omega
  refine ⟨_, congrArg s.becomes ((h.toLinkRuns.linkRow_eq s.mem _).trans (hup _)), ?_⟩
  show tabSet 0 b.rank.cpt (64 * n + bits _ 19 14) (BitVec.ofNat 11 (bits _ 10 0)) = _
  rw [hctx, hlev, hends.rank]

/-- A completion fault told by a tile raises internal source 0x07. -/
theorem exec_cfault {c : Nat} (h : s.blk.ToHub n (rec24 13 (c * 2 ^ 14)) rest) :
    ∃ b, exec (.cfault n 0) s = s.becomes b ∧ (b.lane 24).reports = (s.blk.lane 24).reports ++ [0x07] := by
  obtain ⟨b, hends, hup⟩ := h.upRec_eq (by rw [recType_rec24 (by decide)]; decide) (recLegal_cfault c)
    (recType_rec24 (by decide) _)
  refine ⟨_, congrArg s.becomes ((h.toLinkRuns.linkRow_eq s.mem _).trans (hup _)), ?_⟩
  rw [Blk.reports_raise, hends.lane]

/-- An unpopulated delivery told by a tile is counted at its link and raises internal source 0x0B. -/
theorem exec_unpop {k c : Nat} (h : s.blk.ToHub n (recHC 14 k c) rest) :
    ∃ b, exec (.unpop n 0) s = s.becomes b ∧
      (b.link n).err = { (s.blk.link n).err with unpop := satInc (s.blk.link n).err.unpop } ∧
      (b.lane 24).reports = (s.blk.lane 24).reports ++ [0x0B] := by
  obtain ⟨b, hends, hup⟩ := h.upRec_eq (by rw [recType_recHC (by decide)]; decide) (recLegal_unpop k c)
    (recType_recHC (by decide) _ _)
  refine ⟨_, congrArg s.becomes ((h.toLinkRuns.linkRow_eq s.mem _).trans (hup _)), ?_, ?_⟩
  · rw [← hends.err n]
    exact congrArg Link.err (b.link_modLink_self n (fun l => { l with err := { l.err with unpop := satInc l.err.unpop } }))
  · rw [Blk.reports_raise, ← hends.lane]
    rfl

end

/-- Settles O23: the tile's half by what each write makes of its context (`Agent.Makes`), the Hub's half by the record that
arrives in sequence. -/
theorem completionsAndFloors : Obligations.CompletionsAndFloors := by
  unfold Obligations.CompletionsAndFloors
  intro s p hp b0 n c a x stat leaves faults
  have hc : c < 64 := Nat.mod_lt _ (by decide)
  have hpn : 64 * n + c = p := Nat.div_add_mod p 64
  refine ⟨fun hrun hheld hwait hserved => ?_, fun t h rest ht hh => ⟨fun hto => ?_, fun hto => ?_, fun hto => ?_⟩⟩
  case refine_1 =>
    have hopen : a.Open c := ⟨hrun, hheld, hwait, hserved⟩
    have hleaves : ∀ i (f : Agent → Agent) y, exec i s = s.becomes (s.blk.modTa n f) → a.Makes (f a) c y →
        (y.threshold ≠ x.threshold → (f a).upq.getLast? = some (rec24 12 (c * 2 ^ 14 + y.threshold))) →
        leaves i y (s.blk.modTa n f) := fun i f y hexec hmakes hstat => by
      have hta : (s.blk.modTa n f).ta n = f a := Blk.ta_modTa_self _ _ _
      refine ⟨hexec, by rw [hta]; exact hmakes.1, by rw [hta]; exact hmakes.2, rfl, rfl, ?_⟩
      simp only [stat, hta, hmakes.1]
      exact hstat
    have hfaults : ∀ i (f : Agent → Agent), exec i s = s.becomes (s.blk.modTa n f) → f a = a.cfaultAt c → faults i :=
      fun i f hexec hf => ⟨_, hleaves i f _ hexec (by rw [hf]; exact a.makes_cfaultAt c) (fun hne => absurd rfl hne), by
        rw [Blk.ta_modTa_self]; exact congrArg Agent.upq hf⟩
    refine ⟨fun k before after hs hbefore hk => ?_, fun v hv hmem => ?_, fun off size v hlo hhi hbad => ?_, ?_, fun v => ?_⟩
    · have hcomp := Agent.complete_of_mem hs hbefore hk
      have hmakes := Agent.makes_completed hs hbefore
      refine ⟨_, hleaves _ _ _ (exec_completeWrite hp hopen (by decide) 4 _) ?_ ?_, ?_⟩
      · rw [Agent.pageWrite_complete, hcomp]; exact hmakes.statIf _
      · rw [Agent.pageWrite_complete, hcomp]; exact hmakes.getLast?_upq_statIf
      · rw [Blk.ta_modTa_self]
        refine (congrArg (fun a => recHC 7 k.handle c ∈ Agent.upq a) hcomp).mpr (Agent.mem_upq_statIf _ _ _ _ ?_ ?_)
        · rw [recType_recHC (by decide)]; decide
        · simp [Agent.completed]
    · exact hfaults _ _ (exec_completeWrite hp hopen (by decide) 4 v) (Agent.complete_of_not_mem hv hmem)
    · exact hfaults _ _ (exec_completeWrite hp hopen hhi size v) (Agent.pageWrite_fault hlo hbad v)
    · refine ⟨_, hleaves _ _ _ (exec_completeWrite hp hopen (by decide) 4 _) (Agent.Makes.refl a c) (fun hne => absurd rfl hne), ?_⟩
      rw [Blk.ta_modTa_self]
      exact congrArg Agent.upq (a.complete_spurious c)
    · have hmakes := a.makes_modCtx c (fun x => { x with pf := BitVec.ofNat 11 (min (v.toNat % 2048) 0x400) })
      refine ⟨_, hleaves _ _ _ (exec_floorWrite hp hopen 4 v) ?_ ?_⟩
      · rw [Agent.pageWrite_floor, Agent.floor_eq]; exact hmakes.statIf _
      · rw [Agent.pageWrite_floor, Agent.floor_eq]; exact hmakes.getLast?_upq_statIf
  case refine_2 =>
    obtain ⟨b, hexec, hcpt⟩ := exec_ctxstat hc ht hto
    refine ⟨b, hexec, ?_, fun q hq => ?_⟩ <;> rw [hcpt, hpn]
    · exact tabGet_tabSet_self _ _ _ _
    · exact tabGet_tabSet_ne _ _ _ hq
  case refine_3 => exact exec_cfault hto
  case refine_4 => exact exec_unpop hto

end Sys2Proof.Machine

/-! The update of an entry in its slot, and the way of a notice to its bank (04 R155; 05 R176; 06 R234). -/
namespace Sys2Proof.Machine
open Sys2Proof

/-! ### A source in its slot -/

/-- A mapped source that lives in a readable slot, no injection armed, no offer standing in its bank's register, its domain
neither FREEZING nor FROZEN. -/
structure Blk.Resident (b : Blk) (i : Nat) (st : Stt) : Prop where
  stt : b.stt i = st
  valid : st.valid = true
  res : st.res = true
  noInject : b.inj.arm = []
  sound : setHas b.ecc.entryBad st.slot = false
  intact : setHas b.ecc.entryCe st.slot = false
  noOffer : ∀ x ∈ b.rank.offers, x.1 ≠ st.slot % 16
  acts : (b.dom st.domid).still = false

theorem Blk.AtSlot.resident {b : Blk} {i : Nat} {st : Stt} (h : b.AtSlot i st) : b.Resident i st := by
  obtain ⟨hstt, ⟨hvalid, hres⟩, hinj, ⟨hsttBad, hbad, hce⟩, hoffer, -, hacts⟩ := h
  refine ⟨?_, hvalid, hres, hinj, hbad, hce, hoffer, hacts⟩
  simp only [Blk.stt, hsttBad, Bool.false_eq_true, if_false, hstt]

/-- A source stays resident while its tables and the offers stay. -/
theorem Blk.Resident.congr {b0 b : Blk} {i : Nat} {st : Stt} (h : b0.Resident i st) (hsram : b.sram = b0.sram)
    (hinj : b.inj = b0.inj) (hecc : b.ecc = b0.ecc) (hoffers : b.rank.offers = b0.rank.offers) : b.Resident i st := by
  obtain ⟨hstt, hvalid, hres, harm, hbad, hce, hoffer, hacts⟩ := h
  refine ⟨?_, hvalid, hres, hinj ▸ harm, hecc ▸ hbad, hecc ▸ hce, hoffers ▸ hoffer, ?_⟩
  · rw [← hstt, Blk.stt, Blk.stt, hsram, hecc]
  · rw [← hacts, Blk.dom, Blk.dom, hsram]

section
variable {b0 b b1 : Blk} {i : Nat} {st : Stt} {e f : Entry} {m : List Host.Cell} {u : Upd}

/-- No error is found in a readable slot. -/
theorem Blk.Resident.slotRead_eq (h : b.Resident i st) : b.slotRead st.slot = b := by
  simp only [Blk.slotRead, Blk.injHit_of_noArm h.noInject, h.intact, Bool.false_eq_true, if_false]

/-- An offer register in which nothing stands is free. -/
theorem Blk.Resident.rankFree_eq (h : b.Resident i st) (m : List Host.Cell) : b.rankFree m (st.slot % 16) = b := by
  have hany : b.rank.offers.any (fun x => x.1 == st.slot % 16) = false := by simpa using h.noOffer
  rw [Blk.rankFree, Blk.rankUntil, hany]
  rfl

/-- The block with the entry of a source written, offered when it is due an offer. -/
def Blk.settled (b : Blk) (i : Nat) (st : Stt) (e : Entry) : Blk :=
  let r := b.offerIf (st.slot % 16) i st e
  r.1.modSlot st.slot (fun s => { s with entry := r.2 })

/-- Settling changes the slots, the offers and the debug unit alone. -/
theorem Blk.settled_eq (b : Blk) (i : Nat) (st : Stt) (e : Entry) : ∃ slots offers dbg, b.settled i st e =
    { b with sram := { b.sram with slots := slots }, rank := { b.rank with offers := offers }, dbg := dbg } := by
  unfold Blk.settled Blk.offerIf Blk.putOffer
  split
  · dsimp only
    rw [Blk.probe_eq]
    exact ⟨_, _, _, rfl⟩
  · exact ⟨_, b.rank.offers, b.dbg, rfl⟩

@[simp] theorem Blk.link_settled (b : Blk) (i : Nat) (st : Stt) (e : Entry) (n : Nat) :
    (b.settled i st e).link n = b.link n := by
  obtain ⟨slots, offers, dbg, h⟩ := b.settled_eq i st e
  rw [h]; rfl

@[simp] theorem Blk.bcast_settled (b : Blk) (i : Nat) (st : Stt) (e : Entry) : (b.settled i st e).rank.bcast = b.rank.bcast := by
  obtain ⟨slots, offers, dbg, h⟩ := b.settled_eq i st e
  rw [h]

@[simp] theorem Blk.peer_settled (b : Blk) (i : Nat) (st : Stt) (e : Entry) (p : Nat) :
    (b.settled i st e).peer p = b.peer p := by
  obtain ⟨slots, offers, dbg, h⟩ := b.settled_eq i st e
  rw [h]; rfl

/-- The entry is settled as the statements say. -/
theorem Blk.settlesAt_settled (hvalid : st.valid = true) (hacts : (b.dom st.domid).still = false)
    (hoffers : b.rank.offers = b0.rank.offers) (i : Nat) (e : Entry) : b0.SettlesAt (b.settled i st e) i st e := by
  have hentry : (b.settled i st e).entry st = (b.offerIf (st.slot % 16) i st e).2 := by
    rw [Blk.entry, Blk.settled, Blk.slot_modSlot_self]
  have hrank : (b.settled i st e).rank = (b.offerIf (st.slot % 16) i st e).1.rank := rfl
  rw [Blk.SettlesAt, hentry, hrank, ← hoffers]
  split
  case isTrue hdue =>
    have hif : b.offerIf (st.slot % 16) i st e =
        (b.putOffer (st.slot % 16) (mkOffer i st { e with dlv := true } false false) st, { e with dlv := true }) := by
      simp only [Blk.offerIf, hdue.1, hdue.2.1, hdue.2.2, hvalid, hacts, Bool.not_false, Bool.and_self, if_true]
    rw [hif]
    refine ⟨rfl, ?_⟩
    rw [Blk.putOffer, Blk.probe_eq]
    rfl
  case isFalse hdue =>
    have hif : b.offerIf (st.slot % 16) i st e = (b, e) := by
      unfold Blk.offerIf
      rw [if_neg]
      simp only [Bool.and_eq_true, Bool.not_eq_true']
      exact fun h => hdue ⟨h.1.1.1.1, h.1.1.1.2, h.1.1.2⟩
    rw [hif]
    exact ⟨rfl, rfl⟩

/-- The entry as an update leaves it: under the current generation when the update writes it. -/
def Blk.stamped (b : Blk) (u : Upd) (st : Stt) (e f : Entry) : Entry :=
  if u.kind.writesGen && f ≠ e then { f with gen := (b.dom st.domid).gen } else f

theorem Blk.stamped_of_not_writesGen (h : u.kind.writesGen = false) : b.stamped u st e f = f := by
  simp [Blk.stamped, h]

/-- An update of a resident source is performed at its slot. -/
theorem Blk.Resident.update_eq (h : b.Resident i st) (hi : u.stt = i) (hm : u.mapgen = st.mapgen) (m : List Host.Cell)
    (input : Nat) : b.update m u input =
      ((b.granted (st.slot % 16) input).updBody m (st.slot % 16) u st (b.entry st)).map
        (fun r => r.1.settled i st (r.1.stamped u st (b.entry st) r.2)) := by
  have hgone : (!st.valid || decide (st.mapgen ≠ u.mapgen)) = false := by simp [h.valid, hm]
  have hslot : b.update m u input = b.updSlot m u st input := by
    simp only [Blk.update, Blk.sttRead_of_noArm h.noInject, hi, h.stt, hgone, h.res, Bool.false_eq_true, if_false, if_true]
  rw [hslot]
  simp only [Blk.updSlot, h.slotRead_eq, h.sound, h.rankFree_eq, Bool.false_eq_true, if_false, Blk.performOn]
  have hentry : ((b.granted (st.slot % 16) input).slot st.slot).entry = b.entry st := rfl
  rw [hentry]
  cases (b.granted (st.slot % 16) input).updBody m (st.slot % 16) u st (b.entry st) with
  | none => rfl
  | some r => rw [← hi]; rfl

/-- A resident source is not spilled. -/
theorem Blk.Resident.not_spilled (h : b.Resident i st) (hi : u.stt = i) : b.spilled u = false := by
  simp [Blk.spilled, hi, h.stt, h.res]

end

/-! ### The way of a notice -/

/-- A table whose one interesting key is `k` is searched there. -/
theorem findSome?_of_unique {α β : Type} {f : α → Option β} {l : List α} {k : α} {v : β} (hk : k ∈ l) (hv : f k = some v)
    (h : ∀ j ∈ l, j ≠ k → f j = none) : l.findSome? f = some v := by
  induction l with
  | nil => exact absurd hk List.not_mem_nil
  | cons a l ih =>
    by_cases ha : a = k
    · rw [List.findSome?_cons, ha, hv]
    · rw [List.findSome?_cons, h a List.mem_cons_self ha]
      exact ih ((List.mem_cons.1 hk).resolve_left (Ne.symm ha)) fun j hj => h j (List.mem_cons_of_mem a hj)

theorem mem_afterPtr {l : NSet} {p v : Nat} : v ∈ afterPtr l p ↔ v ∈ l := by
  simp only [afterPtr, List.mem_append, List.mem_filter, decide_eq_true_eq, ← and_or_left, and_iff_left_iff_imp]
  exact fun _ => Nat.lt_or_ge p v

theorem Blk.notices_of_not_held {b : Blk} (h : b.noticesHeld = false) (k : Nat) : (b.link k).notices = [] := by
  refine tabGet_of_forall_mem (P := fun l : Link => l.notices = []) (fun x hx => ?_) rfl k
  simpa using List.any_eq_false.1 h x hx

section
variable {b : Blk} {n : Nat} {u : Upd} {m : List Host.Cell}

/-- The bank of the slot that a notice goes to. -/
def Blk.noticeBank (b : Blk) (u : Upd) : Nat := (b.stt u.stt).slot % 16

/-- The block with a notice taken out of the register that it entered. -/
def Blk.noticeTaken (b : Blk) (n : Nat) (u : Upd) : Blk :=
  (b.noticeHold n u).modLink n (fun l => { l with notices := tabSet [] l.notices (b.noticeBank u) [] })

/-- Its way leaves of a notice no trace but at the register. -/
theorem Blk.link_noticeTaken (b : Blk) (n : Nat) (u : Upd) (k : Nat) :
    { (b.noticeTaken n u).link k with notices := (b.link k).notices } = b.link k := by
  rw [Blk.noticeTaken, Blk.noticeHold, Blk.link_modLink]
  by_cases hk : k = n
  · subst hk
    rw [if_pos rfl, Blk.link_modLink_self]
  · rw [if_neg hk, Blk.link_modLink, if_neg hk]

/-- Input 7 of the bank served the link. -/
def Blk.served7 (b : Blk) (bank n : Nat) : Blk := { b with arb := { b.arb with rr7 := tabSet 15 b.arb.rr7 bank n } }

variable (hn : n < 16) (hnone : ∀ k, (b.link k).notices = [])
include hnone

/-- The notices that are held: one, at its bank. -/
theorem Blk.notices_noticeHold (k bank : Nat) :
    tabGet [] ((b.noticeHold n u).link k).notices bank = if k = n ∧ bank = b.noticeBank u then [u] else [] := by
  rw [Blk.noticeHold, Blk.link_modLink]
  by_cases hk : k = n
  · simp [hk, hnone, tabGet_tabMod, Blk.noticeBank, tabGet]
  · simp [hk, hnone]

theorem Blk.noticesHeld_noticeHold : (b.noticeHold n u).noticesHeld = true := by
  by_contra h
  have hget := Blk.notices_noticeHold (n := n) (u := u) hnone n (b.noticeBank u)
  rw [Blk.notices_of_not_held (by simpa using h)] at hget
  simp [tabGet] at hget

theorem Blk.noticeTake_of_ne {k bank : Nat} (h : ¬ (k = n ∧ bank = b.noticeBank u)) :
    (b.noticeHold n u).noticeTake m bank k = none := by
  have hget := Blk.notices_noticeHold (n := n) (u := u) hnone k bank
  rw [if_neg h] at hget
  simp only [Blk.noticeTake, hget]

theorem Blk.noticeTake_self (hsp : b.spilled u = false) :
    (b.noticeHold n u).noticeTake m (b.noticeBank u) n = (b.noticeTaken n u).update m u 7 := by
  have hget := Blk.notices_noticeHold (n := n) (u := u) hnone n (b.noticeBank u)
  rw [if_pos ⟨rfl, rfl⟩] at hget
  have hsp' : (b.noticeTaken n u).spilled u = false := hsp
  simp only [Blk.noticeTake, hget]
  change (if (b.noticeTaken n u).spilled u = true then _ else _) = _
  rw [hsp']
  rfl

include hn

/-- The only notice that is held is taken at once. -/
theorem Blk.noticesRun_noticeHold {b' : Blk} (hsp : b.spilled u = false) (hupd : (b.noticeTaken n u).update m u 7 = some b') :
    (b.noticeHold n u).noticesRun m 1 = b'.served7 (b.noticeBank u) n := by
  have hbank : (b.noticeHold n u).grant7 m (b.noticeBank u) = some (b'.served7 (b.noticeBank u) n) := by
    refine findSome?_of_unique (k := n) (mem_afterPtr.2 (List.mem_range.2 hn)) ?_ fun j _ hj => ?_
    · rw [Blk.noticeTake_self hnone hsp, hupd]; rfl
    · rw [Blk.noticeTake_of_ne hnone fun h => hj h.1]; rfl
  have hrest : ∀ k ∈ List.range 16, k ≠ b.noticeBank u → (b.noticeHold n u).grant7 m k = none := fun k _ hk => by
    refine List.findSome?_eq_none_iff.2 fun j _ => ?_
    rw [Blk.noticeTake_of_ne hnone fun h => hk h.2]
    rfl
  have hrange : b.noticeBank u ∈ List.range 16 := List.mem_range.2 (Nat.mod_lt _ (by decide))
  rw [Blk.noticesRun, Blk.noticesHeld_noticeHold hnone, findSome?_of_unique hrange hbank hrest]
  rfl

/-- A notice that waits for none takes effect at its bank at once. -/
theorem Blk.sendNotice_eq {h : Nat} {b' : Blk} (hunspilled : ∀ v ∈ b.rings.spillq ++ b.rings.spillw, v.names n h = false)
    (hsp : b.spilled u = false) (hupd : (b.noticeTaken n u).update m u 7 = some b') :
    b.sendNotice m n h u = b'.served7 (b.noticeBank u) n := by
  have hany : (b.rings.spillq ++ b.rings.spillw).any (fun v => v.names n h) = false :=
    List.any_eq_false.2 fun v hv => by rw [hunspilled v hv]; decide
  rw [Blk.sendNotice, hany]
  exact Blk.noticesRun_noticeHold hn hnone hsp hupd

end
end Sys2Proof.Machine

/-! Notices of exclusive handles (03 R95, R102, R104; 06 R233, R612), and the settling of O17. -/
namespace Sys2Proof.Machine
open Sys2Proof

/-! ### From the wire to the bank -/

/-- From `b0` to `b` a record went its way from a tile to a bank: beyond the ends of links nothing has changed but the
notices that links hold, the arbiters and the debug unit. -/
structure Blk.Brings (b0 b : Blk) : Prop where
  rest : { b with links := b0.links, tas := b0.tas, arb := b0.arb, dbg := b0.dbg } = b0
  link : ∀ k, { b.link k with e := (b0.link k).e, notices := (b0.link k).notices } = b0.link k

section
variable {b0 b : Blk}

theorem Blk.OnlyEnds.brings (h : b0.OnlyEnds b) : b0.Brings b := by
  refine ⟨?_, fun k => ?_⟩
  · rw [← h.rest]
  · rw [← h.link k]

section
variable (h : b0.Brings b)
include h

theorem Blk.Brings.sram : b.sram = b0.sram := by have := congrArg Blk.sram h.rest; exact this
theorem Blk.Brings.inj : b.inj = b0.inj := by have := congrArg Blk.inj h.rest; exact this
theorem Blk.Brings.ecc : b.ecc = b0.ecc := by have := congrArg Blk.ecc h.rest; exact this
theorem Blk.Brings.rank : b.rank = b0.rank := by have := congrArg Blk.rank h.rest; exact this
theorem Blk.Brings.rings : b.rings = b0.rings := by have := congrArg Blk.rings h.rest; exact this
theorem Blk.Brings.fed : b.fed = b0.fed := by have := congrArg Blk.fed h.rest; exact this
theorem Blk.Brings.stampNow : b.stampNow = b0.stampNow := by have := congrArg Blk.stampNow h.rest; exact this

theorem Blk.Brings.dom (d : Nat) : b.dom d = b0.dom d := by rw [Blk.dom, Blk.dom, h.sram]
theorem Blk.Brings.entry (t : Stt) : b.entry t = b0.entry t := by rw [Blk.entry, Blk.entry, Blk.slot, Blk.slot, h.sram]
theorem Blk.Brings.lostHandle (n k : Nat) : b.lostHandle n k = b0.lostHandle n k := by
  rw [Blk.lostHandle, Blk.lostHandle, h.ecc]
theorem Blk.Brings.handle (n k : Nat) : (b.link n).handle k = (b0.link n).handle k := by
  have := congrArg (fun l => Link.handle l k) (h.link n); exact this
theorem Blk.Brings.ctl (n : Nat) : (b.link n).ctl = (b0.link n).ctl := by
  have := congrArg Link.ctl (h.link n); exact this
theorem Blk.Brings.handles (n : Nat) : (b.link n).handles = (b0.link n).handles := by
  have := congrArg Link.handles (h.link n); exact this

theorem Blk.Brings.probe (ev i d : Nat) (cls : BitVec 2) : b0.Brings (b.probe ev i d cls) := by
  rw [Blk.probe_eq]
  exact ⟨h.rest, h.link⟩

theorem Blk.Brings.resident {i : Nat} {t : Stt} (hr : b0.Resident i t) : b.Resident i t :=
  hr.congr h.sram h.inj h.ecc (by rw [h.rank])

/-- A notice at its bank. -/
theorem Blk.Brings.noticeTaken (n : Nat) (u : Upd) (bank input : Nat) :
    b0.Brings ((b.noticeTaken n u).granted bank input) := by
  refine ⟨?_, fun k => ?_⟩
  · simp only [Blk.noticeTaken, Blk.noticeHold, Blk.granted, Blk.modLink]
    exact h.rest
  calc
    _ = ({ { (b.noticeTaken n u).link k with notices := (b.link k).notices } with
        e := (b0.link k).e, notices := (b0.link k).notices } : Link) := rfl
    _ = { b.link k with e := (b0.link k).e, notices := (b0.link k).notices } := by rw [b.link_noticeTaken n u k]
    _ = b0.link k := h.link k

end

/-- No notice is held when the flit's record goes its way. -/
theorem Blk.OnlyEnds.notices (h : b0.OnlyEnds b) (k : Nat) : (b.link k).notices = (b0.link k).notices := by
  have := congrArg Link.notices (h.link k); exact this

end

/-! ### A notice at its entry -/

section
variable {b : Blk} {n h : Nat} {t : Stt} {m : List Host.Cell}

/-- The update that a notice of a handle asks for. -/
def Blk.noticeUpd (b : Blk) (n h : Nat) (k : NoticeKind) (c : Nat) : Upd :=
  let x := (b.link n).handle h
  { stt := x.stt, mapgen := x.mapgen, kind := .notice k n h c x.gen }

/-- The block at the moment that a notice takes effect. -/
def Blk.atNotice (b : Blk) (n h : Nat) (k : NoticeKind) (c : Nat) (t : Stt) : Blk :=
  (b.noticeTaken n (b.noticeUpd n h k c)).granted (t.slot % 16) 7

/-- A notice of a handle that is bound to a resident source takes effect at its entry. -/
theorem Blk.notice_eq (hn : n < 16) (hres : b.Resident ((b.link n).handle h).stt t)
    (hmap : ((b.link n).handle h).mapgen = t.mapgen) (hnone : ∀ k, (b.link k).notices = [])
    (hunspilled : ∀ v ∈ b.rings.spillq ++ b.rings.spillw, v.names n h = false) (k : NoticeKind) (c : Nat) {b' : Blk} {e' : Entry}
    (hdue : (b.atNotice n h k c t).noticeDue ((b.link n).handle h).stt t (b.entry t) k n h c ((b.link n).handle h).gen =
      (b', e')) :
    b.notice m n h k c = (b'.settled ((b.link n).handle h).stt t e').served7 (t.slot % 16) n := by
  have hbank : b.noticeBank (b.noticeUpd n h k c) = t.slot % 16 := by
    show (b.stt ((b.link n).handle h).stt).slot % 16 = _
    rw [hres.stt]
  have htaken : (b.noticeTaken n (b.noticeUpd n h k c)).Resident ((b.link n).handle h).stt t := hres.congr rfl rfl rfl rfl
  rw [← hbank]
  refine Blk.sendNotice_eq hn hnone hunspilled (hres.not_spilled rfl) ?_
  have hbody : (b.atNotice n h k c t).updBody m (t.slot % 16) (b.noticeUpd n h k c) t (b.entry t) = some (b', e') :=
    congrArg some hdue
  refine (htaken.update_eq rfl hmap m 7).trans ?_
  show Option.map _ ((b.atNotice n h k c t).updBody m (t.slot % 16) (b.noticeUpd n h k c) t (b.entry t)) = _
  rw [hbody]
  exact congrArg (fun e => some (b'.settled _ t e)) (Blk.stamped_of_not_writesGen rfl)

end

/-- The block with a handle or proxy changed, and what the probes make of it. -/
def Blk.rebound (b : Blk) (n h : Nat) (f : Handle → Handle) (d : Dbg) : Blk := { b.modNamed n h f with dbg := d }

theorem Blk.named_eq {b : Blk} {n : Nat} (hn : n < 16) (h : Nat) : b.named n h = (b.link n).handle h := if_pos hn

theorem Blk.modNamed_eq {b : Blk} {n : Nat} (hn : n < 16) (h : Nat) (f : Handle → Handle) :
    b.modNamed n h f = b.modLink n (fun l => l.modHandle h f) := if_pos hn

theorem Blk.handle_rebound {n : Nat} (hn : n < 16) (b : Blk) (h : Nat) (f : Handle → Handle) (d : Dbg) (k : Nat) :
    ((b.rebound n h f d).link n).handle k = if k = h then f ((b.link n).handle h) else (b.link n).handle k := by
  have hlink : (b.rebound n h f d).link n = (b.link n).modHandle h f := by
    rw [Blk.rebound, Blk.modNamed_eq hn]
    exact b.link_modLink_self n (fun l => l.modHandle h f)
  rw [hlink, Link.handle_modHandle]

/-- A handle that changes leaves all but links and peers. -/
theorem Blk.rebound_eq (b : Blk) (n h : Nat) (f : Handle → Handle) (d : Dbg) : ∃ links peers, b.rebound n h f d =
    { b with links := links, fed := { b.fed with peers := peers }, dbg := d } := by
  unfold Blk.rebound Blk.modNamed
  split
  · exact ⟨_, b.fed.peers, rfl⟩
  · exact ⟨b.links, _, rfl⟩

theorem Blk.dom_rebound (b : Blk) (n h : Nat) (f : Handle → Handle) (d : Dbg) (k : Nat) : (b.rebound n h f d).dom k = b.dom k := by
  obtain ⟨links, peers, heq⟩ := b.rebound_eq n h f d
  rw [heq]; rfl

theorem Blk.rank_rebound (b : Blk) (n h : Nat) (f : Handle → Handle) (d : Dbg) : (b.rebound n h f d).rank = b.rank := by
  obtain ⟨links, peers, heq⟩ := b.rebound_eq n h f d
  rw [heq]

theorem Blk.modNamed_probe (b : Blk) (ev i dom : Nat) (cls : BitVec 2) (n h : Nat) (f : Handle → Handle) :
    (b.probe ev i dom cls).modNamed n h f = b.rebound n h f (b.probe ev i dom cls).dbg := by
  rw [Blk.probe_eq]
  unfold Blk.rebound Blk.modNamed
  split <;> rfl

@[simp] theorem Blk.link_served7 (b : Blk) (bank n k : Nat) : (b.served7 bank n).link k = b.link k := rfl

theorem Blk.settlesAt_served7 {b0 b : Blk} {bank n i : Nat} {t : Stt} {e : Entry} :
    b0.SettlesAt (b.served7 bank n) i t e ↔ b0.SettlesAt b i t e := Iff.rfl

section
variable {b : Blk} {n h c : Nat} {t : Stt} {e : Entry} {x : Handle} {gen : BitVec 8} (hsound : b.lostHandle n h = false)
  (hx : b.named n h = x) (hmap : x.mapgen = t.mapgen) (hgen : gen = (b.dom t.domid).gen)
include hsound

theorem Blk.handleAfter_eq (claim : Bool) : b.handleAfter claim n h c =
    b.modNamed n h (fun y => if claim then y.claimedAt c else {}) := by
  simp only [Blk.handleAfter, hsound, Bool.false_eq_true, if_false]

include hx hmap hgen

/-- RELEASED of an exclusive copy (06 Table 6-3). -/
theorem Blk.noticeDue_released (hst : x.st = .standing) (hshr : x.shr = false) :
    ∃ d, b.noticeDue x.stt t e .released n h c gen = (b.rebound n h (fun _ => {}) d, copiesGone e) := by
  have hfits : NoticeKind.released.fits x x.stt t.mapgen = true := by
    simp [NoticeKind.fits, hmap, hst]
  simp only [Blk.noticeDue, hsound, hgen, hx, hfits, Blk.gaveUp, hshr, Blk.handleAfter_eq hsound,
    reduceCtorEq, Bool.not_true, Bool.false_eq_true, if_false, if_true, decide_true, Bool.and_self]
  exact ⟨_, congrArg (·, copiesGone e) (Blk.probe_eq ..)⟩

/-- CLAIMED of an exclusive copy. -/
theorem Blk.noticeDue_claimed (hst : x.st = .standing) (hshr : x.shr = false) :
    ∃ d, b.noticeDue x.stt t e .claimed n h c gen =
      (b.rebound n h (fun y => y.claimedAt c) d, claimEntry (t.kind = .level) b.stampNow e) := by
  have hfits : NoticeKind.claimed.fits x x.stt t.mapgen = true := by
    simp [NoticeKind.fits, hmap, hst]
  have hwins : b.wins x t e = false := by simp [Blk.wins, hshr]
  have hprobe : (b.probe 9 x.stt t.domid e.rclass).lostHandle n h = false := by
    rw [Blk.probe_eq]; exact hsound
  simp only [Blk.noticeDue, hsound, hgen, hx, hfits, Blk.claimedDue, hwins, Blk.handleAfter_eq hprobe,
    reduceCtorEq, Bool.not_true, Bool.false_eq_true, if_false, if_true, decide_true]
  exact ⟨_, congrArg (·, claimEntry (decide (t.kind = .level)) b.stampNow e) (Blk.modNamed_probe ..)⟩

/-- COMPLETE of a claimed INTID. -/
theorem Blk.noticeDue_complete (hst : x.st = .active) :
    ∃ d, b.noticeDue x.stt t e .complete n h c gen = (b.rebound n h (fun _ => {}) d, completeEntry (t.kind = .level) e) := by
  have hfits : NoticeKind.complete.fits x x.stt t.mapgen = true := by
    simp [NoticeKind.fits, hmap, hst]
  simp only [Blk.noticeDue, hsound, hgen, hx, hfits, Blk.handleAfter_eq hsound,
    reduceCtorEq, Bool.not_true, Bool.false_eq_true, if_false, if_true, decide_true, Bool.and_self]
  exact ⟨_, congrArg (·, completeEntry (decide (t.kind = .level)) e) (Blk.probe_eq ..)⟩

end

/-! ### The rows -/

section
variable {b0 b b' : Blk} {n h c : Nat} {t : Stt} {st : HState} {e' : Entry} (hn : n < 16) (hends : b0.OnlyEnds b)

/-- A notice of a handle in some state, which is judged at the entry: the handle becomes what the notice makes of it, and the
entry is settled. -/
structure Blk.NoticeLeaves (b0 b : Blk) (n h : Nat) (t : Stt) (x : Handle) (e : Entry) : Prop where
  handle : (b.link n).handle h = x
  others : ∀ k, k ≠ h → (b.link n).handle k = (b0.link n).handle k
  settles : b0.SettlesAt b ((b0.link n).handle h).stt t e

include hends

/-- The block at the moment of the notice, as the statement names it. -/
theorem Blk.OnlyEnds.atNotice (k : NoticeKind) : b0.Brings (b.atNotice n h k c t) :=
  hends.brings.noticeTaken n _ _ _

variable (hN : b0.Names n h st t)
include hn hN

/-- A notice whose effect on the block is that on its handle. -/
theorem Blk.Names.notice_leaves {k : NoticeKind} {f : Handle → Handle} {d : Dbg}
    (hdue : (b.atNotice n h k c t).noticeDue ((b0.link n).handle h).stt t (b0.entry t) k n h c ((b0.link n).handle h).gen =
      ((b.atNotice n h k c t).rebound n h f d, e')) (m : List Host.Cell) :
    b0.NoticeLeaves (b.notice m n h k c) n h t (f ((b0.link n).handle h)) e' := by
  have hx : (b.link n).handle h = (b0.link n).handle h := hends.brings.handle n h
  have hres : b.Resident ((b.link n).handle h).stt t := by rw [hx]; exact hends.brings.resident hN.source.resident
  have hbr : b0.Brings (b.atNotice n h k c t) := hends.atNotice k
  have heq := Blk.notice_eq (m := m) (b' := (b.atNotice n h k c t).rebound n h f d) hn hres (by rw [hx]; exact hN.current.1)
    (fun k => (hends.notices k).trans (Blk.notices_of_not_held hN.source.noNotice k))
    (by rw [hends.brings.rings]; exact hN.unspilled) k c (by rw [hx, hends.brings.entry]; exact hdue)
  rw [hx] at heq
  rw [heq]
  have hacts : (((b.atNotice n h k c t).rebound n h f d).dom t.domid).still = false := by
    rw [Blk.dom_rebound, hbr.dom, hN.source.acts]
  have hoffers : ((b.atNotice n h k c t).rebound n h f d).rank.offers = b0.rank.offers := by
    rw [Blk.rank_rebound, hbr.rank]
  have hset := Blk.settlesAt_settled hN.source.resident.valid hacts hoffers ((b0.link n).handle h).stt e'
  refine ⟨?_, fun j hj => ?_, Blk.settlesAt_served7.2 hset⟩
  · rw [Blk.link_served7, Blk.link_settled, Blk.handle_rebound hn, if_pos rfl, hbr.handle]
  · rw [Blk.link_served7, Blk.link_settled, Blk.handle_rebound hn, if_neg hj, hbr.handle]

omit hn in
/-- The handle, its soundness and its generation, as the notice finds them. -/
theorem Blk.Names.atNotice (k : NoticeKind) : ((b.atNotice n h k c t).link n).handle h = (b0.link n).handle h ∧
    (b.atNotice n h k c t).lostHandle n h = false ∧
    ((b0.link n).handle h).gen = ((b.atNotice n h k c t).dom t.domid).gen := by
  have hbr : b0.Brings (b.atNotice n h k c t) := hends.atNotice k
  exact ⟨hbr.handle n h, (hbr.lostHandle n h).trans hN.sound, by rw [hbr.dom]; exact hN.current.2⟩

omit hN
variable (m : List Host.Cell)

/-- RELEASED frees the handle, and the copies are gone. -/
theorem Blk.Names.released (hN : b0.Names n h .standing t) :
    b0.NoticeLeaves (b.notice m n h .released c) n h t {} (copiesGone (b0.entry t)) := by
  obtain ⟨hx, hsound, hgen⟩ := hN.atNotice hends (c := c) .released
  obtain ⟨hst, hshr, -⟩ := hN.handle
  obtain ⟨d, hdue⟩ := Blk.noticeDue_released hsound ((Blk.named_eq hn h).trans hx) hN.current.1 hgen hst hshr
  exact hN.notice_leaves hn hends hdue m

/-- CLAIMED makes the handle ACTIVE at its context, and the interrupt is claimed. -/
theorem Blk.Names.claimed (hN : b0.Names n h .standing t) : b0.NoticeLeaves (b.notice m n h .claimed c) n h t
    (((b0.link n).handle h).claimedAt c) (claimEntry (t.kind = .level) b0.stampNow (b0.entry t)) := by
  obtain ⟨hx, hsound, hgen⟩ := hN.atNotice hends (c := c) .claimed
  obtain ⟨hst, hshr, -⟩ := hN.handle
  obtain ⟨d, hdue⟩ := Blk.noticeDue_claimed hsound ((Blk.named_eq hn h).trans hx) hN.current.1 hgen hst hshr
  rw [(hends.atNotice .claimed).stampNow] at hdue
  exact hN.notice_leaves hn hends hdue m

/-- COMPLETE frees the handle, and the interrupt is completed. -/
theorem Blk.Names.completed (hN : b0.Names n h .active t) :
    b0.NoticeLeaves (b.notice m n h .complete c) n h t {} (completeEntry (t.kind = .level) (b0.entry t)) := by
  obtain ⟨hx, hsound, hgen⟩ := hN.atNotice hends (c := c) .complete
  obtain ⟨d, hdue⟩ := Blk.noticeDue_complete hsound ((Blk.named_eq hn h).trans hx) hN.current.1 hgen hN.handle.1
  exact hN.notice_leaves hn hends hdue m

end

theorem recLegal_released (h : Nat) : recLegal true (recHC 3 h 0) = true := by
  have hlow : bits (recHC 3 h 0).toNat 9 0 = 0 := by
    rw [recHC, bits_rec24 (by decide) _ (by decide) (by decide), bits_eq_mod_div _ (by decide)]
    omega
  simp only [recLegal, recType_recHC (by decide : 3 < 16), hlow, beq_self_eq_true]

theorem recLegal_claimed (h c : Nat) : recLegal true (recHC 4 h c) = true := by
  simp [recLegal, recType_recHC, bits_recHC_low]

theorem recLegal_complete (h c : Nat) : recLegal true (recHC 7 h c) = true := by
  simp [recLegal, recType_recHC, bits_recHC_low]

section
variable {s : State} {n h c : Nat} {t : Stt} {rest : List Flit} {st : HState} (hh : h < 1024)
include hh

/-- A record about a bound handle is passed on. -/
theorem Blk.boundRec_recHC {b : Blk} {k : Nat} (hk : k < 16) (hb : ((b.link n).handle h).st ≠ .free) (f : Blk → Nat → Blk) :
    b.boundRec n (recHC k h c) f = f b h := by
  rw [Blk.boundRec, recHandle_recHC hk hh, if_neg hb]

variable (hN : s.blk.Names n h st t)
include hN

theorem exec_released (hto : s.blk.ToHub n (recHC 3 h 0) rest) (hst : st ≠ .free) : ∃ b, s.blk.OnlyEnds b ∧
    exec (.released n 0) s = s.becomes (b.notice s.mem n h .released ((b.link n).handle h).ctx) := by
  obtain ⟨b, hends, hup⟩ := hto.upRec_eq (by rw [recType_recHC (by decide)]; decide) (recLegal_released h)
    (recType_recHC (by decide) h 0)
  obtain ⟨hhst, -, hprox⟩ := hN.handle
  rw [← hends.brings.handle n h] at hhst hprox
  refine ⟨b, hends, congrArg s.becomes ((hto.toLinkRuns.linkRow_eq s.mem _).trans ((hup _).trans ?_))⟩
  rw [Blk.boundRec_recHC hh (by decide) (by rw [hhst]; exact hst), Blk.releaseHandle, hends.brings.lostHandle, hN.sound, hprox]
  rfl

theorem exec_claimed (hto : s.blk.ToHub n (recHC 4 h c) rest) (hc : c < 64) (hst : st ≠ .free) : ∃ b, s.blk.OnlyEnds b ∧
    exec (.claimed n 0) s = s.becomes (b.notice s.mem n h .claimed c) := by
  obtain ⟨b, hends, hup⟩ := hto.upRec_eq (by rw [recType_recHC (by decide)]; decide) (recLegal_claimed h c)
    (recType_recHC (by decide) h c)
  obtain ⟨hhst, -, hprox⟩ := hN.handle
  rw [← hends.brings.handle n h] at hhst hprox
  refine ⟨b, hends, congrArg s.becomes ((hto.toLinkRuns.linkRow_eq s.mem _).trans ((hup _).trans ?_))⟩
  rw [Blk.boundRec_recHC hh (by decide) (by rw [hhst]; exact hst), Blk.claimHandle, hends.brings.lostHandle, hN.sound, hprox,
    recCtx_recHC (by decide) h hc]
  rfl

theorem exec_completeNotice (hto : s.blk.ToHub n (recHC 7 h c) rest) (hst : st ≠ .free) : ∃ b, s.blk.OnlyEnds b ∧
    exec (.completeNotice n 0) s = s.becomes (b.notice s.mem n h .complete ((b.link n).handle h).ctx) := by
  obtain ⟨b, hends, hup⟩ := hto.upRec_eq (by rw [recType_recHC (by decide)]; decide) (recLegal_complete h c)
    (recType_recHC (by decide) h c)
  obtain ⟨hhst, -, hprox⟩ := hN.handle
  rw [← hends.brings.handle n h] at hhst hprox
  refine ⟨b, hends, congrArg s.becomes ((hto.toLinkRuns.linkRow_eq s.mem _).trans ((hup _).trans ?_))⟩
  rw [Blk.boundRec_recHC hh (by decide) (by rw [hhst]; exact hst), Blk.completeHandle, hends.brings.lostHandle, hN.sound, hprox]
  rfl

end

/-- Settles O17: each record arrives, its notice is the only one at its bank, and takes the effect that `noticeDue` gives it. -/
theorem exclusiveNotices : Obligations.ExclusiveNotices := by
  unfold Obligations.ExclusiveNotices
  intro s n h c t rest hh hc _ b0 l e i level leaves
  have hleaves : ∀ row h' e' b, exec row s = s.becomes b → b0.NoticeLeaves b n h t h' e' → leaves row h' e' :=
    fun row h' e' b hexec hb => ⟨b, hexec, hb.handle, hb.others, hb.settles⟩
  refine ⟨fun hto hN => ?_, fun hto hN p hp => ?_, fun hto hN => ?_⟩
  case refine_1 =>
    obtain ⟨b, hends, hexec⟩ := exec_released hh hN hto (by decide)
    exact hleaves _ _ _ _ hexec (hN.released hto.link hends s.mem)
  case refine_2 =>
    obtain ⟨b, hends, hexec⟩ := exec_claimed hh hN hto hc (by decide)
    have hp' : (if decide (t.kind = .level) = true then e.lvl else e.rpt) = p := by rw [hp]; simp [level]
    have hb := hN.claimed hto.link hends (c := c) s.mem
    rw [Handle.claimedAt, claimEntry, hp', ← hN.unanswered] at hb
    exact hleaves _ _ _ _ hexec hb
  case refine_3 =>
    obtain ⟨b, hends, hexec⟩ := exec_completeNotice hh hN hto (by decide)
    have hb := hN.completed hto.link hends (c := ((b.link n).handle h).ctx) s.mem
    have hlev : (if decide (t.kind = .level) = true then e.lvl else e.pend) = if level then e.lvl else e.pend := by
      simp [level]
    rw [completeEntry, hlev] at hb
    exact hleaves _ _ _ _ hexec hb

end Sys2Proof.Machine

/-! The answers to a claim request at the tile (03 R120, R121; 06 R238, R240). -/
namespace Sys2Proof.Machine
open Sys2Proof

/-! ### Entries of tables -/

section
variable {α : Type} {t : Tab α} {n : Nat} {x : Nat × α}

theorem tabDel_sublist (t : Tab α) (n : Nat) : (tabDel t n).Sublist t := by
  induction t with
  | nil => exact .slnil
  | cons y t ih =>
    unfold tabDel
    split
    · exact ih.cons _
    · exact ih.cons_cons _

theorem key_ne_of_mem_tabDel (h : x ∈ tabDel t n) : x.1 ≠ n := by
  induction t with
  | nil => exact absurd h List.not_mem_nil
  | cons y t ih =>
    unfold tabDel at h
    split at h
    · exact ih h
    case isFalse hy =>
      rcases List.mem_cons.1 h with rfl | ht
      · exact hy
      · exact ih ht

/-- After a write an entry of the table is the one written, or an old one of another key. -/
theorem mem_or_of_mem_tabPut {v : α} (h : x ∈ tabPut t n v) : x = (n, v) ∨ (x ∈ t ∧ x.1 ≠ n) := by
  have hdel : ∀ {s : Tab α}, x ∈ tabDel s n → x ∈ s ∧ x.1 ≠ n := fun h =>
    ⟨(tabDel_sublist _ n).subset h, key_ne_of_mem_tabDel h⟩
  induction t with
  | nil => exact .inl (List.mem_singleton.1 h)
  | cons y t ih =>
    unfold tabPut at h
    split at h
    case isTrue hlt =>
      rcases List.mem_cons.1 h with rfl | h
      · exact .inl rfl
      · rcases List.mem_cons.1 h with rfl | ht
        · exact .inr ⟨List.mem_cons_self, Nat.ne_of_gt hlt⟩
        · exact .inr ⟨List.mem_cons_of_mem _ (hdel ht).1, (hdel ht).2⟩
    case isFalse =>
      split at h
      case isTrue =>
        rcases List.mem_cons.1 h with rfl | ht
        · exact .inl rfl
        · exact .inr ⟨List.mem_cons_of_mem _ (hdel ht).1, (hdel ht).2⟩
      case isFalse hne =>
        rcases List.mem_cons.1 h with rfl | ht
        · exact .inr ⟨List.mem_cons_self, hne⟩
        · exact (ih ht).imp_right fun h => ⟨List.mem_cons_of_mem _ h.1, h.2⟩

theorem mem_or_of_mem_tabMod [DecidableEq α] {d : α} {f : α → α} (h : x ∈ tabMod d t n f) :
    x = (n, f (tabGet d t n)) ∨ (x ∈ t ∧ x.1 ≠ n) := by
  unfold tabMod tabSet at h
  split at h
  · exact .inr ⟨(tabDel_sublist _ n).subset h, key_ne_of_mem_tabDel h⟩
  · exact mem_or_of_mem_tabPut h

/-- An entry that is not the default stands in the table. -/
theorem mem_of_tabGet_ne {d : α} (h : tabGet d t n ≠ d) : (n, tabGet d t n) ∈ t := by
  induction t with
  | nil => exact absurd rfl h
  | cons y t ih =>
    unfold tabGet at h ⊢
    split
    case isTrue hk => exact hk ▸ List.mem_cons_self
    case isFalse hk =>
      rw [if_neg hk] at h
      exact List.mem_cons_of_mem _ (ih h)

end

/-! ### Reads that are held -/

/-- A read is held on this handle. -/
def Ctx.holds (x : Ctx) (h : Nat) : Bool :=
  match x.held with
  | some k => k.handle == h
  | none => false

section
variable {a : Agent} {c h : Nat} {f : Ctx → Ctx}

theorem Agent.mem_heldOn {j : Nat} : j ∈ a.heldOn h ↔ ∃ x, (j, x) ∈ a.ctxs ∧ x.holds h = true := by
  have hon : a.heldOn h = (a.ctxs.filter (fun x => x.2.holds h)).map (·.1) := rfl
  simp [hon]

/-- Once the read of the only context that holds one on a handle has ended, none is held on it. -/
theorem Agent.heldOn_modCtx (hall : ∀ j ∈ a.heldOn h, j = c) (hf : (f (a.ctx c)).held = none) :
    (a.modCtx c f).heldOn h = [] := by
  refine List.eq_nil_iff_forall_not_mem.2 fun j hj => ?_
  obtain ⟨x, hx, hh⟩ := Agent.mem_heldOn.1 hj
  rcases mem_or_of_mem_tabMod hx with heq | ⟨hmem, hne⟩
  · obtain ⟨-, rfl⟩ := Prod.mk.inj heq
    have hholds : (f (a.ctx c)).holds h = false := by rw [Ctx.holds, hf]
    exact absurd (hholds.symm.trans hh) Bool.false_ne_true
  · exact hne (hall j (Agent.mem_heldOn.2 ⟨x, hmem, hh⟩))

/-- A context without the copies of a handle in its list. -/
def Ctx.drop (x : Ctx) (h : Nat) : Ctx := { x with ready := without h x.ready }

theorem Agent.ctx_dropCopies (a : Agent) (h d : Nat) : (a.dropCopies h).ctx d = (a.ctx d).drop h :=
  tabGet_tabMap ({} : Ctx) (fun _ x => Ctx.drop x h) a.ctxs d rfl

/-- Copies that leave their lists end no read. -/
theorem Agent.heldOn_dropCopies_sublist (a : Agent) (h : Nat) : ((a.dropCopies h).heldOn h).Sublist (a.heldOn h) := by
  show (((tabMap {} (fun _ x => Ctx.drop x h) a.ctxs).filter (fun x => x.2.holds h)).map (·.1)).Sublist
    ((a.ctxs.filter (fun x => x.2.holds h)).map (·.1))
  induction a.ctxs with
  | nil => exact .slnil
  | cons x t ih =>
    have hx : (x.2.drop h).holds h = x.2.holds h := rfl
    unfold tabMap
    split
    · refine .trans ((((tabDel_sublist _ x.1).filter _).map _).trans ih) ?_
      exact ((List.sublist_cons_self x t).filter _).map _
    · rw [List.filter_cons, List.filter_cons, hx]
      split
      · exact ih.cons_cons _
      · exact ih

/-- The one held read stays held while copies leave. -/
theorem Agent.heldOn_dropCopies {k : Copy} (hheld : (a.ctx c).held = some k) (hk : k.handle = h) (hon : a.heldOn h = [c]) :
    (a.dropCopies h).heldOn h = [c] := by
  have hsub := a.heldOn_dropCopies_sublist h
  rw [hon] at hsub
  have hheld' : ((a.dropCopies h).ctx c).held = some k := by rw [Agent.ctx_dropCopies]; exact hheld
  have hmem : c ∈ (a.dropCopies h).heldOn h := by
    refine Agent.mem_heldOn.2 ⟨(a.dropCopies h).ctx c, mem_of_tabGet_ne fun hd => ?_, by simp [Ctx.holds, hheld', hk]⟩
    rw [Agent.ctx, hd] at hheld'
    exact absurd hheld' (by simp)
  exact (List.sublist_singleton.1 hsub).resolve_left (List.ne_nil_of_mem hmem)

/-! ### Accesses that wait -/

theorem Agent.serveAll_of_quiet (h : a.Quiet) : a.serveAll = a := by
  refine foldl_eq_self fun x hx => ?_
  rw [h x hx]
  rfl

theorem Agent.Quiet.dropCopies (hq : a.Quiet) (h : Nat) : (a.dropCopies h).Quiet :=
  forall_mem_tabMap (P := fun x : Ctx => x.waiting = []) hq fun _ _ hx => hx

theorem Agent.Quiet.modCtx (hq : a.Quiet) (hf : ∀ x : Ctx, (f x).waiting = x.waiting) (c : Nat) : (a.modCtx c f).Quiet :=
  forall_mem_tabMod (P := fun x : Ctx => x.waiting = []) hq rfl (fun x hx => (hf x).trans hx) c

theorem Agent.Quiet.statIf (hq : a.Quiet) (c t : Nat) : (a.statIf c t).Quiet := by
  unfold Agent.statIf
  split <;> exact hq

theorem Agent.Quiet.takeCopy (hq : a.Quiet) (c : Nat) (k : Copy) : (a.takeCopy c k).Quiet := by
  refine Agent.Quiet.statIf (Agent.Quiet.modCtx hq ?_ c) c _
  exact fun _ => rfl

theorem Agent.Quiet.send (hq : a.Quiet) (r : Word24) : (a.send r).Quiet := hq

theorem Agent.Quiet.taken (hq : a.Quiet) (c : Nat) (k : Copy) : (a.taken c k).Quiet := by
  unfold Agent.taken
  refine Agent.Quiet.modCtx (Agent.Quiet.send (Agent.Quiet.modCtx hq ?_ c) _) ?_ c <;> exact fun _ => rfl

theorem Agent.heldOn_statIf (c t : Nat) : (a.statIf c t).heldOn h = a.heldOn h := by
  unfold Agent.statIf
  split <;> rfl

/-- What a changed threshold adds to the records is its context-status notice. -/
theorem Agent.mem_or_of_mem_upq_statIf {t : Nat} {r : Word24} (hr : r ∈ (a.statIf c t).upq) :
    r ∈ a.upq ∨ r = rec24 12 (c * 2 ^ 14 + (a.ctx c).threshold) := by
  unfold Agent.statIf at hr
  split at hr
  · exact .inl hr
  · rcases List.mem_append.1 hr with hr | hr
    · exact .inl (List.mem_of_mem_filter hr)
    · exact .inr (List.mem_singleton.1 hr)

/-! ### WON and LOST -/

variable {k : Copy} (hheld : (a.ctx c).held = some k) (hk : k.handle = h) (hon : a.heldOn h = [c]) (hq : a.Quiet)

/-- The Tile Agent once it took the copy of a held read that is won. -/
def Agent.wonCopy (a : Agent) (h c : Nat) (k : Copy) : Agent :=
  ((a.dropCopies h).modCtx c (fun x => { x with held := none })).takeCopy c k

include hheld hk hon hq

/-- WON completes the held read, and no other is held on the handle. -/
theorem Agent.onWon_eq : a.onWon h c = a.wonCopy h c k := by
  have hdrop : ∀ j ∈ (a.dropCopies h).heldOn h, j = c := by
    rw [Agent.heldOn_dropCopies hheld hk hon]; exact fun j hj => List.mem_singleton.1 hj
  have hnone : ((a.dropCopies h).modCtx c (fun x => { x with held := none })).heldOn h = [] := Agent.heldOn_modCtx hdrop rfl
  have hwon : (a.wonCopy h c k).heldOn h = [] := by
    rw [Agent.wonCopy, Agent.takeCopy, Agent.heldOn_statIf]
    refine Agent.heldOn_modCtx (by rw [hnone]; exact fun j hj => absurd hj List.not_mem_nil) ?_
    rw [Agent.ctx_modCtx_self]
  have hquiet : (a.wonCopy h c k).Quiet := by
    refine Agent.Quiet.takeCopy (Agent.Quiet.modCtx (hq.dropCopies h) ?_ c) c k
    exact fun _ => rfl
  simp only [Agent.onWon, hheld, hk, ne_eq, not_true_eq_false, if_false]
  show (((a.wonCopy h c k).heldOn h).foldl (fun a d => a.lostRead d) (a.wonCopy h c k)).serveAll = _
  rw [hwon, List.foldl_nil, Agent.serveAll_of_quiet hquiet]

omit hheld hk hon hq in
theorem Agent.ctx_wonCopy_self : (a.wonCopy h c k).ctx c = { (a.ctx c).drop h with
    held := none, stack := k :: (a.ctx c).stack, resp := k.intid.setWidth 32 :: (a.ctx c).resp } := by
  rw [Agent.wonCopy, Agent.takeCopy, Agent.ctx_statIf, Agent.ctx_modCtx_self, Agent.ctx_modCtx_self, Agent.ctx_dropCopies]
  rfl

omit hheld hk hon hq in
theorem Agent.ctx_wonCopy_ne {d : Nat} (hd : d ≠ c) : (a.wonCopy h c k).ctx d = (a.ctx d).drop h := by
  rw [Agent.wonCopy, Agent.takeCopy, Agent.ctx_statIf, Agent.ctx_modCtx, if_neg hd, Agent.ctx_modCtx, if_neg hd,
    Agent.ctx_dropCopies]

omit hheld hk hon hq in
theorem Agent.mem_upq_wonCopy {r : Word24} (hr : r ∈ (a.wonCopy h c k).upq) :
    r ∈ a.upq ∨ r = rec24 12 (c * 2 ^ 14 + ((a.wonCopy h c k).ctx c).threshold) := by
  have hor := Agent.mem_or_of_mem_upq_statIf hr
  rw [Agent.wonCopy, Agent.takeCopy, Agent.ctx_statIf]
  exact hor

/-- The context of a held read that is lost, before the read is answered. -/
def Ctx.bereft (x : Ctx) (h : Nat) : Ctx := { x.drop h with held := none }

/-- The Tile Agent once it removed the copies of a handle whose held read is lost. -/
def Agent.bereft (a : Agent) (h c : Nat) : Agent := (a.dropCopies h).modCtx c (fun x => { x with held := none })

omit hheld hk hon hq in
theorem Agent.ctx_bereft (a : Agent) (h c : Nat) : (a.bereft h c).ctx c = (a.ctx c).bereft h := by
  rw [Agent.bereft, Agent.ctx_modCtx_self, Agent.ctx_dropCopies]
  rfl

omit hq in
/-- LOST ends the one held read. -/
theorem Agent.onLost_eq : a.onLost h = ((a.dropCopies h).lostRead c).serveAll := by
  simp only [Agent.onLost, Agent.heldOn_dropCopies hheld hk hon, List.foldl_cons, List.foldl_nil]

omit hheld hk hon in
theorem Agent.quiet_bereft : (a.bereft h c).Quiet := by
  refine Agent.Quiet.modCtx (hq.dropCopies h) ?_ c
  exact fun _ => rfl

/-- Without an exclusive copy that meets the threshold the read is answered with nothing. -/
theorem Agent.onLost_of_shared (hz : ∀ k', ((a.ctx c).bereft h).claimReady = some k' → k'.shared = true) :
    a.onLost h = (a.bereft h c).answer c 0x00FFFFFF := by
  have hread : (a.dropCopies h).lostRead c = (a.bereft h c).answer c 0x00FFFFFF := by
    show (match ((a.bereft h c).ctx c).claimReady with
      | some k => if k.shared then (a.bereft h c).answer c 0x00FFFFFF else (a.bereft h c).claim c
      | none => (a.bereft h c).answer c 0x00FFFFFF) = _
    rw [Agent.ctx_bereft]
    cases hcr : ((a.ctx c).bereft h).claimReady with
    | none => rfl
    | some k' => exact if_pos (hz k' hcr)
  rw [Agent.onLost_eq hheld hk hon, hread]
  refine Agent.serveAll_of_quiet (Agent.Quiet.modCtx (Agent.quiet_bereft hq) ?_ c)
  exact fun _ => rfl

/-- An exclusive copy that meets the threshold is taken instead. -/
theorem Agent.onLost_of_exclusive {k' : Copy} (hz : ((a.ctx c).bereft h).claimReady = some k') (hk' : k'.shared = false) :
    a.onLost h = ((a.bereft h c).taken c k').statIf c ((a.ctx c).bereft h).threshold := by
  have hcr : ((a.bereft h c).ctx c).claimReady = some k' := by rw [Agent.ctx_bereft, hz]
  have hread : (a.dropCopies h).lostRead c = (a.bereft h c).claim c := by
    show (match ((a.bereft h c).ctx c).claimReady with
      | some k => if k.shared then (a.bereft h c).answer c 0x00FFFFFF else (a.bereft h c).claim c
      | none => (a.bereft h c).answer c 0x00FFFFFF) = _
    rw [hcr]
    exact if_neg (by rw [hk']; decide)
  have hquiet : (((a.bereft h c).taken c k').statIf c ((a.ctx c).bereft h).threshold).Quiet :=
    ((Agent.quiet_bereft hq).taken c k').statIf c _
  rw [Agent.onLost_eq hheld hk hon, hread, Agent.claim_exclusive hcr hk', Agent.ctx_bereft]
  exact Agent.serveAll_of_quiet hquiet

end
end Sys2Proof.Machine

/-! Claim requests of shared copies at the Hub (03 R120; 05 R193; 06 R242). -/
namespace Sys2Proof.Machine
open Sys2Proof

/-! ### The tracking entry -/

/-- The first entry that a search finds stays the first when it is written again. -/
theorem find?_tabPut {α : Type} {t : Tab α} {p : Nat × α → Bool} {j : Nat} {v w : α} (h : t.find? p = some (j, w))
    (hv : p (j, v) = true) : (tabPut t j v).find? p = some (j, v) := by
  induction t with
  | nil => exact absurd h (by simp)
  | cons y t ih =>
    rw [List.find?_cons] at h
    unfold tabPut
    split
    · rw [List.find?_cons, hv]
    split
    · rw [List.find?_cons, hv]
    case isFalse hne =>
      cases hy : p y with
      | true => rw [hy] at h; exact absurd (congrArg Prod.fst (Option.some.inj h)) hne
      | false =>
        rw [hy] at h
        rw [List.find?_cons, hy]
        exact ih h

section
variable {b b' : Blk} {n h c j i : Nat} {mg gen : BitVec 8} {tr tr' : Bcast}

@[simp] theorem Blk.link_modBcast (b : Blk) (j k : Nat) (f : Bcast → Bcast) : (b.modBcast j f).link k = b.link k := rfl

theorem Blk.bcast_modBcast_self (b : Blk) (j : Nat) (f : Bcast → Bcast) :
    tabGet {} (b.modBcast j f).rank.bcast j = f (tabGet {} b.rank.bcast j) := tabGet_tabMod_self ..

/-- A tracking entry that is written and tracks on is found again. -/
theorem Blk.trackOf_modBcast {f : Bcast → Bcast} (h : b.trackOf i mg gen = some (j, tr)) (hf : f (tabGet {} b.rank.bcast j) = tr')
    (hkeeps : tr'.stt = tr.stt ∧ tr'.mapgen = tr.mapgen ∧ tr'.gen = tr.gen ∧ tr'.tiles ≠ []) :
    (b.modBcast j f).trackOf i mg gen = some (j, tr') := by
  obtain ⟨hstt, hmap, hgen, htiles⟩ := hkeeps
  have hfound := List.find?_some h
  simp only [Bool.and_eq_true, beq_iff_eq] at hfound
  obtain ⟨⟨⟨h1, h2⟩, h3⟩, -⟩ := hfound
  have hne : tr' ≠ {} := fun he => htiles (by rw [he])
  have hset : (b.modBcast j f).rank.bcast = tabPut b.rank.bcast j tr' := by
    show tabMod {} b.rank.bcast j f = _
    rw [tabMod, hf, tabSet, if_neg hne]
  rw [Blk.trackOf, hset]
  exact find?_tabPut h (by simp [hstt, hmap, hgen, htiles, h1, h2, h3])

/-- The copies of a tile leave a tracking entry that other tiles keep. -/
theorem Blk.tileGone_eq (h : b.trackOf i mg gen = some (j, tr)) (hother : ∃ k ∈ tr.tiles, k ≠ n) :
    b.tileGone i mg gen n = (b.modBcast j (fun x => { x with tiles := setDel tr.tiles n }), false) := by
  obtain ⟨k, hk, hkn⟩ := hother
  have hne : (setDel tr.tiles n).isEmpty = false := by
    rw [List.isEmpty_eq_false_iff]
    exact List.ne_nil_of_mem ((mem_setDel _ _ _).2 ⟨hkn, hk⟩)
  simp only [Blk.tileGone, h, hne, Bool.false_eq_true, if_false]

end

/-! ### Copies asked back -/

@[simp] theorem Link.ctl_modHandle (l : Link) (h : Nat) (f : Handle → Handle) : (l.modHandle h f).ctl = l.ctl := rfl

/-- A link once it asked back the copies of a handle that stands (06 R220). -/
def Link.askBack (l : Link) (h : Nat) : Link :=
  let l1 := { l with outq := l.outq.filter (fun c => c.handle ≠ h) }
  if (l.handle h).wd then l1
  else { l1.modHandle h (fun x => { x with wd := true }) with ctl := l.ctl ++ [recHC 3 h 0] }

theorem Link.st_askBack (l : Link) (h k : Nat) : ((l.askBack h).handle k).st = (l.handle k).st := by
  unfold Link.askBack
  split
  · rfl
  · refine (congrArg Handle.st (l.handle_modHandle h k (fun x => { x with wd := true }))).trans ?_
    split
    case isTrue hk => rw [hk]
    case isFalse => rfl

/-- From `b0` to `b` nothing has changed but one link. -/
structure Blk.OnLink (b0 b : Blk) (n : Nat) (l : Link) : Prop where
  rest : { b with links := b0.links } = b0
  self : b.link n = l
  others : ∀ k, k ≠ n → b.link k = b0.link k

section
variable {b0 b : Blk} {n : Nat}

theorem Blk.OnLink.refl (b : Blk) (n : Nat) : b.OnLink b n (b.link n) := ⟨rfl, rfl, fun _ _ => rfl⟩

theorem Blk.OnLink.modLink {l : Link} (h : b0.OnLink b n l) (f : Link → Link) : b0.OnLink (b.modLink n f) n (f l) := by
  refine ⟨h.rest, ?_, fun k hk => ?_⟩
  · rw [Blk.link_modLink_self, h.self]
  · rw [Blk.link_modLink, if_neg hk, h.others k hk]

theorem Blk.OnLink.trans {b' : Blk} {l l' : Link} (h : b0.OnLink b n l) (h' : b.OnLink b' n l') : b0.OnLink b' n l' := by
  refine ⟨?_, h'.self, fun k hk => (h'.others k hk).trans (h.others k hk)⟩
  have hrest := congrArg (fun x : Blk => { x with links := b0.links }) h'.rest
  exact hrest.trans h.rest

/-- The withdrawal of a handle that stands asks its copies back, and leaves the handle. -/
theorem Blk.withdrawHandle_of_standing {h : Nat} (hst : ((b.link n).handle h).st = .standing) :
    ∃ b', b.withdrawHandle n h = (b', false) ∧ b.OnLink b' n ((b.link n).askBack h) := by
  simp only [Blk.withdrawHandle, hst, Link.askBack]
  split
  · exact ⟨_, rfl, (Blk.OnLink.refl b n).modLink _⟩
  · exact ⟨_, rfl, ((Blk.OnLink.refl b n).modLink _).modLink (fun l => { l with ctl := l.ctl ++ [recHC 3 h 0] })⟩

/-- The withdrawal of handles that stand, in one link. -/
theorem Blk.withdrawLink_of_standing {i : Nat} {mg : BitVec 8}
    (hst : ∀ z ∈ (b.link n).copiesOf i mg, ((b.link n).handle z.1).st = .standing) :
    b.OnLink (b.withdrawLink i mg n).1 n (((b.link n).copiesOf i mg).foldl (fun l z => l.askBack z.1) (b.link n)) := by
  rw [Blk.withdrawLink]
  generalize (b.link n).copiesOf i mg = zs at hst
  generalize false = w
  induction zs generalizing b w with
  | nil => exact Blk.OnLink.refl b n
  | cons z zs ih =>
    obtain ⟨hz, hzs⟩ := List.forall_mem_cons.1 hst
    obtain ⟨b1, hb1, hon⟩ := Blk.withdrawHandle_of_standing hz
    rw [List.foldl_cons, List.foldl_cons]
    simp only [hb1, Bool.false_and, Bool.false_eq_true, if_false]
    rw [← hon.self]
    refine hon.trans (ih (fun y hy => ?_) _)
    rw [hon.self, Link.st_askBack]
    exact hzs y hy

/-- The withdrawal of handles that stand, in links. -/
theorem Blk.withdrawLinks_of_standing {i : Nat} {mg : BitVec 8} {ks : List Nat} (hks : ks.Nodup)
    (hst : ∀ k ∈ ks, ∀ z ∈ (b.link k).copiesOf i mg, ((b.link k).handle z.1).st = .standing) :
    { ks.foldl (fun b k => (b.withdrawLink i mg k).1) b with links := b.links } = b ∧
    (∀ k ∈ ks, (ks.foldl (fun b k => (b.withdrawLink i mg k).1) b).link k =
      ((b.link k).copiesOf i mg).foldl (fun l z => l.askBack z.1) (b.link k)) ∧
    ∀ k, k ∉ ks → (ks.foldl (fun b k => (b.withdrawLink i mg k).1) b).link k = b.link k := by
  induction ks generalizing b with
  | nil => exact ⟨rfl, fun _ hk => absurd hk List.not_mem_nil, fun _ _ => rfl⟩
  | cons k ks ih =>
    obtain ⟨hk, hnodup⟩ := List.nodup_cons.1 hks
    obtain ⟨hstk, hsts⟩ := List.forall_mem_cons.1 hst
    have hon := Blk.withdrawLink_of_standing hstk
    have hne : ∀ j ∈ ks, j ≠ k := fun j hj he => hk (he ▸ hj)
    obtain ⟨hrest, hmem, hnot⟩ := ih hnodup fun j hj => by rw [hon.others j (hne j hj)]; exact hsts j hj
    rw [List.foldl_cons]
    refine ⟨?_, fun j hj => ?_, fun j hj => ?_⟩
    · exact (congrArg (fun x : Blk => { x with links := b.links }) hrest).trans hon.rest
    · rcases List.mem_cons.1 hj with rfl | hj
      · rw [hnot j hk, hon.self]
      · rw [hmem j hj, hon.others j (hne j hj)]
    · rw [hnot j fun h => hj (List.mem_cons_of_mem k h), hon.others j fun h => hj (h ▸ List.mem_cons_self)]

end

/-! ### The decision of a claim request -/

section
variable {b : Blk} {n h c j : Nat} {x : Handle} {tr : Bcast} {t : Stt} {e : Entry} (hn : n < 16)
  (hsound : b.lostHandle n h = false) (hx : (b.link n).handle h = x)
  (htrack : b.trackOf x.stt x.mapgen x.gen = some (j, tr)) (hother : ∃ k ∈ tr.tiles, k ≠ n)

/-- From `b0` to `b` nothing has changed but links and tracking entries. -/
def Blk.OnlyCopies (b0 b : Blk) : Prop := { b with links := b0.links, rank := { b.rank with bcast := b0.rank.bcast } } = b0

omit hn hsound hx htrack hother in
theorem Blk.OnlyCopies.refl (b : Blk) : b.OnlyCopies b := rfl

omit hn hsound hx htrack hother in
theorem Blk.OnlyCopies.modLink {b0 : Blk} (h : b0.OnlyCopies b) (k : Nat) (f : Link → Link) : b0.OnlyCopies (b.modLink k f) := h

omit hn hsound hx htrack hother in
theorem Blk.OnlyCopies.modBcast {b0 : Blk} (h : b0.OnlyCopies b) (k : Nat) (f : Bcast → Bcast) :
    b0.OnlyCopies (b.modBcast k f) := h

omit hn hsound hx htrack hother in
theorem Blk.OnlyCopies.links {b0 b' : Blk} (h : b0.OnlyCopies b) (h' : { b' with links := b.links } = b) : b0.OnlyCopies b' := by
  have hb := congrArg (fun y : Blk => { y with links := b0.links, rank := { y.rank with bcast := b0.rank.bcast } }) h'
  exact hb.trans h

/-- What a claim request that wins makes of the block. -/
structure Blk.WonLeaves (b b' : Blk) (n h c j : Nat) (x : Handle) : Prop where
  rest : b.OnlyCopies b'
  handle : (b'.link n).handle h = { x with ctx := c, ans := some true }
  ctl : (b'.link n).ctl = (b.link n).ctl ++ [recHC 4 h c]
  won : (tabGet {} b'.rank.bcast j).won = true
  others : ∀ k < 16, k ≠ n → b'.link k = ((b.link k).copiesOf x.stt x.mapgen).foldl (fun l z => l.askBack z.1) (b.link k)

/-- What a claim request that loses makes of the block. -/
structure Blk.LostLeaves (b b' : Blk) (n h : Nat) (x : Handle) : Prop where
  rest : b.OnlyCopies b'
  handle : (b'.link n).handle h = { x with ans := some false }
  ctl : (b'.link n).ctl = (b.link n).ctl ++ [recHC 5 h 0]

include hn hx htrack hother

/-- A win: the tracking entry remembers it, the other copies are asked back, and WON is queued. -/
theorem Blk.winClaim_leaves (htab : tabGet {} b.rank.bcast j = tr)
    (hcopies : ∀ k < 16, k ≠ n → ∀ z ∈ (b.link k).copiesOf x.stt x.mapgen, ((b.link k).handle z.1).st = .standing) :
    b.WonLeaves (b.winClaim n h c) n h c j x := by
  let b1 := (b.modBcast j (fun t => { t with won := true })).unqueue n h
  have hlink1 : ∀ k, k ≠ n → b1.link k = b.link k := fun k hk => by
    show ((b.modBcast j (fun t => { t with won := true })).unqueue n h).link k = _
    rw [Blk.unqueue, Blk.link_modLink, if_neg hk, Blk.link_modBcast]
  let ks := (List.range 16).filter (· ≠ n)
  have hmem : ∀ k, k ∈ ks ↔ k < 16 ∧ k ≠ n := fun k => by simp [ks]
  obtain ⟨hrest, hback, hkept⟩ := Blk.withdrawLinks_of_standing (b := b1) (i := x.stt) (mg := x.mapgen) (ks := ks)
    (List.nodup_range.filter _) fun k hk => by
      rw [hlink1 k ((hmem k).1 hk).2]; exact hcopies k ((hmem k).1 hk).1 ((hmem k).1 hk).2
  have hothers : (b.modBcast j (fun t => { t with won := true })).unqueue n h = b1 := rfl
  have hwithdraw : b1.withdrawOthers x.stt x.mapgen n = ks.foldl (fun b k => (b.withdrawLink x.stt x.mapgen k).1) b1 := rfl
  rw [← hwithdraw] at hrest hback hkept
  have hrank2 : (b1.withdrawOthers x.stt x.mapgen n).rank = b1.rank := by have := congrArg Blk.rank hrest; exact this
  have htrack2 : (b1.withdrawOthers x.stt x.mapgen n).trackOf x.stt x.mapgen x.gen = some (j, { tr with won := true }) := by
    rw [Blk.trackOf, hrank2]
    refine Blk.trackOf_modBcast htrack (by rw [htab]) ⟨rfl, rfl, rfl, ?_⟩
    obtain ⟨k, hk, -⟩ := hother
    exact List.ne_nil_of_mem hk
  have htake : b.takeShared n h = (b1.withdrawOthers x.stt x.mapgen n).modBcast j (fun t => { t with tiles := setDel tr.tiles n }) := by
    simp only [Blk.takeShared, Blk.named_eq hn, hx, htrack, hothers, Blk.tileGone_eq htrack2 hother]
  have hwin : b.winClaim n h c = ((b.takeShared n h).ctlRec n (recHC 4 h c)).modLink n
      (fun l => l.modHandle h (fun y => { y with ctx := c, ans := some true })) := by
    rw [Blk.winClaim, Blk.answered, Blk.modNamed_eq hn]
  have hself : (b.takeShared n h).link n = { b.link n with outq := (b.link n).outq.filter (fun d => d.handle ≠ h) } := by
    rw [htake]
    refine (hkept n fun hk => ((hmem n).1 hk).2 rfl).trans ?_
    exact Blk.link_modLink_self _ n _
  rw [hwin]
  refine ⟨?_, ?_, ?_, ?_, fun k hk hkn => ?_⟩
  · have hb1 : b.OnlyCopies b1 := ((Blk.OnlyCopies.refl b).modBcast j _).modLink n _
    rw [htake, Blk.ctlRec]
    exact (((hb1.links hrest).modBcast j _).modLink n _).modLink n _
  · rw [Blk.link_modLink_self, Link.handle_modHandle_self, Blk.ctlRec, Blk.link_modLink_self, hself, ← hx]
    rfl
  · rw [Blk.link_modLink_self, Blk.ctlRec, Blk.link_modLink_self, hself]
    rfl
  · have hbcast := congrArg (fun b : Blk => (tabGet {} b.rank.bcast j).won) htake
    refine Eq.trans hbcast ?_
    rw [Blk.bcast_modBcast_self, hrank2]
    exact congrArg Bcast.won (Blk.bcast_modBcast_self b j _)
  · rw [Blk.link_modLink, if_neg hkn, Blk.ctlRec, Blk.link_modLink, if_neg hkn, htake]
    refine (hback k ((hmem k).2 ⟨hk, hkn⟩)).trans ?_
    rw [hlink1 k hkn]

include hsound in
/-- A loss: LOST is queued, and the tile has given the interrupt up. -/
theorem Blk.loseClaim_leaves (hst : x.st = .standing) (hans : x.ans = none) (hshr : x.shr = true) :
    ∃ b', b.loseClaim n h = (b', false) ∧ b.LostLeaves b' n h x := by
  have hlost : (b.ctlRec n (recHC 5 h 0)).lostHandle n h = false := hsound
  have htrack1 : ((b.ctlRec n (recHC 5 h 0)).unqueue n h).trackOf x.stt x.mapgen x.gen = some (j, tr) := htrack
  simp only [Blk.loseClaim, Blk.named_eq hn, hx, hst, hans, hlost, hshr, Blk.gaveUp, Blk.tileGone_eq htrack1 hother,
    Option.isNone_none, decide_true, Bool.not_false, Bool.and_self, if_true, Blk.answered, Blk.modNamed_eq hn]
  refine ⟨_, rfl, ((((Blk.OnlyCopies.refl b).modLink n _).modLink n _).modBcast j _).modLink n _, ?_, ?_⟩
  · rw [Blk.link_modLink_self, Link.handle_modHandle_self]
    rw [Blk.link_modBcast, Blk.unqueue, Blk.link_modLink_self, Blk.ctlRec, Blk.link_modLink_self, ← hx]
    rfl
  · rw [Blk.link_modLink_self, Link.ctl_modHandle, Blk.link_modBcast, Blk.unqueue, Blk.link_modLink_self, Blk.ctlRec, Blk.link_modLink_self]

end
end Sys2Proof.Machine

/-! Claim requests from the wire to their decision, and the settling of O18. -/
namespace Sys2Proof.Machine
open Sys2Proof

theorem recLegal_claimReq (h c : Nat) : recLegal true (recHC 5 h c) = true := by
  simp [recLegal, recType_recHC, bits_recHC_low]

theorem recLegal_won (h c : Nat) : recLegal false (recHC 4 h c) = true := by
  simp [recLegal, recType_recHC, bits_recHC_low]

theorem recLegal_lost (h : Nat) : recLegal false (recHC 5 h 0) = true := by
  have hlow : bits (recHC 5 h 0).toNat 9 0 = 0 := by
    rw [recHC, bits_rec24 (by decide) _ (by decide) (by decide), bits_eq_mod_div _ (by decide)]
    omega
  simp [recLegal, recType_recHC, hlow]

/-! ### At the Hub -/

section
variable {b0 b b' : Blk} (h : b0.OnlyCopies b)
include h

theorem Blk.OnlyCopies.sram : b.sram = b0.sram := by have := congrArg Blk.sram h; exact this
theorem Blk.OnlyCopies.offers : b.rank.offers = b0.rank.offers := by have := congrArg (·.rank.offers) h; exact this
theorem Blk.OnlyCopies.dom (d : Nat) : b.dom d = b0.dom d := by rw [Blk.dom, Blk.dom, h.sram]

end

section
variable {b0 b : Blk} {n h c j : Nat} {x : Handle} {t : Stt} {tr : Bcast} {m : List Host.Cell}

/-- Handle `h` of link `n` is STANDING and names shared copies of the mapped source `t`, tracked by entry `j`. -/
structure Blk.Shares (b : Blk) (n h : Nat) (t : Stt) (j : Nat) (tr : Bcast) (x : Handle) : Prop extends b.Single n h where
  handle : (b.link n).handle h = x
  st : x.st = .standing
  shr : x.shr = true
  prox : x.prox = none
  source : b.AtSlot x.stt t
  mapgen : x.mapgen = t.mapgen
  gen : x.gen = (b.dom t.domid).gen
  track : b.trackOf x.stt x.mapgen x.gen = some (j, tr)

theorem Blk.Shares.ans (hS : b0.Shares n h t j tr x) : x.ans = none := hS.handle ▸ hS.unanswered

/-- A claim request passes on to the entry. -/
theorem exec_claimReq {s : State} {rest : List Flit} (hS : s.blk.Shares n h t j tr x) (hh : h < 1024) (hc : c < 64)
    (hto : s.blk.ToHub n (recHC 5 h c) rest) :
    ∃ b, s.blk.OnlyEnds b ∧ exec (.claimReq n 0) s = s.becomes (b.notice s.mem n h .claimReq c) := by
  obtain ⟨b, hends, hup⟩ := hto.upRec_eq (by rw [recType_recHC (by decide)]; decide) (recLegal_claimReq h c)
    (recType_recHC (by decide) h c)
  refine ⟨b, hends, congrArg s.becomes ((hto.toLinkRuns.linkRow_eq s.mem _).trans ((hup _).trans ?_))⟩
  have hx : (b.link n).handle h = x := (hends.brings.handle n h).trans hS.handle
  have hsound : b.lostHandle n h = false := (hends.brings.lostHandle n h).trans hS.sound
  simp [recHandle_recHC (by decide : 5 < 16) hh, recCtx_recHC (by decide : 5 < 16) h hc, hx, hS.st, hS.prox, hsound]

variable (hS : b0.Shares n h t j tr x) (hn : n < 16) (hends : b0.OnlyEnds b)
include hS hn hends

/-- A claim request that is decided on a block in which only links and tracking entries then change. -/
theorem Blk.Shares.notice_settles {b1 b2 : Blk} {e' : Entry} (hb1 : b0.Brings b1) (hb2 : b1.OnlyCopies b2)
    (hdue : (b.atNotice n h .claimReq c t).claimReqDue x.stt t (b0.entry t) n h c true = (b2, e')) :
    b.notice m n h .claimReq c = (b2.settled x.stt t e').served7 (t.slot % 16) n ∧ b0.SettlesAt (b2.settled x.stt t e') x.stt t e' := by
  have hx : (b.link n).handle h = x := (hends.brings.handle n h).trans hS.handle
  have hbr : b0.Brings (b.atNotice n h .claimReq c t) := hends.atNotice .claimReq
  have hres : b.Resident x.stt t := hends.brings.resident hS.source.resident
  have hcur : decide (x.gen = ((b.atNotice n h .claimReq c t).dom t.domid).gen) = true := by
    rw [hbr.dom]; exact decide_eq_true hS.gen
  have hnotice : (b.atNotice n h .claimReq c t).noticeDue x.stt t (b0.entry t) .claimReq n h c x.gen = (b2, e') := by
    simp only [Blk.noticeDue, hbr.lostHandle, hS.sound, hcur, Bool.false_eq_true, if_false, if_true, hdue]
  have heq := Blk.notice_eq (m := m) (b' := b2) (e' := e') hn (by rw [hx]; exact hres) (by rw [hx]; exact hS.mapgen)
    (fun k => (hends.notices k).trans (Blk.notices_of_not_held hS.source.noNotice k))
    (by rw [hends.brings.rings]; exact hS.unspilled) .claimReq c (by rw [hx, hends.brings.entry]; exact hnotice)
  rw [hx] at heq
  refine ⟨heq, Blk.settlesAt_settled hS.source.resident.valid ?_ ?_ _ _⟩
  · rw [hb2.dom, hb1.dom, hS.source.acts]
  · rw [hb2.offers, hb1.rank]

end

section
variable {b0 b : Blk} {n h c j : Nat} {x : Handle} {t : Stt} {tr : Bcast} (hbr : b0.Brings b)
include hbr

theorem Blk.Brings.trackOf (i : Nat) (mg gen : BitVec 8) : b.trackOf i mg gen = b0.trackOf i mg gen := by
  rw [Blk.trackOf, Blk.trackOf, hbr.rank]

theorem Blk.Brings.copiesOf (k i : Nat) (mg : BitVec 8) : (b.link k).copiesOf i mg = (b0.link k).copiesOf i mg := by
  rw [Link.copiesOf, Link.copiesOf, Link.handlesOf, Link.handlesOf, hbr.handles]

variable (hS : b0.Shares n h t j tr x) (hn : n < 16)
include hS hn

/-- A claim of an interrupt that is pending, delivered, unclaimed and not yet won wins it. -/
theorem Blk.Shares.wins_iff (e : Entry) :
    b.wins (b.named n h) t e = (e.pend && !e.act && e.dlv && !tr.won) := by
  have hx : b.named n h = x := (Blk.named_eq hn h).trans ((hbr.handle n h).trans hS.handle)
  have hgen : (x.gen == (b.dom t.domid).gen) = true := by rw [hbr.dom]; exact beq_iff_eq.2 hS.gen
  simp only [Blk.wins, hx, hS.st, hS.ans, hS.shr, hgen, hbr.trackOf, hS.track, Option.isNone_none, decide_true, Bool.true_and]

theorem Blk.Shares.claimReqDue_wins {e : Entry} (hpend : e.pend = true) (hact : e.act = false) (hdlv : e.dlv = true)
    (hwon : tr.won = false) (cur : Bool) : b.claimReqDue x.stt t e n h c cur =
      ((b.probe 9 x.stt t.domid e.rclass).winClaim n h c, claimEntry (t.kind = .level) b0.stampNow e) := by
  have hwins : b.wins (b.named n h) t e = true := by rw [hS.wins_iff hbr hn, hpend, hact, hdlv, hwon]; rfl
  rw [Blk.claimReqDue, if_pos hwins, hbr.stampNow]

theorem Blk.Shares.claimReqDue_loses {e : Entry} (hlost : e.act = true ∨ tr.won = true) (hother : ∃ k ∈ tr.tiles, k ≠ n)
    (cur : Bool) : ∃ b', b.claimReqDue x.stt t e n h c cur = (b', e) ∧ b.LostLeaves b' n h x := by
  have hwins : b.wins (b.named n h) t e = false := by
    rw [hS.wins_iff hbr hn]
    rcases hlost with h | h <;> simp [h]
  obtain ⟨b', hlose, hleaves⟩ := Blk.loseClaim_leaves hn ((hbr.lostHandle n h).trans hS.sound)
    ((hbr.handle n h).trans hS.handle) ((hbr.trackOf _ _ _).trans hS.track) hother hS.st hS.ans hS.shr
  refine ⟨b', ?_, hleaves⟩
  simp only [Blk.claimReqDue, hwins, hlose, Bool.false_and, Bool.false_eq_true, if_false]

end

/-- An entry that is due no offer is left as it is. -/
theorem Blk.SettlesAt.entry_of_not_due {b0 b : Blk} {i : Nat} {t : Stt} {e : Entry} (h : b0.SettlesAt b i t e)
    (hdue : ¬ (e.pend = true ∧ e.act = false ∧ e.dlv = false)) : b.entry t = e := by
  rw [Blk.SettlesAt, if_neg hdue] at h
  exact h.1

/-- A copy that stands and was not asked back before is asked back with WDRAW. -/
theorem Link.askBack_of_standing {l : Link} {h : Nat} (hwd : (l.handle h).wd = false) :
    (l.askBack h).ctl = l.ctl ++ [recHC 3 h 0] ∧ ((l.askBack h).handle h).wd = true := by
  unfold Link.askBack
  rw [hwd]
  exact ⟨rfl, congrArg Handle.wd (l.handle_modHandle_self h (fun x => { x with wd := true }))⟩

/-! ### At the tile -/

section
variable {b0 b : Blk} (h : b0.OnlyEnds b)
include h

theorem Blk.OnlyEnds.ctxs (n : Nat) : (b.ta n).ctxs = (b0.ta n).ctxs := by
  have := congrArg Agent.ctxs (h.ta n); exact this

theorem Blk.OnlyEnds.upq (n : Nat) : (b.ta n).upq = (b0.ta n).upq := by
  have := congrArg Agent.upq (h.ta n); exact this

theorem Blk.OnlyEnds.heldOn (n k : Nat) : (b.ta n).heldOn k = (b0.ta n).heldOn k := by
  rw [Agent.heldOn, Agent.heldOn, h.ctxs]

theorem Blk.OnlyEnds.quiet {n : Nat} (hq : (b0.ta n).Quiet) : (b.ta n).Quiet := by
  rw [Agent.Quiet, h.ctxs]
  exact hq

theorem Blk.OnlyEnds.ctx (n d : Nat) : (b.ta n).ctx d = (b0.ta n).ctx d := by rw [Agent.ctx, Agent.ctx, h.ctxs]

end

section
variable {s : State} {n h c : Nat} {rest : List Flit} (hh : h < 1024)
include hh

theorem exec_won (hc : c < 64) (hto : s.blk.ToTile n (recHC 4 h c) rest) :
    ∃ b, s.blk.OnlyEnds b ∧ exec (.won n 0) s = s.becomes (b.modTa n (fun a => a.onWon h c)) := by
  obtain ⟨b, hends, hdown⟩ := hto.downRec_eq (by rw [recType_recHC (by decide)]; decide) (recLegal_won h c)
    (recType_recHC (by decide) h c)
  refine ⟨b, hends, congrArg s.becomes ((hto.toLinkRuns.linkRow_eq s.mem _).trans ((hdown _).trans ?_))⟩
  rw [recHandle_recHC (by decide) hh, recCtx_recHC (by decide) h hc]

theorem exec_lost (hto : s.blk.ToTile n (recHC 5 h 0) rest) :
    ∃ b, s.blk.OnlyEnds b ∧ exec (.lost n 0) s = s.becomes (b.modTa n (fun a => a.onLost h)) := by
  obtain ⟨b, hends, hdown⟩ := hto.downRec_eq (by rw [recType_recHC (by decide)]; decide) (recLegal_lost h)
    (recType_recHC (by decide) h 0)
  refine ⟨b, hends, congrArg s.becomes ((hto.toLinkRuns.linkRow_eq s.mem _).trans ((hdown _).trans ?_))⟩
  rw [recHandle_recHC (by decide) hh]

end

/-- Settles O18: the Hub's half by the decision of `claimReqDue` at the entry, the tile's half by what WON and LOST make of the
one read that is held on the handle. -/
theorem sharedClaimRequests : Obligations.SharedClaimRequests := by
  unfold Obligations.SharedClaimRequests
  intro s n h c rest hh hc b0 a l x
  refine ⟨?hub, ?tile⟩
  case hub =>
    intro t j tr hto _ hst hshr hsingle hsource hmap hgen hprox htrack e
    have hn := hto.link
    have hS : b0.Shares n h t j tr x := ⟨hsingle, rfl, hst, hshr, hprox, hsource, hmap, hgen, htrack⟩
    obtain ⟨b, hends, hexec⟩ := exec_claimReq hS hh hc hto
    have hbr : b0.Brings (b.atNotice n h .claimReq c t) := hends.atNotice .claimReq
    refine ⟨fun hpend hact hdlv hwon hkind htab hother hcopies => ?_, fun hlost hdue hother => ?_⟩
    · have hbp := hbr.probe 9 x.stt t.domid e.rclass
      have hW := Blk.winClaim_leaves (c := c) hn ((hbp.handle n h).trans rfl) ((hbp.trackOf _ _ _).trans htrack) hother
        (by rw [hbp.rank]; exact htab) fun k hk hkn z hz => by
          rw [hbp.copiesOf] at hz
          rw [hbp.handle, (hcopies k hk hkn z hz).2]
          exact (hcopies k hk hkn z hz).1
      obtain ⟨heq, hsettles⟩ := hS.notice_settles (m := s.mem) hn hends hbp hW.rest
        (hS.claimReqDue_wins hbr hn hpend hact hdlv hwon true)
      rw [heq] at hexec
      refine ⟨_, hexec, ?_, ?_, ?_, ?_, fun k h' y hk hkn hcopy hwd => ?_⟩
      · rw [Blk.link_served7, Blk.link_settled, hW.handle]
      · have hentry := hsettles.entry_of_not_due (by simp [claimEntry])
        have hlev : decide (t.kind = .level) = false := decide_eq_false hkind
        exact hentry.trans (by rw [claimEntry, hlev]; rfl)
      · rw [Blk.link_served7, Blk.link_settled, hW.ctl, hbp.ctl]
      · show (tabGet {} (Blk.settled _ x.stt t _).rank.bcast j).won = true
        rw [Blk.bcast_settled, hW.won]
      · have hy := (hcopies k hk hkn _ (by rw [hcopy]; exact List.mem_cons_self)).2
        have hback := hW.others k hk hkn
        rw [hbp.copiesOf, hcopy, List.foldl_cons, List.foldl_nil] at hback
        rw [Blk.link_served7, Blk.link_settled, hback]
        obtain ⟨hctl, hwd'⟩ := Link.askBack_of_standing (l := (Blk.probe _ 9 x.stt t.domid e.rclass).link k) (h := h')
          (by rw [hbp.handle, hy, hwd])
        exact ⟨hctl.trans (by rw [hbp.ctl]), hwd'⟩
    · obtain ⟨b', hdec, hL⟩ := hS.claimReqDue_loses (c := c) hbr hn hlost hother true
      obtain ⟨heq, hsettles⟩ := hS.notice_settles (m := s.mem) hn hends hbr hL.rest hdec
      rw [heq] at hexec
      refine ⟨_, hexec, ?_, ?_, hsettles.entry_of_not_due fun h => ?_⟩
      · rw [Blk.link_served7, Blk.link_settled, hL.handle]
      · rw [Blk.link_served7, Blk.link_settled, hL.ctl, hbr.ctl]
      · exact absurd h.2.2 (by rw [hdue h.1 h.2.1]; decide)
  case tile =>
    intro k hheld hk hon hq y
    refine ⟨fun hto => ?_, ?_⟩
    · obtain ⟨b, hends, hexec⟩ := exec_won hh hc hto
      have hwon : (b.ta n).onWon h c = (b.ta n).wonCopy h c k :=
        Agent.onWon_eq ((congrArg Ctx.held (hends.ctx n c)).trans hheld) hk ((hends.heldOn n h).trans hon) (hends.quiet hq)
      have hta : (b.modTa n (fun a => a.onWon h c)).ta n = (b.ta n).wonCopy h c k := (Blk.ta_modTa_self b n _).trans hwon
      refine ⟨_, hexec, ?_⟩
      rw [hta]
      refine ⟨?_, fun d hd => ?_, fun r hr => ?_⟩
      · rw [Agent.ctx_wonCopy_self, hends.ctx]; rfl
      · rw [Agent.ctx_wonCopy_ne hd, hends.ctx]; rfl
      · rw [← hends.upq n]
        exact Agent.mem_upq_wonCopy hr
    · intro hto z
      obtain ⟨b, hends, hexec⟩ := exec_lost hh hto
      have hctx := hends.ctx n c
      have hheld' : ((b.ta n).ctx c).held = some k := (congrArg Ctx.held hctx).trans hheld
      have hon' : (b.ta n).heldOn h = [c] := (hends.heldOn n h).trans hon
      have hz : ((b.ta n).ctx c).bereft h = z := by rw [hctx]; rfl
      have hta : (b.modTa n (fun a => a.onLost h)).ta n = (b.ta n).onLost h := Blk.ta_modTa_self b n _
      refine ⟨fun hshared => ⟨_, hexec, ?_⟩, fun k' hk' hex => ⟨_, hexec, ?_⟩⟩ <;> rw [hta]
      · rw [Agent.onLost_of_shared hheld' hk hon' (hends.quiet hq) (by rw [hz]; exact hshared), Agent.answer,
          Agent.ctx_modCtx_self, Agent.ctx_bereft, hz]
        exact ⟨rfl, hends.upq n⟩
      · rw [Agent.onLost_of_exclusive hheld' hk hon' (hends.quiet hq) (by rw [hz]; exact hk') hex]
        refine ⟨?_, Agent.mem_upq_statIf _ _ _ _ (by rw [recType_recHC (by decide)]; decide) (by simp [Agent.taken])⟩
        rw [Agent.ctx_statIf, (Agent.makes_taken _ c k').1, Agent.ctx_bereft, hz]

end Sys2Proof.Machine

/-! An arrival served at its bank (03 R96 to R102; 04 R146; 07 R270), and the settling of O7. -/
namespace Sys2Proof.Machine
open Sys2Proof

/-- The update that an event asks for. -/
def Event.upd (ev : Event) : Upd := { stt := ev.stt, mapgen := ev.mapgen, kind := .event ev }

/-- Lane `q` alone holds an event for the bank, and nothing else; no notice is held, and the event is of a resident source of
that bank, under its generation. -/
structure Blk.Arrives (b : Blk) (bank q : Nat) (ev : Event) (st : Stt) : Prop where
  lane : q < 25
  hold : (b.lane q).hold = [(bank, ev)]
  stall : (b.lane q).stall = none
  rx : (b.lane q).rx = []
  alone : ∀ p < 25, p ≠ q → ∀ x ∈ (b.lane p).hold, x.1 ≠ bank
  source : b.AtSlot ev.stt st
  slot : st.slot % 16 = bank
  mapgen : ev.mapgen = st.mapgen
  gen : ev.gen = (b.dom st.domid).gen
  entryGen : (b.entry st).gen = ev.gen

/-- The block after the event of a lane was served: it has left its register, and the lane was the last to be served. -/
def Blk.arrived (b : Blk) (bank q : Nat) : Blk :=
  let b := b.modLane q (fun l => { l with hold := tabDel l.hold bank })
  { b with ing := { b.ing with rr6 := tabSet 24 b.ing.rr6 bank q } }

/-- A lane that holds nothing behind its registers does not move. -/
theorem Blk.laneResume_of_empty {b : Blk} {q : Nat} (hstall : (b.lane q).stall = none) (hrx : (b.lane q).rx = []) :
    b.laneResume q = b := by
  simp [Blk.laneResume, hstall, Blk.laneRun, hrx]

theorem Blk.lane_arrived (b : Blk) (bank q : Nat) :
    (b.arrived bank q).lane q = { b.lane q with hold := tabDel (b.lane q).hold bank } :=
  b.lane_modLane_self q (fun l => { l with hold := tabDel l.hold bank })

theorem Blk.ing_settled (b : Blk) (i : Nat) (st : Stt) (e : Entry) : (b.settled i st e).ing = b.ing := by
  obtain ⟨slots, offers, dbg, h⟩ := b.settled_eq i st e
  rw [h]

theorem Blk.cls_settled (b : Blk) (i : Nat) (st : Stt) (e : Entry) : (b.settled i st e).cls = b.cls := by
  obtain ⟨slots, offers, dbg, h⟩ := b.settled_eq i st e
  rw [h]

/-- Without a notice held no bank serves one. -/
theorem Blk.grant7_of_not_held {b : Blk} (h : b.noticesHeld = false) (m : List Host.Cell) (bank : Nat) :
    b.grant7 m bank = none := by
  refine List.findSome?_eq_none_iff.2 fun k _ => ?_
  have hnone : tabGet [] (b.link k).notices bank = [] := by rw [Blk.notices_of_not_held h]; rfl
  simp only [Blk.noticeTake, hnone, Option.map_none]

/-- Without a value for any member a search finds nothing, and with one for a single member it finds that. -/
theorem findSome?_eq_of_unique {α β : Type} {f : α → Option β} {l : List α} {k : α} (hk : k ∈ l)
    (h : ∀ j ∈ l, j ≠ k → f j = none) : l.findSome? f = f k := by
  cases hv : f k with
  | some v => exact findSome?_of_unique hk hv h
  | none =>
    refine List.findSome?_eq_none_iff.2 fun j hj => ?_
    by_cases hjk : j = k
    · rw [hjk, hv]
    · exact h j hj hjk

section
variable {b : Blk} {bank q : Nat} {ev : Event} {st : Stt} (h : b.Arrives bank q ev st) (m : List Host.Cell)
include h

/-- Only lane `q` has an event for the bank. -/
theorem Blk.Arrives.arrivalFrom_of_ne {p : Nat} (hp : p < 25) (hpq : p ≠ q) : b.arrivalFrom m bank p = none := by
  have hfind : (b.lane p).hold.find? (fun x => x.1 == bank) = none :=
    List.find?_eq_none.2 fun x hx => by simpa using h.alone p hp hpq x hx
  simp only [Blk.arrivalFrom, hfind]

theorem Blk.Arrives.arrivalFrom_self : b.arrivalFrom m bank q = (b.update m ev.upd 6).map
    (fun b => b.modLane q (fun l => { l with hold := tabDel l.hold bank })) := by
  have hfind : (b.lane q).hold.find? (fun x => x.1 == bank) = some (bank, ev) := by rw [h.hold]; simp
  have hres : (st.valid && decide (st.mapgen = ev.mapgen) && !st.res) = false := by simp [h.source.resident.res]
  simp only [Blk.arrivalFrom, hfind, h.source.resident.stt, hres, Bool.false_eq_true, if_false]
  rfl

/-- The bank serves the one event that is held for it, or none. -/
theorem Blk.Arrives.grant6_eq : b.grant6 m bank = match b.update m ev.upd 6 with
    | none => b
    | some b' => (b'.arrived bank q).laneResume q := by
  have hsearch : (b.order6 bank).findSome? (fun q => (b.arrivalFrom m bank q).map (fun x => (q, x))) =
      (b.arrivalFrom m bank q).map (fun x => (q, x)) := by
    refine findSome?_eq_of_unique (mem_afterPtr.2 (List.mem_range.2 h.lane)) fun p hp hpq => ?_
    rw [h.arrivalFrom_of_ne m (List.mem_range.1 (mem_afterPtr.1 hp)) hpq]
    rfl
  simp only [Blk.grant6, Blk.grant7_of_not_held h.source.noNotice, hsearch, h.arrivalFrom_self]
  cases b.update m ev.upd 6 <;> rfl

/-- The block on which the entry is changed. -/
def Blk.atArrival (b : Blk) (bank : Nat) (ev : Event) (st : Stt) : Blk :=
  (b.granted bank 6).probe 1 ev.stt st.domid st.rank.cls

omit h in
theorem Blk.atArrival_eq (b : Blk) (bank : Nat) (ev : Event) (st : Stt) : ∃ arb dbg, b.atArrival bank ev st =
    { b with arb := arb, dbg := dbg } := by
  rw [Blk.atArrival, Blk.probe_eq]
  exact ⟨_, _, rfl⟩

/-- An event of the current generation in a domain that acts is not stopped. -/
theorem Blk.Arrives.not_stopped : (b.granted bank 6).arrivalStops ev.stt st ev.gen = none := by
  have hgen : ev.gen = ((b.granted bank 6).dom st.domid).gen := h.gen
  have hacts : ((b.granted bank 6).dom st.domid).still = false := h.source.acts
  simp only [Blk.arrivalStops, ← hgen, hacts, ne_eq, not_true_eq_false, Bool.false_eq_true, if_false]

theorem Blk.Arrives.updBody_arrival (hk : ev.kind = .arrival) (e : Entry) : (b.granted bank 6).updBody m bank ev.upd st e =
    (b.atArrival bank ev st).arrival ev.stt st e .arrival ev.exc ev.pl ev.time := by
  simp only [Blk.updBody, Event.upd, h.not_stopped, hk]
  rfl

theorem Blk.Arrives.updBody_level {a : Bool} (hk : ev.kind = .level a) (e : Entry) :
    (b.granted bank 6).updBody m bank ev.upd st e = some ((b.atArrival bank ev st).levelChange ev.stt st e a) := by
  simp only [Blk.updBody, Event.upd, h.not_stopped, hk]
  rfl

/-- An event whose update waits leaves the block as it is. -/
theorem Blk.Arrives.grant6_of_none (hbody : (b.granted bank 6).updBody m bank ev.upd st (b.entry st) = none) :
    b.grant6 m bank = b := by
  have hupd : b.update m ev.upd 6 = none := by
    rw [h.source.resident.update_eq rfl h.mapgen, h.slot, hbody]
    rfl
  rw [h.grant6_eq, hupd]

/-- An event whose update is performed settles the entry, and leaves its register. -/
theorem Blk.Arrives.grant6_of_some {b' : Blk} {f : Entry}
    (hbody : (b.granted bank 6).updBody m bank ev.upd st (b.entry st) = some (b', f)) (hing : b'.ing = b.ing)
    (hsram : b'.sram = b.sram) (hoffers : b'.rank.offers = b.rank.offers) (hf : f.gen = ev.gen) :
    b.grant6 m bank = (b'.settled ev.stt st f).arrived bank q ∧
    b.SettlesAt ((b'.settled ev.stt st f).arrived bank q) ev.stt st f ∧
    (((b'.settled ev.stt st f).arrived bank q).lane q).hold = [] := by
  have hdom : b'.dom st.domid = b.dom st.domid := by rw [Blk.dom, Blk.dom, hsram]
  have hstamped : b'.stamped ev.upd st (b.entry st) f = f := by
    rw [Blk.stamped]
    split
    · rw [hdom, ← h.gen, ← hf]
    · rfl
  have hupd : b.update m ev.upd 6 = some (b'.settled ev.stt st f) := by
    rw [h.source.resident.update_eq rfl h.mapgen, h.slot, hbody, Option.map_some, hstamped]
  have hlane : (b'.settled ev.stt st f).lane q = b.lane q := by rw [Blk.lane, Blk.lane, Blk.ing_settled, hing]
  have hlast := Blk.lane_arrived (b'.settled ev.stt st f) bank q
  rw [hlane] at hlast
  refine ⟨?_, Blk.settlesAt_settled h.source.resident.valid (by rw [hdom]; exact h.source.acts) hoffers _ _, ?_⟩
  · rw [h.grant6_eq, hupd]
    exact Blk.laneResume_of_empty (by rw [hlast]; exact h.stall) (by rw [hlast]; exact h.rx)
  · rw [hlast]
    show tabDel (b.lane q).hold bank = []
    rw [h.hold]
    simp [tabDel]

end

/-! ### What an event makes of the entry -/

section
variable {b : Blk} {bank q : Nat} {ev : Event} {st : Stt} {e : Entry}

theorem Blk.stampNow_atArrival (b : Blk) (bank : Nat) (ev : Event) (st : Stt) : (b.atArrival bank ev st).stampNow = b.stampNow := by
  obtain ⟨arb, dbg, h⟩ := b.atArrival_eq bank ev st
  rw [h]; rfl

/-- An arrival without a program releases its contribution at once (03 R96, R124; 04 R149). -/
theorem Blk.arrival_without_program (hkind : st.kind ≠ .level) (hcv : st.clause.cv = false) (hdlv : e.dlv = false) :
    (b.atArrival bank ev st).arrival ev.stt st e .arrival ev.exc ev.pl ev.time = some (b.atArrival bank ev st,
      setRank (setPend e b.stampNow) (defaultRel st.rank.cls st.rank.prio (ev.exc && 2#2 ≤ st.rank.cls))) := by
  simp only [Blk.arrival, hcv, Bool.false_and, Bool.false_eq_true, if_false, Blk.release, hkind, hdlv,
    Blk.stampNow_atArrival]

/-- A program in an enabled cluster takes the arrival. -/
theorem Blk.arrival_with_program (hcv : st.clause.cv = true) (hcl : (b.cl st.clause.clus).regs.st = .enabled) :
    (b.atArrival bank ev st).arrival ev.stt st e .arrival ev.exc ev.pl ev.time =
      (b.atArrival bank ev st).holdArrival ev.stt st e .arrival ev.exc ev.pl ev.time := by
  obtain ⟨arb, dbg, h⟩ := b.atArrival_eq bank ev st
  have htakes : ((b.atArrival bank ev st).cl st.clause.clus).takes = true := by
    rw [h]; exact decide_eq_true hcl
  simp only [Blk.arrival, hcv, htakes, Bool.and_self, if_true]

/-- With 15 contributions held an arrival waits (03 R99). -/
theorem Blk.holdArrival_of_full (hheld : e.held = 15) (i : Nat) (cause : Cause) (exc : Bool) (pl : Payload) (time : Dword) :
    b.holdArrival i st e cause exc pl time = none := by
  simp only [Blk.holdArrival, hheld, decide_true, Bool.true_or, if_true]

/-- A class that a dispatch keeps for its queue (07 R272, R275). -/
theorem two_le_dispatchClass (st : Stt) (exc : Bool) : 2#2 ≤ dispatchClass st exc ↔ (2#2 ≤ st.rank.cls && !exc) = true := by
  cases exc
  · simp [dispatchClass]
  · by_cases h : 2#2 ≤ st.rank.cls <;> simp [dispatchClass, h]

/-- A level that rises: LVL and PEND follow it (03 R102). -/
theorem Blk.levelChange_rise (b : Blk) (i : Nat) (st : Stt) (e : Entry) : b.levelChange i st e true =
    (b, { e with
      lvl := true, pend := true, stamp := if e.pend then e.stamp else b.stampNow, rclass := st.rank.cls, rprio := st.rank.prio,
      dem := false, rtv := false }) := rfl

/-- A level that falls while no copy is out. -/
theorem Blk.levelChange_fall (hdlv : e.dlv = false) (i : Nat) :
    b.levelChange i st e false = (b, { e with lvl := false, pend := false }) := by
  simp only [Blk.levelChange, Bool.false_eq_true, if_false, hdlv]

/-- A cluster with room takes a dispatch record in its queue (07 R270, R275). -/
theorem Blk.holdArrival_of_room {i : Nat} {cause : Cause} {exc : Bool} {pl : Payload} {time : Dword} (hheld : e.held ≠ 15)
    (hengines : (b.cl st.clause.clus).regs.offline.length < 16)
    (hatt : setHas b.ecc.attBad (1024 * st.clause.clus + st.clause.aidx) = false)
    (hreg : setHas b.ecc.regBad (64 * st.clause.clus + (tabGet {} (b.cl st.clause.clus).att st.clause.aidx).region) = false)
    (hroom : (b.cl st.clause.clus).queue.length < (if 2#2 ≤ dispatchClass st exc then 64 else 48)) :
    b.holdArrival i st e cause exc pl time =
      some (({ b with nth := b.nth + 1 }).modCl st.clause.clus (fun c => { c with
        queue := c.queue ++ [b.mkDispatch i st cause exc pl time] }), { e with held := e.held + 1 }) := by
  have haccepts : (b.cl st.clause.clus).accepts (dispatchClass st exc) = true := decide_eq_true hroom
  have hwaits : (decide (e.held = 15) || !(b.cl st.clause.clus).accepts (dispatchClass st exc)) = false := by
    rw [haccepts, decide_eq_false hheld]; rfl
  have hfailed : (b.cl st.clause.clus).failed = false := decide_eq_false (by omega)
  have hlost : b.attLost (b.mkDispatch i st cause exc pl time) = false := by
    exact Bool.or_eq_false_iff.2 ⟨hatt, hreg⟩
  have hdispatch : b.dispatch (b.mkDispatch i st cause exc pl time) = ({ b with nth := b.nth + 1 }).modCl st.clause.clus (fun c =>
      { c with queue := c.queue ++ [b.mkDispatch i st cause exc pl time] }) := by
    show (if (b.cl st.clause.clus).failed = true then _ else if b.attLost _ = true then _ else _) = _
    rw [hfailed, hlost]
    rfl
  show (if (decide (e.held = 15) || !(b.cl st.clause.clus).accepts (dispatchClass st exc)) = true then none else _) = _
  rw [hwaits, ← hdispatch]
  rfl

end

/-- Settles O7: the one event for the bank is served (`Blk.Arrives.grant6_of_some`), by what it makes of the entry. -/
theorem arrivalUpdatesEntry : Obligations.ArrivalUpdatesEntry := by
  unfold Obligations.ArrivalUpdatesEntry
  intro s bank q ev st b0 e hawake hbank hq hhold hstall hrx halone hsource hslot hmap hgen hegen dem now takes released offered
  have hA : b0.Arrives bank q ev st := ⟨hq, hhold, hstall, hrx, halone, hsource, hslot, hmap, hgen, hegen⟩
  have hexec : exec (.arrivalStateUpdate bank) s = s.becomes (b0.grant6 s.mem bank) := by
    show s.becomes (b0.when (b0.awake && bank < 16) (fun b => b.grant6 s.mem bank)) = _
    simp [Blk.when, b0, hawake, hbank]
  obtain ⟨arb, dbg, hat⟩ := b0.atArrival_eq bank ev st
  have hserved : ∀ {b' f}, (b0.granted bank 6).updBody s.mem bank ev.upd st e = some (b', f) → b'.ing = b0.ing →
      b'.sram = b0.sram → b'.rank.offers = b0.rank.offers → f.gen = ev.gen →
      let b := (b'.settled ev.stt st f).arrived bank q
      exec (.arrivalStateUpdate bank) s = s.becomes b ∧ b0.SettlesAt b ev.stt st f ∧ (b.lane q).hold = [] :=
    fun hbody hing hsram hoffers hf => by
      obtain ⟨hgrant, hsettles, hleft⟩ := hA.grant6_of_some s.mem hbody hing hsram hoffers hf
      exact ⟨hexec.trans (congrArg s.becomes hgrant), hsettles, hleft⟩
  have hat_ing : (b0.atArrival bank ev st).ing = b0.ing := by rw [hat]
  have hat_sram : (b0.atArrival bank ev st).sram = b0.sram := by rw [hat]
  have hat_offers : (b0.atArrival bank ev st).rank.offers = b0.rank.offers := by rw [hat]
  have hreleases : ev.kind = .arrival → st.kind ≠ .level → st.clause.cv = false → e.dlv = false →
      ∃ b, exec (.arrivalStateUpdate bank) s = s.becomes b ∧ b0.SettlesAt b ev.stt st released ∧ (b.lane q).hold = [] :=
    fun hk hkind hcv hdlv => ⟨_, hserved ((hA.updBody_arrival _ hk e).trans (Blk.arrival_without_program hkind hcv hdlv))
      hat_ing hat_sram hat_offers hegen⟩
  refine ⟨fun hk hkind hcv hdlv hact => ?_, fun hk hkind hcv hdlv hact => ?_,
    fun hk hcv hcl hengines hheld hdue hatt hreg hroom => ?_, fun hk hcv hcl hheld => ?_, fun hk hact => ?_, fun hk hdlv => ?_⟩
  case refine_1 =>
    obtain ⟨b, hb, hsettles, hleft⟩ := hreleases hk hkind hcv hdlv
    rw [Blk.SettlesAt, if_pos ⟨rfl, hact, hdlv⟩, hslot] at hsettles
    exact ⟨b, hb, hsettles.1, hsettles.2, hleft⟩
  case refine_2 =>
    obtain ⟨b, hb, hsettles, hleft⟩ := hreleases hk hkind hcv hdlv
    rw [Blk.SettlesAt, if_neg fun h => absurd (hact.symm.trans h.2.1) (by decide)] at hsettles
    exact ⟨b, hb, hsettles.1, hsettles.2, hleft⟩
  case refine_3 =>
    have hdcls : dispatchClass st ev.exc = if dem then 1 else st.rank.cls := rfl
    have hroom' : ((b0.atArrival bank ev st).cl st.clause.clus).queue.length <
        (if 2#2 ≤ dispatchClass st ev.exc then 64 else 48) := by
      rw [hat]
      exact hroom.trans_eq (if_congr (two_le_dispatchClass st ev.exc).symm rfl rfl)
    have hhold := Blk.holdArrival_of_room (b := b0.atArrival bank ev st) (i := ev.stt) (cause := .arrival) (exc := ev.exc)
      (pl := ev.pl) (time := ev.time) hheld (by rw [hat]; exact hengines) (by rw [hat]; exact hatt) (by rw [hat]; exact hreg) hroom'
    obtain ⟨hb, hsettles, hleft⟩ := hserved ((hA.updBody_arrival _ hk e).trans
      ((Blk.arrival_with_program hcv hcl).trans hhold)) hat_ing hat_sram hat_offers hegen
    have hnot : ¬ (e.pend = true ∧ e.act = false ∧ e.dlv = false) := fun ⟨hp, ha, hd⟩ => by simp [hp, ha, hd] at hdue
    rw [Blk.SettlesAt, if_neg hnot] at hsettles
    refine ⟨_, (b0.atArrival bank ev st).mkDispatch ev.stt st .arrival ev.exc ev.pl ev.time, ⟨hb, hsettles.1, hsettles.2, hleft⟩,
      ?_, rfl, rfl, ?_, rfl, rfl, rfl, rfl, rfl, rfl, ?_⟩
    · show (tabGet {} (Blk.settled _ ev.stt st _).cls st.clause.clus).queue = _
      rw [Blk.cls_settled]
      refine (congrArg Cluster.queue (Blk.cl_modCl_self _ _ _)).trans ?_
      rw [hat]
      rfl
    · rw [hat]; exact hgen.symm
    · rw [hat]; rfl
  case refine_4 =>
    rw [hexec, hA.grant6_of_none s.mem]
    rw [hA.updBody_arrival _ hk, Blk.arrival_with_program hcv hcl, Blk.holdArrival_of_full hheld]
  case refine_5 =>
    have hbody := hA.updBody_level s.mem hk e
    rw [Blk.levelChange_rise, Blk.stampNow_atArrival] at hbody
    obtain ⟨hb, hsettles, hleft⟩ := hserved hbody hat_ing hat_sram hat_offers hegen
    rw [Blk.SettlesAt, if_neg fun h => absurd (hact.symm.trans h.2.1) (by decide)] at hsettles
    exact ⟨_, hb, hsettles.1, hsettles.2, hleft⟩
  case refine_6 =>
    have hbody := hA.updBody_level s.mem hk e
    rw [Blk.levelChange_fall hdlv] at hbody
    obtain ⟨hb, hsettles, hleft⟩ := hserved hbody hat_ing hat_sram hat_offers hegen
    rw [Blk.SettlesAt, if_neg fun h => absurd h.1 Bool.false_ne_true] at hsettles
    exact ⟨_, hb, hsettles.1, hsettles.2, hleft⟩

end Sys2Proof.Machine

/-! Messages of a peer about forwarded candidates and proxies (12 R467 to R471), and the settling of O47. -/
namespace Sys2Proof.Machine
open Sys2Proof

/-! ### A message in sequence -/

/-- The block after an event-class message of peer `p` was accepted and acknowledged. -/
def Blk.heard (b : Blk) (p : Nat) : Blk := b.modPeer p (fun x => { x with ev := x.ev.took })

@[simp] theorem Blk.peer_heard (b : Blk) (p : Nat) : (b.heard p).peer p = { b.peer p with ev := (b.peer p).ev.took } :=
  b.peer_modPeer_self p _

theorem Blk.vctx_heard (b : Blk) (p d v : Nat) : (b.heard p).vctx d v = b.vctx d v := rfl

theorem Blk.admittedCtx_heard (b : Blk) (p q : Nat) : (b.heard p).admittedCtx q = b.admittedCtx q := rfl

/-- A message in sequence is accepted, and then takes its effect. -/
theorem Blk.Hears.zTake_eq {b : Blk} {p seq : Nat} (h : b.Hears p true seq) (m : List Host.Cell) (f : Blk → Blk) :
    b.zTake m p true seq f = f (b.heard p) := by
  have hon : b.zOn = true := by rw [Blk.zOn, h.takesPart, Blk.served_of_awake h.awake]; rfl
  have hidle : decide (b.pwr.regs.state = .idle) = false := by rw [Blk.powerState_of_awake h.awake]; rfl
  have hseq : seq = (b.zClass p true).rx := h.inSequence
  have hmod : b.modZ p true (fun c => { c with rx := seqInc c.rx, acks := c.acks ++ [seq] }) = b.heard p := by
    simp only [Blk.modZ, Blk.heard, Blk.modPeer, tabMod, if_true, hseq, Blk.zClass, ZClass.took, Blk.peer]
    rfl
  simp only [Blk.zTake, hon, Nat.not_le.2 h.peer, decide_false, Bool.not_true, Bool.or_self, Bool.false_eq_true, if_false,
    Blk.portIn, h.intact, Bool.true_and, hidle, Blk.injHit_of_noArm h.noInject, if_pos hseq, hmod]

theorem Blk.peer_zSend_event (b : Blk) (p : Nat) {z : ZMsg} (hz : z.isEvent = true) :
    (b.zSend p z).peer p = { b.peer p with ev := (b.peer p).ev.sent z } := by
  rw [Blk.zSend, Blk.peer_modPeer_self, if_pos hz]
  rfl

theorem Blk.peer_zSend_control (b : Blk) (p : Nat) {z : ZMsg} (hz : z.isEvent = false) :
    (b.zSend p z).peer p = { b.peer p with ct := (b.peer p).ct.sent z } := by
  rw [Blk.zSend, Blk.peer_modPeer_self, if_neg (by rw [hz]; decide)]
  rfl

@[simp] theorem Blk.links_zSend (b : Blk) (p : Nat) (z : ZMsg) : (b.zSend p z).links = b.links := rfl

@[simp] theorem Blk.link_zSend (b : Blk) (p : Nat) (z : ZMsg) (n : Nat) : (b.zSend p z).link n = b.link n := rfl

@[simp] theorem Blk.lane_zSend (b : Blk) (p : Nat) (z : ZMsg) (q : Nat) : (b.zSend p z).lane q = b.lane q := rfl

@[simp] theorem Blk.links_raise (b : Blk) (k : Nat) : (b.raise k).links = b.links := rfl

@[simp] theorem Blk.peer_raise (b : Blk) (k p : Nat) : (b.raise k).peer p = b.peer p := rfl

/-! ### FWD (12 R467, R470, R471) -/

/-- The lowest number that satisfies a predicate. -/
theorem firstBelow_eq_of_lowest {n a : Nat} {p : Nat → Bool} (ha : a < n) (hp : p a = true) (hlow : ∀ j < a, p j = false) :
    firstBelow n p = some a := by
  cases hf : firstBelow n p with
  | none => exact absurd hp (List.find?_eq_none.1 hf a (List.mem_range.2 ha))
  | some j =>
    have hj : p j = true := List.find?_some hf
    rcases Nat.lt_trichotomy j a with hlt | heq | hgt
    · rw [hlow j hlt] at hj
      exact absurd hj Bool.false_ne_true
    · rw [heq]
    · rw [firstBelow, List.find?_range_eq_some] at hf
      exact absurd hp (by simpa using hf.2.2 a hgt)

theorem Link.freeHandle_eq {l : Link} {h : Nat} (hh : h < 1024) (hfree : (l.handle h).st = .free)
    (hlow : ∀ j < h, (l.handle j).st ≠ .free) : l.freeHandle = h := by
  rw [Link.freeHandle, firstBelow_eq_of_lowest hh (by simpa using hfree) fun j hj => by simpa using hlow j hj]
  rfl

/-- A candidate takes its place behind those that are not lower. -/
theorem insertCand_append {c : Cand} {before after : List Cand} (hbefore : ∀ y ∈ before, c.qkey ≤ y.qkey)
    (hafter : ∀ y ∈ after, y.qkey < c.qkey) : insertCand c (before ++ after) = before ++ c :: after := by
  induction before with
  | nil =>
    cases after with
    | nil => rfl
    | cons y after => exact if_pos (hafter y List.mem_cons_self)
  | cons y before ih =>
    obtain ⟨hy, hbefore⟩ := List.forall_mem_cons.1 hbefore
    rw [List.cons_append, insertCand, if_neg (BitVec.not_lt.2 hy), ih hbefore]
    rfl

/-- The urgency of a class with a deadline is what the slack leaves, of the others the age (05 R166, R167). -/
theorem urgency_eq (cls : BitVec 2) (now stamp : BitVec 14) (dl : Nat) : urgency cls now stamp dl =
    if 2#2 ≤ cls then BitVec.ofNat 14 (0x3FFF - min (((dl + 63) / 64 : Nat) - (now - stamp).toNat) 0x3FFF) else now - stamp := rfl

section
variable {b : Blk} {p n : Nat}

/-- A queue with room takes a candidate at its place. -/
theorem Blk.outq_enqueue {c : Cand} {before after : List Cand} (hq : (b.link n).outq = before ++ after)
    (hroom : (b.link n).outq.length < 64) (hbefore : ∀ y ∈ before, c.qkey ≤ y.qkey) (hafter : ∀ y ∈ after, y.qkey < c.qkey) :
    b.enqueue n c = b.modLink n (fun l => { l with outq := insertCand c l.outq }) ∧
    ((b.enqueue n c).link n).outq = before ++ c :: after := by
  have hins : ((b.modLink n (fun l => { l with outq := insertCand c l.outq })).link n).outq = before ++ c :: after := by
    rw [Blk.link_modLink_self, hq]
    exact insertCand_append hbefore hafter
  have hlen : (before ++ c :: after).length ≤ 64 := by
    rw [hq, List.length_append] at hroom
    rw [List.length_append, List.length_cons]
    omega
  have henq : b.enqueue n c = b.modLink n (fun l => { l with outq := insertCand c l.outq }) := by
    rw [Blk.enqueue, Blk.bounce]
    simp only [hins, hlen, if_true]
  exact ⟨henq, by rw [henq, hins]⟩

end

/-- The urgency of a forwarded candidate, formed at the Hub it reaches: as age while that Hub's offset is out of range. -/
def Blk.fwdUrgency (b : Blk) (p : Nat) (cls : BitVec 2) (f : FwdMsg) : BitVec 14 :=
  if (b.peer p).offsetOut = false ∧ 2#2 ≤ cls
  then BitVec.ofNat 14 (0x3FFF - min (((f.dl + 63) / 64 : Nat) - (b.stampNow - f.stamp).toNat) 0x3FFF) else b.stampNow - f.stamp

/-- The candidate that a FWD makes for a physical context, under a handle. -/
def Blk.fwdCand (b : Blk) (p pctx h : Nat) (f : FwdMsg) : Cand :=
  let cls : BitVec 2 := if b.admittedCtx pctx then 1 else f.cls
  let urg := b.fwdUrgency p cls f
  { shared := false, ctx := pctx % 64, handle := h, intid := f.vintid, key := mkKey cls f.prio urg,
    qkey := mkKey 1 f.prio urg }

/-- The handle that a FWD binds to its proxy. -/
def fwdHandle (f : FwdMsg) (p pctx : Nat) : Handle :=
  { st := .queued, stt := f.domid, mapgen := f.mapgen, gen := f.gen, ctx := pctx % 64, prox := some (p, f.proxy) }

section
variable {b : Blk} {p : Nat} {f : FwdMsg}

/-- A candidate for a context enters its link's queue under the lowest free handle. -/
theorem Blk.enterFwd_eq {pctx h : Nat} (hh : ((b.link (pctx / 64)).freeHandle) = h) : b.enterFwd p pctx f =
    (b.modLink (pctx / 64) (fun l => l.modHandle h (fun _ => fwdHandle f p pctx))).enqueue (pctx / 64) (b.fwdCand p pctx h f) := by
  have hurg : ∀ cls : BitVec 2, (if (b.peer p).offsetOut then b.stampNow - f.stamp else urgency cls b.stampNow f.stamp f.dl) =
      b.fwdUrgency p cls f := fun cls => by
    rw [Blk.fwdUrgency, urgency_eq]
    cases (b.peer p).offsetOut <;> simp
  subst hh
  simp only [Blk.enterFwd, hurg, Blk.fwdCand, fwdHandle]

/-- A FWD for a virtual context that does not run goes back, with OWN (12 R467). -/
theorem Blk.fwdTaken_of_stopped (h : (b.vctx f.domid f.v).run = false ∨ (b.vctx f.domid f.v).sw = true) :
    b.fwdTaken p f = ((b.zSend p (.released f.proxy f.gen)).zSend p (.own f.domid f.v false)).raise 0x7A := by
  have hstops : (!((b.vctx f.domid f.v).run && !(b.vctx f.domid f.v).sw)) = true := by
    rcases h with h | h <;> simp [h]
  simp only [Blk.fwdTaken, hstops, if_true]

theorem Blk.fwdTaken_of_running (hrun : (b.vctx f.domid f.v).run = true) (hsw : (b.vctx f.domid f.v).sw = false)
    (hup : (b.link ((b.vctx f.domid f.v).pctx / 64)).st = .up) : b.fwdTaken p f = b.enterFwd p (b.vctx f.domid f.v).pctx f := by
  have hq : (b.link ((b.vctx f.domid f.v).pctx / 64)).queues = true := by rw [Link.queues, hup]
  simp only [Blk.fwdTaken, hrun, hsw, hq, Bool.not_false, Bool.and_self, Bool.not_true, Bool.false_eq_true, if_false, if_true]

/-! ### WDRAW (12 R470) -/

theorem Blk.wdrawTaken_eq {proxy n h : Nat} {b' : Blk} {gone : Bool} (hh : b.handleOf p proxy = some (n, h))
    (hw : b.withdrawHandle n h = (b', gone)) : b.wdrawTaken p proxy =
      if gone then b'.zSend p (.released proxy ((b.link n).handle h).gen) else b' := by
  simp only [Blk.wdrawTaken, hh, hw]

/-- A queued handle is freed, and its candidate leaves the queue. -/
theorem Blk.withdrawHandle_of_queued {n h : Nat} (hst : ((b.link n).handle h).st = .queued) (hwaits : b.noticeWaits n h = false)
    (hsound : b.lostHandle n h = false) : ∃ b', b.withdrawHandle n h = (b', true) ∧ b.OnLink b' n
      (({ b.link n with outq := (b.link n).outq.filter (fun c => c.handle ≠ h) }).modHandle h (fun _ => {})) := by
  simp only [Blk.withdrawHandle, hst, hwaits, hsound, Bool.or_self, Bool.false_eq_true, if_false]
  exact ⟨_, rfl, (Blk.OnLink.refl b n).modLink _⟩

theorem Blk.OnLink.peer {b0 : Blk} {n : Nat} {l : Link} (h : b0.OnLink b n l) (p : Nat) : b.peer p = b0.peer p := by
  have hpeer := congrArg (fun b => Blk.peer b p) h.rest
  exact hpeer

theorem Link.handle_askBack_self {l : Link} {h : Nat} (hwd : (l.handle h).wd = false) :
    (l.askBack h).handle h = { l.handle h with wd := true } := by
  unfold Link.askBack
  rw [hwd]
  exact l.handle_modHandle_self h (fun x => { x with wd := true })

/-! ### Notices of proxies (12 R469) -/

/-- A proxy toward a peer is named by a link number of 16 and more. -/
theorem Blk.named_proxy (b : Blk) (p k : Nat) : b.named (16 + p) k = tabGet {} (b.peer p).proxies k := by
  rw [Blk.named, if_neg (by omega), Nat.add_sub_cancel_left]

theorem Blk.peer_rebound_proxy (b : Blk) (p h : Nat) (f : Handle → Handle) (d : Dbg) :
    (b.rebound (16 + p) h f d).peer p = { b.peer p with proxies := tabMod {} (b.peer p).proxies h f } := by
  have hmod : b.modNamed (16 + p) h f = b.modPeer p (fun x => { x with proxies := tabMod {} x.proxies h f }) := by
    rw [Blk.modNamed, if_neg (by omega), Nat.add_sub_cancel_left]
  rw [Blk.rebound, hmod]
  exact b.peer_modPeer_self p (fun x => { x with proxies := tabMod {} x.proxies h f })

/-- A proxy that is free admits no notice. -/
theorem Blk.proxyNotice_of_free {m : List Host.Cell} {proxy : Nat} (hfree : (tabGet {} (b.peer p).proxies proxy).st = .free)
    (k : NoticeKind) (gen : BitVec 8) : b.proxyNotice m k gen p proxy = b := by
  simp only [Blk.proxyNotice, Blk.named_proxy, hfree, decide_true, Bool.true_or, if_true]

end

section
variable {b0 : Blk} {p proxy : Nat} {y : Handle} {t : Stt} {gen : BitVec 8}

/-- What a notice makes of the proxy it names, and of the entry of its source. -/
structure Blk.ToldLeaves (b0 b : Blk) (p proxy : Nat) (t : Stt) (y' : Handle) (e' : Entry) : Prop where
  settles : b0.SettlesAt b (tabGet {} (b0.peer p).proxies proxy).stt t e'
  self : tabGet {} (b.peer p).proxies proxy = y'
  others : ∀ k, k ≠ proxy → tabGet {} (b.peer p).proxies k = tabGet {} (b0.peer p).proxies k
  ev : (b.peer p).ev = (b0.peer p).ev.took

variable (hy : tabGet {} (b0.peer p).proxies proxy = y) (hsrc : b0.AtSlot y.stt t) (hmap : y.mapgen = t.mapgen)
  (halone : b0.Alone p proxy) (hgen : gen = (b0.dom t.domid).gen) (hst : y.st ≠ .free)

/-- The block at the moment that a notice of a proxy takes effect. -/
def Blk.atProxy (b : Blk) (p : Nat) (t : Stt) : Blk := (b.heard p).granted (t.slot % 16) 3

include hy hsrc hmap halone hst

/-- A notice of a proxy takes effect at its entry, and then the proxy moves. -/
theorem Blk.proxyNotice_leaves {k : NoticeKind} {f : Handle → Handle} {d : Dbg} {e' : Entry}
    (hdue : (b0.atProxy p t).noticeDue y.stt t (b0.entry t) k (16 + p) proxy 0 gen =
      ((b0.atProxy p t).rebound (16 + p) proxy f d, e')) (m : List Host.Cell) :
    b0.ToldLeaves ((b0.heard p).proxyNotice m k gen p proxy) p proxy t (f y) e' := by
  have hy' : (b0.heard p).named (16 + p) proxy = y := by rw [Blk.named_proxy, Blk.peer_heard, hy]
  have hres : (b0.heard p).Resident y.stt t := hsrc.resident.congr rfl rfl rfl rfl
  have hsound : (b0.heard p).lostHandle (16 + p) proxy = false := halone.2
  have hany : ((b0.heard p).rings.spillq ++ (b0.heard p).rings.spillw).any (fun v => v.names (16 + p) proxy) = false :=
    List.any_eq_false.2 fun v hv => by rw [halone.1 v hv]; decide
  let u : Upd := { stt := y.stt, mapgen := y.mapgen, kind := .notice k (16 + p) proxy 0 gen }
  have hbody : (b0.atProxy p t).updBody m (t.slot % 16) u t (b0.entry t) =
      some ((b0.atProxy p t).rebound (16 + p) proxy f d, e') := congrArg some hdue
  have hupd : (b0.heard p).update m u 3 = some (((b0.atProxy p t).rebound (16 + p) proxy f d).settled y.stt t e') := by
    refine (hres.update_eq rfl hmap m 3).trans ?_
    show Option.map _ ((b0.atProxy p t).updBody m (t.slot % 16) u t (b0.entry t)) = _
    rw [hbody, Option.map_some, Blk.stamped_of_not_writesGen rfl]
  have hnotice : (b0.heard p).proxyNotice m k gen p proxy = ((b0.atProxy p t).rebound (16 + p) proxy f d).settled y.stt t e' := by
    simp only [Blk.proxyNotice, hy', hsound, hst, decide_false, Bool.or_self, Bool.false_eq_true, if_false, Blk.peerNotice,
      hres.not_spilled (u := u) rfl, hany, hupd, u]
  have hpeer : (b0.atProxy p t).peer p = { b0.peer p with ev := (b0.peer p).ev.took } := b0.peer_heard p
  rw [hnotice]
  refine ⟨?_, ?_, fun j hj => ?_, ?_⟩
  · rw [hy]
    refine Blk.settlesAt_settled hsrc.resident.valid ?_ ?_ _ _
    · rw [Blk.dom_rebound]; exact hsrc.acts
    · rw [Blk.rank_rebound]; rfl
  · rw [Blk.peer_settled, Blk.peer_rebound_proxy, hpeer, tabGet_tabMod_self, hy]
  · rw [Blk.peer_settled, Blk.peer_rebound_proxy, hpeer, tabGet_tabMod_ne _ _ _ hj]
  · rw [Blk.peer_settled, Blk.peer_rebound_proxy, hpeer]

end

/-! ### The rows -/

section
variable {b0 : Blk} {p proxy : Nat} {y : Handle} {t : Stt} {gen : BitVec 8} (m : List Host.Cell)
  (hy : tabGet {} (b0.peer p).proxies proxy = y) (hsrc : b0.AtSlot y.stt t) (hmap : y.mapgen = t.mapgen)
  (halone : b0.Alone p proxy) (hgen : gen = (b0.dom t.domid).gen)
include hy hsrc hmap halone hgen

theorem Blk.proxy_released (hst : y.st = .standing) (hshr : y.shr = false) :
    b0.ToldLeaves ((b0.heard p).proxyNotice m .released gen p proxy) p proxy t {} (copiesGone (b0.entry t)) := by
  have hx : (b0.atProxy p t).named (16 + p) proxy = y := (Blk.named_proxy _ p proxy).trans (by
    rw [← hy]; exact congrArg (fun x : Peer => tabGet {} x.proxies proxy) (b0.peer_heard p))
  obtain ⟨d, hdue⟩ := Blk.noticeDue_released (b := b0.atProxy p t) (c := 0) (e := b0.entry t) halone.2 hx hmap hgen hst hshr
  exact Blk.proxyNotice_leaves hy hsrc hmap halone (by rw [hst]; decide) hdue m

theorem Blk.proxy_claimed (hst : y.st = .standing) (hshr : y.shr = false) :
    b0.ToldLeaves ((b0.heard p).proxyNotice m .claimed gen p proxy) p proxy t (y.claimedAt 0)
      (claimEntry (t.kind = .level) b0.stampNow (b0.entry t)) := by
  have hx : (b0.atProxy p t).named (16 + p) proxy = y := (Blk.named_proxy _ p proxy).trans (by
    rw [← hy]; exact congrArg (fun x : Peer => tabGet {} x.proxies proxy) (b0.peer_heard p))
  obtain ⟨d, hdue⟩ := Blk.noticeDue_claimed (b := b0.atProxy p t) (c := 0) (e := b0.entry t) halone.2 hx hmap hgen hst hshr
  exact Blk.proxyNotice_leaves hy hsrc hmap halone (by rw [hst]; decide) hdue m

theorem Blk.proxy_completed (hst : y.st = .active) :
    b0.ToldLeaves ((b0.heard p).proxyNotice m .complete gen p proxy) p proxy t {}
      (completeEntry (t.kind = .level) (b0.entry t)) := by
  have hx : (b0.atProxy p t).named (16 + p) proxy = y := (Blk.named_proxy _ p proxy).trans (by
    rw [← hy]; exact congrArg (fun x : Peer => tabGet {} x.proxies proxy) (b0.peer_heard p))
  obtain ⟨d, hdue⟩ := Blk.noticeDue_complete (b := b0.atProxy p t) (c := 0) (e := b0.entry t) halone.2 hx hmap hgen hst
  exact Blk.proxyNotice_leaves hy hsrc hmap halone (by rw [hst]; decide) hdue m

end

theorem exec_fwd {s : State} {p seq : Nat} (h : s.blk.Hears p true seq) (f : FwdMsg) :
    exec (.fwd p seq f) s = s.becomes ((s.blk.heard p).fwdTaken p f) := congrArg s.becomes (h.zTake_eq s.mem _)

theorem exec_zblWdraw {s : State} {p seq : Nat} (h : s.blk.Hears p true seq) (proxy : Nat) :
    exec (.zblWdraw p seq proxy) s = s.becomes ((s.blk.heard p).wdrawTaken p proxy) := congrArg s.becomes (h.zTake_eq s.mem _)

/-- Settles O47: every message is in sequence, and takes its effect on the block that heard it. -/
theorem forwardedCandidatesAndProxies : Obligations.ForwardedCandidatesAndProxies := by
  unfold Obligations.ForwardedCandidatesAndProxies
  intro s p seq hears b0 x
  have htake : ∀ f : Blk → Blk, s.becomes (b0.zTake s.mem p true seq f) = s.becomes (f (b0.heard p)) :=
    fun f => congrArg s.becomes (hears.zTake_eq s.mem f)
  refine ⟨?fwd, ?wdraw, ?notices⟩
  case fwd =>
    intro f v n l
    have hexec := exec_fwd hears f
    refine ⟨fun hstop => ?_, ?_⟩
    · have hstopped := Blk.fwdTaken_of_stopped (b := b0.heard p) (p := p) hstop
      refine ⟨_, hexec.trans (congrArg s.becomes hstopped), ?_, ?_, ?_⟩
      · rw [Blk.links_raise, Blk.links_zSend, Blk.links_zSend]
        rfl
      · rw [Blk.peer_raise, Blk.peer_zSend_control _ _ rfl, Blk.peer_zSend_event _ _ rfl, Blk.peer_heard]
      · rw [Blk.reports_raise, Blk.lane_zSend, Blk.lane_zSend]
        rfl
    · intro h before after hrun hsw hup hh hfree hlow hq hroom cls elapsed urg c hbefore hafter
      have hc : (b0.heard p).fwdCand p v.pctx h f = c := by
        have hout : ((b0.heard p).peer p).offsetOut = x.offsetOut := by rw [Blk.peer_heard]
        simp only [Blk.fwdCand, Blk.fwdUrgency, Blk.admittedCtx_heard, hout]
        rfl
      let b1 := (b0.heard p).modLink n (fun l => l.modHandle h (fun _ => fwdHandle f p v.pctx))
      have hruns : (b0.heard p).fwdTaken p f = b1.enqueue n c := by
        rw [Blk.fwdTaken_of_running (b := b0.heard p) hrun hsw hup, Blk.vctx_heard,
          Blk.enterFwd_eq (Link.freeHandle_eq (l := (b0.heard p).link n) hh hfree hlow), ← hc]
      have hlink1 : b1.link n = l.modHandle h (fun _ => fwdHandle f p v.pctx) := Blk.link_modLink_self _ n _
      obtain ⟨henq, houtq⟩ := Blk.outq_enqueue (b := b1) (n := n) (c := c) (before := before) (after := after)
        (by rw [hlink1]; exact hq) (by rw [hlink1]; exact hroom) hbefore hafter
      have hhandle : ∀ j, ((b1.enqueue n c).link n).handle j = (l.modHandle h (fun _ => fwdHandle f p v.pctx)).handle j := fun j => by
        rw [henq, Blk.link_modLink_self, hlink1]
        rfl
      refine ⟨_, hexec.trans (congrArg s.becomes hruns), houtq, ?_, fun j hj => ?_, ?_⟩
      · rw [hhandle, Link.handle_modHandle_self]
        rfl
      · rw [hhandle, Link.handle_modHandle, if_neg hj]
      · rw [henq]
        exact b0.peer_heard p
  case wdraw =>
    intro proxy n h hof y
    refine ⟨fun hst hwaits hsound => ?_, fun hst hwd => ?_⟩
    · obtain ⟨b', hw, hon⟩ := Blk.withdrawHandle_of_queued (b := b0.heard p) hst hwaits hsound
      have htaken := (Blk.wdrawTaken_eq (b := b0.heard p) hof hw).trans (if_pos rfl)
      refine ⟨_, (exec_zblWdraw hears proxy).trans (congrArg s.becomes htaken), ?_, ?_, ?_⟩
      · rw [Blk.link_zSend, hon.self]; exact Link.handle_modHandle_self _ h _
      · rw [Blk.link_zSend, hon.self]; rfl
      · rw [Blk.peer_zSend_event _ _ rfl, hon.peer, Blk.peer_heard]; rfl
    · obtain ⟨b', hw, hon⟩ := Blk.withdrawHandle_of_standing (b := b0.heard p) (n := n) (h := h) hst
      have htaken := Blk.wdrawTaken_eq (b := b0.heard p) hof hw
      refine ⟨b', (exec_zblWdraw hears proxy).trans (congrArg s.becomes htaken), ?_, ?_, ?_⟩
      · rw [hon.self]; exact Link.handle_askBack_self hwd
      · rw [hon.self]; exact (Link.askBack_of_standing hwd).1
      · rw [hon.peer, Blk.peer_heard]
  case notices =>
    intro proxy t y e gen told
    have htold : ∀ {k y' e'} (c : Instr), exec c s = s.becomes ((b0.heard p).proxyNotice s.mem k gen p proxy) →
        b0.ToldLeaves ((b0.heard p).proxyNotice s.mem k gen p proxy) p proxy t y' e' → told c y' e' :=
      fun c hexec h => ⟨_, hexec, h.settles, h.self, h.others, h.ev⟩
    refine ⟨fun hsrc hmap hshr halone => ⟨fun hst => ?_, fun hst pend hpend => ?_, fun hst => ?_⟩, fun c hc hfree => ?_⟩
    · exact htold _ (htake (fun b => b.proxyNotice s.mem .released gen p proxy))
        (Blk.proxy_released s.mem rfl hsrc hmap halone rfl hst hshr)
    · have h := Blk.proxy_claimed s.mem rfl hsrc hmap halone (gen := gen) rfl hst hshr
      have hp : (if decide (t.kind = .level) = true then e.lvl else e.rpt) = pend := by rw [hpend]; simp
      rw [claimEntry, hp] at h
      exact htold _ (htake (fun b => b.proxyNotice s.mem .claimed gen p proxy)) h
    · have h := Blk.proxy_completed s.mem rfl hsrc hmap halone (gen := gen) rfl hst
      have hp : (if decide (t.kind = .level) = true then e.lvl else e.pend) = if t.kind = .level then e.lvl else e.pend := by simp
      rw [completeEntry, hp] at h
      exact htold _ (htake (fun b => b.proxyNotice s.mem .complete gen p proxy)) h
    · have hfree' : (tabGet {} ((b0.heard p).peer p).proxies proxy).st = .free := by rw [Blk.peer_heard]; exact hfree
      have hkept : ∀ k, exec c s = s.becomes ((b0.heard p).proxyNotice s.mem k gen p proxy) →
          ∃ b, exec c s = s.becomes b ∧ b.peer p = { x with ev := x.ev.took } ∧ b.sram = b0.sram := fun k hexec =>
        ⟨_, hexec.trans (congrArg s.becomes (Blk.proxyNotice_of_free hfree' k gen)), b0.peer_heard p, rfl⟩
      simp only [List.mem_cons, List.not_mem_nil, or_false] at hc
      rcases hc with rfl | rfl | rfl
      · exact hkept .released (htake _)
      · exact hkept .claimed (htake _)
      · exact hkept .complete (htake _)

end Sys2Proof.Machine

/-! A descriptor taken from a manager ring, and the completion record that answers it (10 R366 to R379, R395, R402). -/
namespace Sys2Proof.Machine
open Sys2Proof

/-! ### Parts of a line put in their place -/

theorem lineWord_lineSetHalf (l d : BitVec 512) {h k : Nat} (hh : h < 2) (hk : k < 8) :
    lineWord (lineSetHalf l h (d.setWidth 256)) (8 * h + k) = lineWord d k := by
  apply BitVec.eq_of_getLsbD_eq
  intro j hj
  have hword : 32 * (8 * h + k) + j = 256 * h + (32 * k + j) := by omega
  have hin : 32 * k + j < 256 := by omega
  have hline : 256 * h + (32 * k + j) < 512 := by omega
  simp only [lineWord, lineSetHalf, BitVec.getLsbD_extractLsb', hword, BitVec.getLsbD_or, BitVec.getLsbD_and,
    BitVec.getLsbD_not, BitVec.getLsbD_shiftLeft, BitVec.getLsbD_setWidth, BitVec.getLsbD_allOnes]
  simp [hj, hin, hline, hin.trans (show 256 < 512 by decide)]

theorem lineDword_lineSetDword (l : BitVec 512) {k : Nat} (d : Dword) (hk : k < 8) : lineDword (lineSetDword l k d) k = d := by
  apply BitVec.eq_of_getLsbD_eq
  intro j hj
  have hline : 64 * k + j < 512 := by omega
  simp only [lineDword, lineSetDword, BitVec.getLsbD_extractLsb', BitVec.getLsbD_or, BitVec.getLsbD_and,
    BitVec.getLsbD_not, BitVec.getLsbD_shiftLeft, BitVec.getLsbD_setWidth, BitVec.getLsbD_allOnes]
  simp [hj, hline, hj.trans (show 64 < 512 by decide)]

/-- Two fields side by side, the upper one of eight bits. -/
theorem pack_pair (a b w : Nat) : pack [(a, w, 0), (b, 8, w)] = a % 2 ^ w + b % 256 * 2 ^ w := by
  have hlow : a % 2 ^ w < 2 ^ w := Nat.mod_lt _ (Nat.two_pow_pos w)
  simp only [pack, List.foldl_cons, List.foldl_nil, Nat.zero_or, Nat.shiftLeft_zero]
  rw [Nat.or_comm, ← Nat.shiftLeft_add_eq_or_of_lt hlow, Nat.shiftLeft_eq, Nat.add_comm]
  rfl

/-- Two fields of sixteen bits side by side. -/
theorem pack_halves (a b : Nat) : pack [(a, 16, 0), (b, 16, 16)] = a % 65536 + b % 65536 * 65536 := by
  have hlow : a % 2 ^ 16 < 2 ^ 16 := Nat.mod_lt _ (by decide)
  simp only [pack, List.foldl_cons, List.foldl_nil, Nat.zero_or, Nat.shiftLeft_zero]
  rw [Nat.or_comm, ← Nat.shiftLeft_add_eq_or_of_lt hlow, Nat.shiftLeft_eq, Nat.add_comm]
  rfl

/-! ### A record written at once (10 R395, R402) -/

/-- A record of the line `line` can be written at once, the Line Cache being DISABLED. -/
structure Blk.RoomFor (b : Blk) (line : Nat) : Prop where
  noInject : b.inj.arm = []
  noCache : b.lc.st = .disabled
  noRecs : b.fp.recs = []
  noFail : b.fp.fail = []
  noWrites : ∀ w ∈ b.fp.out, w.buf = false
  few : b.lc.bufs.length < 4
  apart : ∀ l ∈ b.lc.bufs, l.line ≠ line

/-- The block after a completion record of manager ring `k` was issued in the line `line`, with the data `d`. -/
def Blk.recorded (b : Blk) (k line : Nat) (d : BitVec 512) : Blk :=
  (({ b with lc := b.lc.miss } : Blk).issue line d (.completion (.mgr k)) true).raise (0x8A + k / 2)

section
variable {b : Blk} {line : Nat}

theorem LCache.on_of_disabled {c : LCache} (h : c.st = .disabled) : c.on = false := by simp [LCache.on, h]

theorem Blk.lbufs_of_noWrites (h : ∀ w ∈ b.fp.out, w.buf = false) : b.lbufs = b.lc.bufs.length := by
  have hnone : b.fp.out.filter (·.buf) = [] := by
    rw [List.filter_eq_nil_iff]
    exact fun w hw => by simp [h w hw]
  rw [Blk.lbufs, hnone, List.length_nil, Nat.add_zero]

theorem Blk.inBuf_of_noWrites (h : ∀ w ∈ b.fp.out, w.buf = false) (hb : ∀ l ∈ b.lc.bufs, l.line ≠ line) :
    b.inBuf line = false := by
  rw [Blk.inBuf, Bool.or_eq_false_iff, List.any_eq_false, List.any_eq_false]
  exact ⟨fun l hl => by simp [hb l hl], fun w hw => by simp [h w hw]⟩

theorem Blk.readRetries_of_noFail (harm : b.inj.arm = []) (hfail : b.fp.fail = []) : b.readRetries line = b := by
  simp [Blk.readRetries, Blk.injHit_of_noArm harm, hfail]

/-- With the cache DISABLED a record passes through a line buffer. -/
theorem Blk.RoomFor.writeRec {addr k : Nat} (h : b.RoomFor (addr / 64)) (m : List Host.Cell) (ws : List Word) :
    ∃ l, b.writeRec m addr ws (.completion (.mgr k)) =
      b.recorded k (addr / 64) (lineSetHalf l (addr / 32 % 2) ((lineOfWords ws).setWidth 256)) := by
  have hoff := LCache.on_of_disabled h.noCache
  have hready : b.recReady (addr / 64) = true := by
    simp [Blk.recReady, hoff, Blk.lbufs_of_noWrites h.noWrites, h.few, Blk.inBuf_of_noWrites h.noWrites h.apart]
  have htake : b.takeLine m (addr / 64) = ({ b with lc := b.lc.miss }, ({ b with lc := b.lc.miss } : Blk).hostLine m (addr / 64)) := by
    have hretry : ({ b with lc := b.lc.miss } : Blk).readRetries (addr / 64) = { b with lc := b.lc.miss } :=
      Blk.readRetries_of_noFail h.noInject h.noFail
    have hmiss : b.lc.miss.on = false := hoff
    cases hfind : b.lc.find (addr / 64) <;> simp [Blk.takeLine, hfind, hoff, hmiss, hretry]
  refine ⟨({ b with lc := b.lc.miss } : Blk).hostLine m (addr / 64), ?_⟩
  have hmiss : b.lc.miss.on = false := hoff
  simp [Blk.writeRec, h.noRecs, hready, Blk.recWrite, Blk.writeThrough, htake, LCache.update, hmiss, Blk.recNote,
    Blk.recorded]

end

/-! ### The completion record (10 Table 10-6, R379) -/

/-- Host address of the next completion record of a ring. -/
def Blk.cplAddr (b : Blk) (r : RingId) : Nat := (b.pair r).cpl.addr 32 (b.pair r).cpl.w

/-- The ring pair after a record was given its place. -/
def Pair.recorded (p : Pair) : Pair := { p with cpl := { p.cpl with w := seqInc p.cpl.w } }

/-- Between two blocks the stores that hold sources, slots and their bits, and the line buffers, are the same. -/
structure Blk.SameStores (b b' : Blk) : Prop where
  sram : b'.sram = b.sram
  ecc : b'.ecc = b.ecc
  rank : b'.rank = b.rank
  bufs : b'.lc.bufs = b.lc.bufs
  spillBits : b'.rings.spillBits = b.rings.spillBits
  frozenBits : b'.rings.frozenBits = b.rings.frozenBits

section
variable {b b' : Blk} {k : Nat}

theorem Blk.SameStores.stt (h : b.SameStores b') (i : Nat) : b'.stt i = b.stt i := by
  rw [Blk.stt, Blk.stt, h.sram, h.ecc]

theorem Blk.SameStores.slot (h : b.SameStores b') (n : Nat) : b'.slot n = b.slot n := by
  rw [Blk.slot, Blk.slot, h.sram]

theorem Blk.Records.of_cpl {b0 b1 : Blk} {r : RingId} {dseq op tag st detail : Nat} {res : List Word}
    (h : b1.Records b r dseq op tag st detail res) (hcpl : (b1.pair r).cpl = (b0.pair r).cpl) :
    b0.Records b r dseq op tag st detail res := by
  unfold Blk.Records at h ⊢
  rw [← hcpl]
  exact h

/-- The words of a completion record before its CHECK. -/
def cplWords (n dseq op tag st detail : Nat) (res : List Word) : List Word :=
  [BitVec.ofNat 32 (n % 2 ^ 24 + st % 256 * 2 ^ 24), BitVec.ofNat 32 (dseq % 2 ^ 24 + op % 256 * 2 ^ 24),
   BitVec.ofNat 32 (tag % 65536 + detail % 65536 * 65536), res.getD 0 0, res.getD 1 0, res.getD 2 0, res.getD 3 0]

theorem Blk.completeDesc_eq (harm : b.inj.arm = []) (m : List Host.Cell) {d : Desc} (hring : d.ring = .mgr k) (st : Status)
    (detail : Nat) (res : List Word) :
    b.completeDesc m d st detail res = (b.modPair (.mgr k) Pair.recorded).writeRec m (b.cplAddr (.mgr k))
      (let ws := cplWords (b.pair (.mgr k)).cpl.w d.seq d.op d.tag st.code detail res
       ws ++ [entryCheck (b.pair (.mgr k)).cpl.w 2 (b.cplAddr (.mgr k)) ws]) (.completion (.mgr k)) := by
  have hinj : b.injHit 12 0 = false := Blk.injHit_of_noArm harm 12 0
  simp only [Blk.completeDesc, Blk.complete, hring, hinj, pack_pair, pack_halves]
  rfl

theorem Blk.RoomFor.modPair {line : Nat} (h : b.RoomFor line) (f : Pair → Pair) : (b.modPair (.mgr k) f).RoomFor line :=
  ⟨h.noInject, h.noCache, h.noRecs, h.noFail, h.noWrites, h.few, h.apart⟩

/-- A descriptor's answer is written at once where its line has room; nothing else of the stores changes. -/
theorem Blk.RoomFor.completeDesc (h : b.RoomFor (b.cplAddr (.mgr k) / 64)) (m : List Host.Cell) {d : Desc}
    (hring : d.ring = .mgr k) (st : Status) (detail : Nat) (res : List Word) :
    b.Records (b.completeDesc m d st detail res) (.mgr k) d.seq d.op d.tag st.code detail res ∧
    (b.completeDesc m d st detail res).pair (.mgr k) = (b.pair (.mgr k)).recorded ∧
    b.SameStores (b.completeDesc m d st detail res) := by
  rw [Blk.completeDesc_eq h.noInject m hring]
  obtain ⟨l, hl⟩ := (h.modPair Pair.recorded).writeRec (k := k) m
    (let ws := cplWords (b.pair (.mgr k)).cpl.w d.seq d.op d.tag st.code detail res
     ws ++ [entryCheck (b.pair (.mgr k)).cpl.w 2 (b.cplAddr (.mgr k)) ws])
  rw [hl]
  have hpair (line : Nat) (x : BitVec 512) :
      ((b.modPair (.mgr k) Pair.recorded).recorded k line x).pair (.mgr k) = (b.pair (.mgr k)).recorded :=
    Blk.pair_modPair_self b (.mgr k) Pair.recorded
  have hword (ws : List Word) {j : Nat} (hj : j < 8) :
      lineWord (lineSetHalf l (b.cplAddr (.mgr k) / 32 % 2) ((lineOfWords ws).setWidth 256))
        (8 * (b.cplAddr (.mgr k) / 32 % 2) + j) = ws.getD j 0 := by
    rw [lineWord_lineSetHalf _ _ (Nat.mod_lt _ (by decide)) hj, lineWord_ofWords _ _ (by omega)]
  refine ⟨⟨?_, _, List.mem_append_right _ (List.mem_singleton_self _), rfl, rfl, fun j hj => ?_, ?_⟩, hpair _ _,
    ⟨rfl, rfl, rfl, rfl, rfl, rfl⟩⟩
  · rw [hpair]
    rfl
  · refine (hword _ (by omega)).trans ?_
    exact List.getD_append _ _ _ _ hj
  · exact hword _ (by decide)

end

/-! ### The fetch (10 R367, R374) -/

/-- The block once manager ring `k` has fetched its descriptor. -/
def Blk.fetched (b : Blk) (k : Nat) : Blk :=
  ({ b with lc := b.lc.miss } : Blk).modPair (.mgr k) (fun p => { p with cmd := { p.cmd with r := seqInc (b.pair (.mgr k)).cmd.r } })

section
variable {b : Blk} {m : List Host.Cell} {k op : Nat} {d : Desc}

theorem Blk.pair_fetched : (b.fetched k).pair (.mgr k) =
    { b.pair (.mgr k) with cmd := { (b.pair (.mgr k)).cmd with r := seqInc (b.pair (.mgr k)).cmd.r } } :=
  Blk.pair_modPair_self _ _ _

theorem Blk.stt_fetched (i : Nat) : (b.fetched k).stt i = b.stt i := rfl

theorem Blk.slot_fetched (n : Nat) : (b.fetched k).slot n = b.slot n := rfl

theorem Blk.hostLine_fetched (line : Nat) : (b.fetched k).hostLine m line = b.hostLine m line := rfl

theorem Blk.sstLine_fetched (i : Nat) : (b.fetched k).sstLine i = b.sstLine i := rfl

theorem Blk.hasCopies_fetched (i : Nat) (mg : BitVec 8) : (b.fetched k).hasCopies i mg = b.hasCopies i mg := rfl

theorem Blk.Writes.fetched (h : b.Writes) : (b.fetched k).Writes :=
  ⟨h.noInject, h.noCache, h.noHeld, h.noBufs, h.noWrites, h.noRecs, h.noFail⟩

theorem Blk.Fetches.canFetch (h : b.Fetches (.mgr k)) (op : Nat) : b.canFetch (.mgr k) op = true := by
  have hbufs : b.lbufs = 0 := by rw [Blk.lbufs_of_noWrites h.noWrites, h.noBufs, List.length_nil]
  have hroom : seqDist (b.pair (.mgr k)).cpl.r (b.pair (.mgr k)).cpl.w < (b.pair (.mgr k)).cpl.size := h.room
  simp [Blk.canFetch, h.awake, Blk.clientUp, h.client, h.enabled, Blk.fetchOpen, h.waits, hbufs, h.idle, hroom,
    Blk.cplWaits, h.noRecs]

theorem Blk.Fetches.readOnce (h : b.Fetches (.mgr k)) (line : Nat) :
    b.readOnce m line = ({ b with lc := b.lc.miss }, some (b.hostLine m line)) := by
  have hfails : ({ b with lc := b.lc.miss } : Blk).readFails line = false := by
    have hinj : ({ b with lc := b.lc.miss } : Blk).injHit 10 0 = false := Blk.injHit_of_noArm h.noInject 10 0
    simp [Blk.readFails, hinj, h.noFail]
  simp [Blk.readOnce, hfails]
  rfl

theorem Blk.Fetches.spillHolds (h : b.Fetches (.mgr k)) (op : Nat) : b.spillHolds op = false := by
  have hprog := h.noSpill
  unfold OpProg.spilling at hprog
  unfold Blk.spillHolds
  split at hprog
  · contradiction
  · simp_all

theorem Blk.Takes.ring (h : b.Takes m k op d) : d.ring = .mgr k := by rw [← h.at']; rfl

theorem Blk.Takes.seq (h : b.Takes m k op d) : d.seq = (b.pair (.mgr k)).cmd.r := by rw [← h.at']; rfl

/-- The descriptor taken from a manager ring is executed as its command. -/
theorem Blk.Takes.descRow (h : b.Takes m k op d) (hop : listedOp op = true) (cmd : Cmd) :
    b.descRow m (.mgr k) op cmd = (cmd m d (b.fetched k)).1.reply m d (cmd m d (b.fetched k)).2 := by
  obtain ⟨fs, hfields, hreserved⟩ := h.formed
  have hdesc : ({ ring := .mgr k, seq := (b.pair (.mgr k)).cmd.r,
                  line := b.hostLine m ((b.pair (.mgr k)).cmd.addr 64 (b.pair (.mgr k)).cmd.r / 64) } : Desc) = d := h.at'
  have hline : b.hostLine m ((b.pair (.mgr k)).cmd.addr 64 (b.pair (.mgr k)).cmd.r / 64) = d.line := congrArg Desc.line hdesc
  have hinj : ({ b with lc := b.lc.miss } : Blk).injHit 11 0 = false := Blk.injHit_of_noArm h.noInject 11 0
  have hsound : entryCheck (b.pair (.mgr k)).cmd.r 1 ((b.pair (.mgr k)).cmd.addr 64 (b.pair (.mgr k)).cmd.r)
      ((List.range 15).map (lineWord d.line)) = lineWord d.line 15 := by
    have := h.sound
    rw [Blk.Sealed, h.ring, h.seq] at this
    exact this
  have hpermitted : d.permitted = true := by simp [Desc.permitted, Desc.manager, h.ring]
  have hexamine : (b.fetched k).examine m d cmd = (cmd m d (b.fetched k)).1.reply m d (cmd m d (b.fetched k)).2 := by
    have hspill : (b.fetched k).spillHolds d.op = false := h.toFetches.spillHolds d.op
    simp [Blk.examine, hpermitted, hfields, hreserved, hspill]
  rw [← hexamine]
  have hfetch : b.fetch m (.mgr k) op cmd = (b.fetched k).examine m d cmd := by
    simp only [Blk.fetch, h.canFetch, h.toFetches.readOnce, hline, hinj]
    rw [hline] at hdesc
    simp [hsound, hdesc, h.code, hop]
    rfl
  rw [← hfetch]
  simp [Blk.descRow, h.idle]

/-- A command that is done answers its descriptor, where its completion record has room. -/
theorem Blk.Takes.answers (h : b.Takes m k op d) (hop : listedOp op = true) {c : Blk} {st : Status} {detail : Nat}
    {res : List Word} (hcmd : cmdOf op m d (b.fetched k) = (c, .done st detail res))
    (hpair : c.rings.mgr = (b.fetched k).rings.mgr) (hroom : c.RoomFor (b.cplAddr (.mgr k) / 64)) :
    b.Answers (b.descRow m (.mgr k) op (cmdOf op)) d st.code detail res ∧
    c.SameStores (b.descRow m (.mgr k) op (cmdOf op)) := by
  have hc : c.pair (.mgr k) = (b.fetched k).pair (.mgr k) := by rw [Blk.pair, Blk.pair, hpair]
  have haddr : c.cplAddr (.mgr k) = b.cplAddr (.mgr k) := by rw [Blk.cplAddr, Blk.cplAddr, hc, Blk.pair_fetched]
  obtain ⟨hrec, hafter, hstores⟩ := Blk.RoomFor.completeDesc (haddr ▸ hroom) m h.ring st detail res
  rw [h.descRow hop, hcmd]
  refine ⟨⟨?_, ?_, ?_⟩, hstores⟩
  · rw [h.ring]
    exact hrec.of_cpl (by rw [hc, Blk.pair_fetched])
  · rw [h.ring, h.seq]
    refine (congrArg Pair.cmd hafter).trans ?_
    rw [hc, Blk.pair_fetched]
    rfl
  · rw [h.ring]
    refine (congrArg Pair.exec hafter).trans ?_
    rw [hc, Blk.pair_fetched]
    exact h.idle

end

end Sys2Proof.Machine

/-! Sources mapped, unmapped and moved between the State Store and the Spill State Table (03 R85, R119; 04 R133, R160, R161;
10 R377, R380). -/
namespace Sys2Proof.Machine
open Sys2Proof

/-! ### A Spill State line taken through a line buffer (10 R397, R402) -/

/-- What a block must keep of one in which records are written at once, so that a completion record still has room. -/
theorem Blk.Writes.roomFor {b c : Blk} {line : Nat} (h : b.Writes) (hinj : c.inj = b.inj) (hfp : c.fp = b.fp)
    (hst : c.lc.st = b.lc.st) (hfew : c.lc.bufs.length < 4) (hapart : ∀ l ∈ c.lc.bufs, l.line ≠ line) : c.RoomFor line :=
  ⟨hinj ▸ h.noInject, hst.trans h.noCache, hfp ▸ h.noRecs, hfp ▸ h.noFail, hfp ▸ h.noWrites, hfew, hapart⟩

section
variable {b : Blk} {m : List Host.Cell} {i line : Nat}

/-- One line buffer is occupied, by `l`. -/
def Blk.buffered (b : Blk) (l : CLine) : Blk := { b with lc := { b.lc with bufs := [l] } }

theorem Blk.preparedSlot_of_noSession (h : b.rings.session = none) : b.preparedSlot i = none := by
  simp [Blk.preparedSlot, h]

theorem Blk.mirror_of_noSession (h : b.rings.session = none) (e : Entry) : b.mirror i e = b := by
  simp [Blk.mirror, Blk.preparedSlot_of_noSession h]

theorem Blk.Writes.on (h : b.Writes) : b.lc.on = false := LCache.on_of_disabled h.noCache

theorem Blk.Writes.heldBuf (h : b.Writes) : b.lc.heldBuf line = none := by simp [LCache.heldBuf, h.noBufs]

theorem Blk.Writes.miss (h : b.Writes) : ({ b with lc := b.lc.miss } : Blk).Writes :=
  ⟨h.noInject, h.noCache, h.noHeld, h.noBufs, h.noWrites, h.noRecs, h.noFail⟩

theorem Blk.Writes.sstFill (h : b.Writes) : b.sstFill m line = some { b with lc := b.lc.miss } := by
  have hbufs : b.lbufs = 0 := by rw [Blk.lbufs_of_noWrites h.noWrites, h.noBufs, List.length_nil]
  have hfree : b.inBuf line = false := Blk.inBuf_of_noWrites h.noWrites (by simp [h.noBufs])
  simp [Blk.sstFill, Blk.sstReady, h.heldBuf, h.on, hbufs, hfree]

/-- The line of an entry after the entry was written in it. -/
def Blk.spillLine (b : Blk) (m : List Host.Cell) (i : Nat) (e : Entry) : CLine :=
  { line := b.sstLine i, data := lineSetDword (b.hostLine m (b.sstLine i)) (i % 8) (encodeEntry e), dirty := true }

theorem Blk.lineDword_spillLine (b : Blk) (m : List Host.Cell) (i : Nat) (e : Entry) :
    lineDword (b.spillLine m i e).data (i % 8) = encodeEntry e := lineDword_lineSetDword _ _ (Nat.mod_lt _ (by decide))

theorem Blk.Writes.sstWrite (h : b.Writes) (hs : b.rings.session = none) (e : Entry) :
    b.sstWrite m i e = b.buffered (b.spillLine m i e) := by
  simp [Blk.sstWrite, Blk.mirror_of_noSession hs, h.heldBuf, h.on, Blk.sstData, h.noBufs]
  rfl

/-- The line held while its source moves. -/
def Blk.heldLine (b : Blk) (m : List Host.Cell) (line : Nat) : CLine := { line := line, data := b.hostLine m line, held := true }

theorem Blk.Writes.holdLine (h : b.Writes) :
    b.holdLine m line = some (({ b with lc := b.lc.miss } : Blk).buffered (b.heldLine m line)) := by
  have hheld : b.lc.miss.isHeld line = false := by
    simp only [LCache.isHeld, LCache.miss, h.noBufs, List.append_nil, List.any_eq_false]
    exact fun l hl => by simp [h.noHeld l hl]
  have hcount : b.lc.miss.heldCount = 0 := by
    have hlines : b.lc.lines.filter (·.held) = [] := List.filter_eq_nil_iff.2 fun l hl => by simp [h.noHeld l hl]
    simp [LCache.heldCount, LCache.miss, h.noBufs, hlines]
  have hbufs : b.lc.miss.bufs = [] := h.noBufs
  simp [Blk.holdLine, h.sstFill, hheld, hcount, h.miss.on, hbufs]
  rfl

theorem Blk.heldBuf_buffered {l : CLine} (hl : l.held = true) : (b.buffered l).lc.heldBuf l.line = some l := by
  simp [LCache.heldBuf, Blk.buffered, hl]

/-- A line in a buffer is read there. -/
theorem Blk.sstData_buffered {l : CLine} (hl : l.held = true) : (b.buffered l).sstData m l.line = l.data := by
  simp [Blk.sstData, Blk.heldBuf_buffered hl]

theorem Blk.sstWrite_held (hs : b.rings.session = none) (e : Entry) :
    (b.buffered (b.heldLine m (b.sstLine i))).sstWrite m i e = b.buffered { b.spillLine m i e with held := true } := by
  have hdata := Blk.sstData_buffered (b := b) (m := m) (l := b.heldLine m (b.sstLine i)) rfl
  have hbuf := Blk.heldBuf_buffered (b := b) (l := b.heldLine m (b.sstLine i)) rfl
  have hline : (b.buffered (b.heldLine m (b.sstLine i))).sstLine i = (b.heldLine m (b.sstLine i)).line := rfl
  have hmirror := Blk.mirror_of_noSession (b := b.buffered (b.heldLine m (b.sstLine i))) (i := i) hs e
  simp only [Blk.sstWrite, hmirror, hline, hdata, hbuf]
  simp [Blk.buffered, Blk.heldLine, Blk.spillLine]

theorem Blk.moveHolds_of_noSession (h : b.rings.session = none) : b.moveHolds line = false := by simp [Blk.moveHolds, h]

/-- The Line Cache holds these lines, and the line buffers these. -/
def Blk.withLines (b : Blk) (ls bufs : List CLine) : Blk := { b with lc := { b.lc with lines := ls, bufs := bufs } }

/-- The end of a hold: lines of the cache change in their marks alone, a changed line in a buffer stays, an unchanged one
goes. -/
theorem Blk.unholdLine_buffered {l : CLine} (hs : b.rings.session = none) (hl : l.held = true) :
    ∃ ls, (b.buffered l).unholdLine l.line = b.withLines ls (if l.dirty then [{ l with held := false }] else []) := by
  have hmove := Blk.moveHolds_of_noSession (b := b.buffered l) (line := l.line) hs
  refine ⟨(b.lc.modLine l.line (fun l => { l with held := false })).lines, ?_⟩
  rw [Blk.unholdLine, hmove]
  cases hd : l.dirty <;> simp [Blk.buffered, Blk.withLines, LCache.modLine, hl, hd]

end

/-! ### The withdrawal of a source without copies -/

theorem foldl_pair_self {α β : Type} {f : α → β → α × Bool} {x : α} {l : List β} (h : ∀ y ∈ l, (f x y).1 = x) (p : Bool) :
    (l.foldl (fun a y => ((f a.1 y).1, a.2 || (f a.1 y).2)) (x, p)).1 = x := by
  induction l generalizing p with
  | nil => rfl
  | cons y l ih =>
    rw [List.foldl_cons, h y List.mem_cons_self]
    exact ih (fun z hz => h z (List.mem_cons_of_mem _ hz)) _

section
variable {b : Blk} {i : Nat} {mg : BitVec 8}

theorem Blk.withdraw_of_noCopies (h : b.hasCopies i mg = false) : (b.withdraw i mg).1 = b := by
  simp only [Blk.hasCopies, Bool.or_eq_false_iff] at h
  obtain ⟨⟨-, hlinks⟩, hpeers⟩ := h
  have hlink (n : Nat) (hn : n ∈ List.range 16) : (b.withdrawLink i mg n).1 = b := by
    have hnone := List.any_eq_false.1 hlinks n hn
    simp only [Bool.not_eq_true, Bool.not_eq_false', List.isEmpty_iff] at hnone
    simp [Blk.withdrawLink, hnone]
  have hpeer (p : Nat) (hp : p ∈ List.range 4) : (b.withdrawPeer i mg p).1 = b := by
    have hany := List.any_eq_false.1 hpeers p hp
    have hnone : (b.peer p).proxies.filter (fun x => x.2.stt == i && x.2.mapgen == mg && x.2.st == .standing) = [] :=
      List.filter_eq_nil_iff.2 (List.any_eq_false.1 (Bool.not_eq_true _ ▸ hany))
    simp [Blk.withdrawPeer, hnone]
  have hfirst := foldl_pair_self (f := fun (c : Blk) n => c.withdrawLink i mg n) hlink false
  generalize hr : (List.range 16).foldl (fun a n => ((a.1.withdrawLink i mg n).1, a.2 || (a.1.withdrawLink i mg n).2)) (b, false) = r
    at hfirst
  obtain ⟨b', p⟩ := r
  obtain rfl : b' = b := hfirst
  have hsecond := foldl_pair_self (f := fun (c : Blk) p => c.withdrawPeer i mg p) hpeer p
  rw [Blk.withdraw, hr]
  exact hsecond

end

end Sys2Proof.Machine

/-! The commands MAP_SOURCE, UNMAP_SOURCE and SET_RESIDENCY without an open session, and the statement about them (10 R377,
R380). -/
namespace Sys2Proof.Machine
open Sys2Proof

/-! ### Refusals (10 R380) -/

theorem firstCase_eq_none {cs : List Bool} : firstCase cs = none ↔ ∀ x ∈ cs, x = false := by
  simp [firstCase, List.findIdx?_eq_none_iff]

section
variable {b : Blk} {m : List Host.Cell} {d : Desc} {i k dom vi : Nat}

theorem Blk.staging_of_noSession (h : b.rings.session = none) : b.staging = b := by simp [Blk.staging, h]

theorem Blk.mode_of_noSession (h : b.rings.session = none) (r : RingId) : b.mode r = .now := by simp [Blk.mode, h]

theorem Blk.findSource_eq_none {v : Word24} (h : ∀ x ∈ b.mapped, ¬ (x.2.domid = dom ∧ x.2.vintid = v)) :
    b.findSource dom v = none := by
  rw [Blk.findSource, Option.map_eq_none_iff, List.find?_eq_none]
  exact fun x hx => by simpa using h x hx

/-- A mapping's index is free, its domain known and its name new. -/
structure Blk.MayMap (b : Blk) (i dom vi : Nat) : Prop where
  known : dom = 0 ∨ (b.dom dom).st ≠ .absent
  newName : ∀ x ∈ b.mapped, ¬ (x.2.domid = dom ∧ x.2.vintid = BitVec.ofNat 24 vi)
  free : (b.stt i).valid = false

theorem Blk.MayMap.fetched {j : Nat} (h : b.MayMap i dom vi) : (b.fetched j).MayMap i dom vi := ⟨h.known, h.newName, h.free⟩

theorem Blk.MayMap.message (h : b.MayMap i dom vi) (hk : k ≤ 1) (hi : 1792 ≤ i) (hlo : 0xB00 ≤ vi) (hhi : vi ≤ 0xFFFFFE)
    (hen : b.sstEn = true) : b.mapRefusal b i k dom vi = none := by
  have hrange : vintidOk k i dom vi = true := by
    interval_cases k <;> simp [vintidOk, hlo, hhi]
  have hdom : (decide (dom ≠ 0) && decide ((b.dom dom).st = .absent)) = false := by
    rcases h.known with hz | hz <;> simp [hz]
  have hnotWired : k ≠ 2 ∧ k ≠ 3 ∧ k ≠ 4 ∧ k < 5 := by omega
  simp [Blk.mapRefusal, firstCase_eq_none, Blk.findSource_eq_none h.newName, h.free, hrange, hen, hnotWired, hi]
  simpa using hdom

theorem Blk.MayMap.edge (h : b.MayMap i dom vi) (hi : i < 1536) (hlo : 0x400 ≤ vi) (hhi : vi ≤ 0x9FF)
    (hown : dom ≠ 0 ∨ vi = 0x400 + i) : b.mapRefusal b i 2 dom vi = none := by
  have hrange : vintidOk 2 i dom vi = true := by
    simp only [vintidOk, hlo, hhi]
    rcases hown with hz | hz <;> simp [hz]
  have hdom : (decide (dom ≠ 0) && decide ((b.dom dom).st = .absent)) = false := by
    rcases h.known with hz | hz <;> simp [hz]
  simp [Blk.mapRefusal, firstCase_eq_none, Blk.findSource_eq_none h.newName, h.free, hrange, hi]
  simpa using hdom

theorem Blk.moveRefusal_toSlot (hi : 1792 ≤ i) (hk : 1792 ≤ k) (hfree : (b.slot k).entry.used = false)
    (hres : (b.stt i).res = false) (hshare : b.shareUsed (b.stt i).domid < (b.dom (b.stt i).domid).sh.rshare) :
    b.moveRefusal b i k true = none := by
  simp [Blk.moveRefusal, firstCase_eq_none, hi, hk, hfree, hres, hshare]

theorem Blk.moveRefusal_toLine (hi : 1792 ≤ i) (hen : b.sstEn = true) (hres : (b.stt i).res = true)
    (hcls : (b.stt i).rank.cls < 2#2) : b.moveRefusal b i k false = none := by
  have htop : b.topClass b i < 2#2 := by simpa [Blk.topClass] using hcls
  simp [Blk.moveRefusal, firstCase_eq_none, hi, hen, hres, htop]

end

/-! ### What a command leaves for its completion record -/

/-- A command left the manager rings, the injection, the port to host memory and the Line Cache's state alone. -/
structure Blk.LeavesPorts (b c : Blk) : Prop where
  rings : c.rings.mgr = b.rings.mgr
  inj : c.inj = b.inj
  fp : c.fp = b.fp
  cache : c.lc.st = b.lc.st

section
variable {b c : Blk} {m : List Host.Cell} {k op line i : Nat} {d : Desc} {st : Status} {detail : Nat}

/-- No line buffer holds the line of the completion record, and one at most is occupied. -/
def Blk.BufsApart (b : Blk) (line : Nat) : Prop := b.lc.bufs = [] ∨ ∃ l, b.lc.bufs = [l] ∧ line ≠ l.line

theorem Blk.Writes.roomFor_of_leaves (h : b.Writes) (hc : b.LeavesPorts c) (hbufs : c.BufsApart line) : c.RoomFor line := by
  refine h.roomFor hc.inj hc.fp hc.cache ?_ ?_ <;> rcases hbufs with hb | ⟨l, hb, hl⟩ <;> simp [hb]
  exact hl.symm

/-- A command of a taken descriptor that is done answers it; the stores are then as the command left them. -/
theorem Blk.Takes.answers_of_done (h : b.Takes m k op d) (hop : listedOp op = true)
    (hcmd : cmdOf op m d (b.fetched k) = (c, .done st detail [])) (hc : (b.fetched k).LeavesPorts c)
    (hbufs : c.BufsApart (b.cplAddr (.mgr k) / 64)) :
    b.Answers (b.descRow m (.mgr k) op (cmdOf op)) d st.code detail [] ∧
    c.SameStores (b.descRow m (.mgr k) op (cmdOf op)) :=
  h.answers hop hcmd hc.rings (h.toWrites.fetched.roomFor_of_leaves hc hbufs)

/-! ### MAP_SOURCE (10 R377) -/

/-- The block before a source is mapped at an index: no error stands there. -/
def Blk.soundAt (b : Blk) (i : Nat) : Blk :=
  { b with lc := b.lc.miss,
           ecc := { b.ecc with sttBad := setDel b.ecc.sttBad i, spillBad := setDel b.ecc.spillBad i } }

theorem Blk.stt_of_sound (h : setHas b.ecc.sttBad i = false) : b.stt i = tabGet {} b.sram.stt i := by simp [Blk.stt, h]

theorem Blk.sttSound_of_valid (hv : (b.stt i).valid = true) : setHas b.ecc.sttBad i = false := by
  cases hbad : setHas b.ecc.sttBad i with
  | false => rfl
  | true => simp [Blk.stt, hbad] at hv

theorem Blk.stt_modStt_of_sound (h : setHas b.ecc.sttBad i = false) (f : Stt → Stt) :
    (b.modStt i f).stt i = f (tabGet {} b.sram.stt i) :=
  (Blk.stt_of_sound (b := b.modStt i f) h).trans (tabGet_tabMod_self _ _ _ _)

/-- The block after a source other than a wired line was mapped: its entry zeroed in its Spill State line. -/
def Blk.mappedSpilled (b : Blk) (m : List Host.Cell) (i : Nat) (kind : SrcKind) (pol : Bool) (dom : Nat) (vi : Word24) : Blk :=
  let c := (b.soundAt i).modStt i (fun s => s.fresh kind pol dom vi false 0)
  c.buffered (c.spillLine m i { gen := (b.dom dom).gen })

theorem Blk.Writes.mapSpilled (h : b.Writes) (hs : b.rings.session = none) (kind : SrcKind) (pol : Bool) (dom : Nat) (vi : Word24) :
    b.mapSpilled m i kind pol dom vi = some (b.mappedSpilled m i kind pol dom vi) := by
  have hwrites : ((b.soundAt i).modStt i (fun s => s.fresh kind pol dom vi false 0)).Writes :=
    ⟨h.noInject, h.noCache, h.noHeld, h.noBufs, h.noWrites, h.noRecs, h.noFail⟩
  have hw := hwrites.sstWrite (m := m) (i := i) hs { gen := (b.dom dom).gen }
  rw [Blk.mapSpilled, h.sstFill]
  exact congrArg some hw

theorem Blk.stt_mappedSpilled (kind : SrcKind) (pol : Bool) (dom : Nat) (vi : Word24) :
    (b.mappedSpilled m i kind pol dom vi).stt i =
      { valid := true, kind := kind, mapgen := (tabGet {} b.sram.stt i).mapgen + 1, domid := dom, vintid := vi, pol := pol,
        rank := { cls := 1 } } :=
  Blk.stt_modStt_of_sound (b := b.soundAt i) (setHas_setDel_self _ _) _

theorem Blk.leavesPorts_mappedSpilled (kind : SrcKind) (pol : Bool) (dom : Nat) (vi : Word24) :
    b.LeavesPorts (b.mappedSpilled m i kind pol dom vi) := by
  constructor <;> simp [Blk.mappedSpilled, Blk.buffered, Blk.soundAt, LCache.miss]

/-- The block with the STT entry of a wired edge line mapped anew. -/
def Blk.freshEdge (b : Blk) (i : Nat) (pol : Bool) (dom : Nat) (vi : Word24) : Blk :=
  ({ b with ecc := { b.ecc with sttBad := setDel b.ecc.sttBad i } } : Blk).modStt i (fun s => s.fresh .edge pol dom vi true i)

/-- The block after a wired edge line was mapped, resident at its own slot. -/
def Blk.mappedEdge (b : Blk) (i : Nat) (pol : Bool) (dom : Nat) (vi : Word24) : Blk :=
  (b.freshEdge i pol dom vi).modSlot i (fun _ => { entry := { used := true, gen := (b.dom dom).gen }, owner := i })

theorem Blk.stt_freshEdge (pol : Bool) (dom : Nat) (vi : Word24) : (b.freshEdge i pol dom vi).stt i =
    { valid := true, kind := .edge, mapgen := (tabGet {} b.sram.stt i).mapgen + 1, domid := dom, vintid := vi, pol := pol,
      res := true, slot := i, rank := { cls := 1 } } := by
  have hsound : setHas (b.freshEdge i pol dom vi).ecc.sttBad i = false := setHas_setDel_self _ _
  rw [Blk.stt_of_sound hsound]
  exact tabGet_tabMod_self {} b.sram.stt i (fun s : Stt => s.fresh .edge pol dom vi true i)

theorem Blk.leavesPorts_mappedEdge (pol : Bool) (dom : Nat) (vi : Word24) : b.LeavesPorts (b.mappedEdge i pol dom vi) := by
  constructor <;> simp [Blk.mappedEdge, Blk.freshEdge]

theorem Blk.stt_modSlot (n : Nat) (f : Slot → Slot) (j : Nat) : (b.modSlot n f).stt j = b.stt j := rfl

theorem Blk.sampleLevel_of_edge (h : (b.stt i).kind = .edge) : b.sampleLevel m i = b := by simp [Blk.sampleLevel, h]

theorem Blk.apply_mapLine_edge (hs : b.rings.session = none) (hfree : (b.stt i).valid = false) (pol : Bool) (dom : Nat)
    (vi : Word24) : b.apply m (.mapLine i .edge pol dom vi) = (b.mappedEdge i pol dom vi, .ok) := by
  have hcfg : b.mapLineStt i .edge pol dom vi = b.freshEdge i pol dom vi := by simp [Blk.mapLineStt, Blk.freshEdge, hfree]
  have hentry : (b.freshEdge i pol dom vi).mapLineEntry m i true = b.mappedEdge i pol dom vi := by
    have hkind : ((b.mappedEdge i pol dom vi).stt i).kind = .edge := by
      rw [Blk.mappedEdge, Blk.stt_modSlot, Blk.stt_freshEdge]
    rw [← Blk.sampleLevel_of_edge (m := m) hkind]
    simp only [Blk.mapLineEntry, Blk.stt_freshEdge]
    rfl
  simp [Blk.apply, hs, Blk.applyCfg, Blk.applyFx, hfree, hcfg, hentry]

/-- MAP_SOURCE of a message source that nothing refuses. -/
theorem Blk.Writes.cmdMap_message (h : b.Writes) (hs : b.rings.session = none) {kind : SrcKind} (hform : d.b 1 0 = false)
    (hkind : kindOf (d.f 2 22 20) = some kind) (hmsg : kind.isWired = false)
    (hok : b.mapRefusal b (d.f 2 18 0) (d.f 2 22 20) (d.f 3 11 0) (d.f 4 23 0) = none) :
    cmdMap m d b = (b.mappedSpilled m (d.f 2 18 0) kind (d.b 2 24) (d.f 3 11 0) (BitVec.ofNat 24 (d.f 4 23 0)), .ok) := by
  simp [cmdMap, hform, cmdMapSource, hkind, hmsg, Blk.staging_of_noSession hs, hok, h.mapSpilled hs]

/-- MAP_SOURCE of an edge line that nothing refuses, while no admitted class is live. -/
theorem Blk.cmdMap_edge (hs : b.rings.session = none) (hlive : b.classesLive = false) (hform : d.b 1 0 = false)
    (hkind : d.f 2 22 20 = 2) (hfree : (b.stt (d.f 2 18 0)).valid = false)
    (hok : b.mapRefusal b (d.f 2 18 0) 2 (d.f 3 11 0) (d.f 4 23 0) = none) :
    cmdMap m d b = (b.mappedEdge (d.f 2 18 0) (d.b 2 24) (d.f 3 11 0) (BitVec.ofNat 24 (d.f 4 23 0)), .ok) := by
  simp [cmdMap, hform, cmdMapSource, hkind, kindOf, SrcKind.isWired, Blk.staging_of_noSession hs, Blk.mode_of_noSession hs, hok,
    hlive, Blk.apply_mapLine_edge hs hfree]

/-- KIND from 5 on is refused. -/
theorem cmdMap_noKind (hform : d.b 1 0 = false) (hkind : 5 ≤ d.f 2 22 20) : cmdMap m d b = (b, .refuse 1) := by
  have hnone : kindOf (d.f 2 22 20) = none := by
    obtain ⟨n, hn⟩ := Nat.exists_eq_add_of_le hkind
    rw [hn, Nat.add_comm]
    rfl
  simp [cmdMap, hform, cmdMapSource, hnone]

/-- The entry that the requester form of MAP_SOURCE writes (04 R133). -/
def Desc.requester (d : Desc) : Requester :=
  { valid := d.b 2 16, pmode := d.b 2 17, pcount := d.f 2 31 24 + 1, mbase := d.f 3 18 0, mcount := d.f 4 16 0,
    cbase := d.f 5 18 0, ccount := d.f 6 16 0 }

/-- The windows of a requester's entry lie among the sources. -/
structure Requester.Fits (r : Requester) : Prop where
  mcount : r.mcount ≤ 65536
  ccount : r.ccount ≤ 65536
  messages : r.mbase + r.pcount * r.mcount ≤ 524288
  channels : r.cbase + r.pcount * r.ccount ≤ 524288

/-- The block after a requester's entry was written. -/
def Blk.withRequester (b : Blk) (n : Nat) (r : Requester) : Blk :=
  { b with sram := { b.sram with req := tabSet {} b.sram.req n r }, ecc := { b.ecc with reqBad := setDel b.ecc.reqBad n } }

theorem cmdMap_requester (hform : d.b 1 0 = true) (hfits : d.requester.Fits) :
    cmdMap m d b = (b.withRequester (d.f 2 15 0) d.requester, .ok) := by
  obtain ⟨hm, hc, hmessages, hchannels⟩ := hfits
  simp only [Desc.requester] at hm hc hmessages hchannels
  have hnone : firstCase [d.f 4 16 0 ≠ 0 && 524287 < d.f 3 18 0 + (d.f 2 31 24 + 1) * d.f 4 16 0 - 1,
      d.f 6 16 0 ≠ 0 && 524287 < d.f 5 18 0 + (d.f 2 31 24 + 1) * d.f 6 16 0 - 1] = none := by
    simp only [firstCase_eq_none, List.forall_mem_cons, Bool.and_eq_false_iff, decide_eq_false_iff_not]
    refine ⟨.inr (by omega), .inr (by omega), fun x hx => absurd hx List.not_mem_nil⟩
  simp only [cmdMap, hform, if_true, cmdMapRequester]
  rw [if_neg (by simp; omega), hnone]
  rfl

/-! ### UNMAP_SOURCE (03 R119) -/

/-- The block after the withdrawal of a mapping: its bits are gone, VALID is clear and MAPGEN advanced. -/
def Blk.unmapped (b : Blk) (i : Nat) : Blk := (b.clearBits i).modStt i (fun s => { s with valid := false, mapgen := s.mapgen + 1 })

/-- The block with the slot of an inactive source freed. -/
def Blk.freedSlot (b : Blk) (n : Nat) : Blk :=
  (b.modSlot n (fun s => if s.entry.act then { s with entry := unmapEntry s.entry } else {})).granted (n % 16) 4

theorem Blk.slot_freedSlot {n : Nat} (h : (b.slot n).entry.act = false) : (b.freedSlot n).slot n = {} := by
  refine (Blk.slot_modSlot_self b n _).trans ?_
  simp [h]

theorem Blk.unstage_of_noSession (h : b.rings.session = none) : b.unstage i = b := by simp [Blk.unstage, h]

theorem Blk.unmap_resident (hs : b.rings.session = none) {t : Stt} (hres : t.res = true) (hcopies : b.hasCopies i t.mapgen = false) :
    b.unmap m i t = some ((b.freedSlot t.slot).unmapped i) := by
  have hwithdraw : ((b.freedSlot t.slot).withdraw i t.mapgen).1 = b.freedSlot t.slot := Blk.withdraw_of_noCopies hcopies
  have hunstage : ((b.freedSlot t.slot).clearBits i).unstage i = (b.freedSlot t.slot).clearBits i :=
    Blk.unstage_of_noSession (b := (b.freedSlot t.slot).clearBits i) hs
  rw [Blk.unmap, if_pos hres, Blk.unmapped, ← hunstage]
  conv_rhs => rw [← hwithdraw]
  rfl

theorem cmdUnmap_resident (hs : b.rings.session = none) (hi : d.f 2 18 0 = i) (hv : (b.stt i).valid = true)
    (hkind : (b.stt i).kind ≠ .internal) (hres : (b.stt i).res = true) (hcopies : b.hasCopies i (b.stt i).mapgen = false) :
    cmdUnmap m d b = ((b.freedSlot (b.stt i).slot).unmapped i, .ok) := by
  simp [cmdUnmap, hi, hv, hkind, Blk.unmap_resident hs hres hcopies]

theorem cmdUnmap_unmapped (hv : (b.stt (d.f 2 18 0)).valid = false) : cmdUnmap m d b = (b, .refuse 0xFFFF) := by
  simp [cmdUnmap, hv]

/-- The entry and the bits of an unmapped source. -/
theorem Blk.stt_unmapped (hv : (b.stt i).valid = true) :
    (b.unmapped i).stt i = { b.stt i with valid := false, mapgen := (b.stt i).mapgen + 1 } := by
  have hsound := b.sttSound_of_valid hv
  rw [Blk.stt_of_sound hsound]
  exact Blk.stt_modStt_of_sound (b := b.clearBits i) hsound _

theorem Blk.stt_freedSlot (n : Nat) : (b.freedSlot n).stt i = b.stt i := rfl

theorem Blk.slot_unmapped (n : Nat) : (b.unmapped i).slot n = b.slot n := rfl

theorem Blk.leavesPorts_unmapped (n : Nat) : b.LeavesPorts ((b.freedSlot n).unmapped i) := by
  constructor <;> simp [Blk.unmapped, Blk.clearBits, Blk.clearHolds, Blk.freedSlot, Blk.granted]

theorem Blk.notMem_unmapped : i ∉ (b.unmapped i).rank.parked ∧ i ∉ (b.unmapped i).rank.posted ∧
    i ∉ (b.unmapped i).rings.spillBits ∧ i ∉ (b.unmapped i).rings.frozenBits := by
  have hdel (s : NSet) : i ∉ setDel s i := fun h => ((mem_setDel s i i).1 h).1 rfl
  exact ⟨hdel _, hdel _, hdel _, hdel _⟩

/-! ### SET_RESIDENCY (04 R160, R161) -/

/-- The block after a spilled source took its place in slot `n`. -/
def Blk.seated (b : Blk) (i n : Nat) (e : Entry) : Blk :=
  ((({ b with lc := b.lc.miss } : Blk).modSlot n (fun _ => { entry := { e with used := true }, owner := i })).granted (n % 16) 4).modStt i
    (fun s => { s with res := true, slot := n })

theorem Blk.Writes.toSlot (h : b.Writes) (hs : b.rings.session = none) (n : Nat) :
    ∃ ls, b.toSlot m i n false =
      some ((b.seated i n (decodeEntry (lineDword (b.hostLine m (b.sstLine i)) (i % 8)))).withLines ls []) := by
  obtain ⟨ls, hls⟩ := Blk.unholdLine_buffered
    (b := b.seated i n (decodeEntry (lineDword (b.hostLine m (b.sstLine i)) (i % 8)))) (l := b.heldLine m (b.sstLine i)) hs rfl
  have hentry : (({ b with lc := b.lc.miss } : Blk).buffered (b.heldLine m (b.sstLine i))).sstEntry m i =
      decodeEntry (lineDword (b.hostLine m (b.sstLine i)) (i % 8)) :=
    congrArg (fun l => decodeEntry (lineDword l (i % 8)))
      (Blk.sstData_buffered (b := { b with lc := b.lc.miss }) (m := m) (l := b.heldLine m (b.sstLine i)) rfl)
  refine ⟨ls, ?_⟩
  rw [Blk.toSlot, h.holdLine]
  simp only [hentry]
  exact congrArg some hls

/-- The block after a resident source left its slot for its Spill State line. -/
def Blk.unseated (b : Blk) (i n : Nat) : Blk :=
  ((({ b with lc := b.lc.miss } : Blk).granted (n % 16) 4).modSlot n Slot.unused).modStt i (fun s => { s with res := false, slot := 0 })

theorem Blk.slotRead_of_sound (harm : b.inj.arm = []) {n : Nat} (hce : setHas b.ecc.entryCe n = false) : b.slotRead n = b := by
  simp [Blk.slotRead, Blk.injHit_of_noArm harm, hce]

theorem Blk.Writes.toLine (h : b.Writes) (hs : b.rings.session = none) {t : Stt} (hbad : setHas b.ecc.entryBad t.slot = false)
    (hce : setHas b.ecc.entryCe t.slot = false) :
    ∃ ls, b.toLine m i t =
      some ((b.unseated i t.slot).withLines ls [b.spillLine m i { (b.slot t.slot).entry with used := false }]) := by
  obtain ⟨ls, hls⟩ := Blk.unholdLine_buffered (b := b.unseated i t.slot)
    (l := { b.spillLine m i { (b.slot t.slot).entry with used := false } with held := true }) hs rfl
  have hwrite := Blk.sstWrite_held (b := { b with lc := b.lc.miss }) (m := m) (i := i) hs
    { (b.slot t.slot).entry with used := false }
  refine ⟨ls, ?_⟩
  rw [Blk.toLine, Blk.slotRead_of_sound h.noInject hce, hbad, h.holdLine]
  have hslot : (({ b with lc := b.lc.miss } : Blk).buffered (b.heldLine m (b.sstLine i))).slot t.slot = b.slot t.slot := rfl
  have hline : ({ b with lc := b.lc.miss } : Blk).heldLine m (({ b with lc := b.lc.miss } : Blk).sstLine i) =
      b.heldLine m (b.sstLine i) := rfl
  rw [hline] at hwrite
  simp only [hslot, hwrite]
  exact congrArg some hls

theorem cmdResidency_toSlot (h : b.Writes) (hs : b.rings.session = none) (hlive : b.classesLive = false) (hi : d.f 2 18 0 = i)
    (hform : d.b 2 20 = true) (hv : (b.stt i).valid = true) (hok : b.moveRefusal b i (d.f 3 17 0) true = none) :
    ∃ ls, cmdResidency m d b =
      ((b.seated i (d.f 3 17 0) (decodeEntry (lineDword (b.hostLine m (b.sstLine i)) (i % 8)))).withLines ls [], .ok) := by
  obtain ⟨ls, hls⟩ := h.toSlot (m := m) (i := i) hs (d.f 3 17 0)
  exact ⟨ls, by simp [cmdResidency, hi, hform, hv, Blk.mode_of_noSession hs, Blk.staging_of_noSession hs, hok, hlive, hls]⟩

theorem cmdResidency_toLine (h : b.Writes) (hs : b.rings.session = none) (hlive : b.classesLive = false) (hi : d.f 2 18 0 = i)
    (hform : d.b 2 20 = false) (hslot : d.f 3 17 0 = 0) (hv : (b.stt i).valid = true)
    (hok : b.moveRefusal b i 0 false = none) (hbad : setHas b.ecc.entryBad (b.stt i).slot = false)
    (hce : setHas b.ecc.entryCe (b.stt i).slot = false) :
    ∃ ls, cmdResidency m d b = ((b.unseated i (b.stt i).slot).withLines ls
      [b.spillLine m i { (b.slot (b.stt i).slot).entry with used := false }], .ok) := by
  obtain ⟨ls, hls⟩ := h.toLine (m := m) (i := i) hs hbad hce
  exact ⟨ls, by simp [cmdResidency, hi, hform, hslot, hv, Blk.mode_of_noSession hs, Blk.staging_of_noSession hs, hok, hlive, hls]⟩

theorem Blk.stt_withLines (ls bufs : List CLine) : (b.withLines ls bufs).stt i = b.stt i := rfl

theorem Blk.leavesPorts_seated (n : Nat) (e : Entry) (ls bufs : List CLine) :
    b.LeavesPorts ((b.seated i n e).withLines ls bufs) := by
  constructor <;> simp [Blk.withLines, Blk.seated, Blk.granted, LCache.miss]

theorem Blk.leavesPorts_unseated (n : Nat) (ls bufs : List CLine) : b.LeavesPorts ((b.unseated i n).withLines ls bufs) := by
  constructor <;> simp [Blk.withLines, Blk.unseated, Blk.granted, LCache.miss]

theorem Blk.stt_seated (hv : (b.stt i).valid = true) (n : Nat) (e : Entry) (ls bufs : List CLine) :
    ((b.seated i n e).withLines ls bufs).stt i = { b.stt i with res := true, slot := n } := by
  have hsound := b.sttSound_of_valid hv
  rw [Blk.stt_withLines, Blk.stt_of_sound hsound]
  exact Blk.stt_modStt_of_sound hsound (fun s => { s with res := true, slot := n })

theorem Blk.slot_seated (n : Nat) (e : Entry) (ls bufs : List CLine) :
    ((b.seated i n e).withLines ls bufs).slot n = { entry := { e with used := true }, owner := i } :=
  Blk.slot_modSlot_self b n (fun _ => { entry := { e with used := true }, owner := i })

theorem Blk.stt_unseated (hv : (b.stt i).valid = true) (n : Nat) (ls bufs : List CLine) :
    ((b.unseated i n).withLines ls bufs).stt i = { b.stt i with res := false, slot := 0 } := by
  have hsound := b.sttSound_of_valid hv
  rw [Blk.stt_withLines, Blk.stt_of_sound hsound]
  exact Blk.stt_modStt_of_sound hsound (fun s => { s with res := false, slot := 0 })

theorem Blk.slot_unseated (n : Nat) (ls bufs : List CLine) :
    ((b.unseated i n).withLines ls bufs).slot n = (b.slot n).unused := Blk.slot_modSlot_self b n Slot.unused

end

/-! ### The statement -/

/-- The command of a descriptor that manager ring `k` takes is done: the descriptor is answered, and the stores are as the
command left them. -/
theorem exec_descriptor_done {s : State} {k op : Nat} {d : Desc} (h : s.blk.Takes s.mem k op d) (hop : listedOp op = true)
    {x : Instr} (hx : exec x s = s.descriptor (.mgr k) op) {c : Blk} {st : Status} {detail : Nat}
    (hcmd : cmdOf op s.mem d (s.blk.fetched k) = (c, .done st detail [])) (hc : (s.blk.fetched k).LeavesPorts c)
    (hbufs : c.BufsApart (s.blk.cplAddr (.mgr k) / 64)) :
    ∃ b, (exec x s = s.becomes b ∧ s.blk.Answers b d st.code detail []) ∧ c.SameStores b :=
  have hdone := h.answers_of_done hop hcmd hc hbufs
  ⟨_, ⟨hx, hdone.1⟩, hdone.2⟩

/-- The entry of an index stands in a line buffer, to be written to its Spill State line. -/
def Blk.Spilled (b0 : Blk) (i : Nat) (e : Entry) (b : Blk) : Prop :=
  ∃ l ∈ b.lc.bufs, l.line = b0.sstLine i ∧ lineDword l.data (i % 8) = encodeEntry e

theorem Blk.SameStores.spilled {b c b' : Blk} (h : c.SameStores b') {m : List Host.Cell} {i : Nat} {e : Entry}
    (hbufs : c.lc.bufs = [b.spillLine m i e]) : b.Spilled i e b' :=
  ⟨b.spillLine m i e, by rw [h.bufs, hbufs]; exact List.mem_singleton_self _, rfl, b.lineDword_spillLine m i e⟩

/-! ### What each command leaves -/

section
variable {s : State} {k : Nat} {d : Desc} {i : Nat} (hs : s.blk.rings.session = none) (hlive : s.blk.classesLive = false)

/-- The descriptor is answered with this status and DETAIL, and the block is then `b`. -/
def State.AnswersBy (s : State) (d : Desc) (x : Instr) (st : Status) (detail : Nat) (b : Blk) : Prop :=
  exec x s = s.becomes b ∧ s.blk.Answers b d st.code detail []

/-- The completion record of manager ring `k` and the Spill State entry of an index lie in different lines. -/
def Blk.SpillApart (b : Blk) (k i : Nat) : Prop := b.cplAddr (.mgr k) / 64 ≠ b.sstLine i

include hs

theorem mapSource_message (h : s.blk.Takes s.mem k 0x01 d) (hform : d.b 1 0 = false) (hi : d.f 2 18 0 = i)
    (hmap : s.blk.MayMap i (d.f 3 11 0) (d.f 4 23 0)) (hkind : d.f 2 22 20 ≤ 1) (hmsg : 1792 ≤ i) (hlo : 0xB00 ≤ d.f 4 23 0)
    (hhi : d.f 4 23 0 ≤ 0xFFFFFE) (hen : s.blk.sstEn = true) (hapart : s.blk.SpillApart k i) :
    ∃ b, s.AnswersBy d (.mapSource (.mgr k)) .ok 0 b ∧ s.blk.Spilled i { gen := (s.blk.dom (d.f 3 11 0)).gen } b ∧
      b.stt i = { valid := true, kind := if d.f 2 22 20 = 0 then .msi else .data,
                  mapgen := (tabGet {} s.blk.sram.stt i).mapgen + 1, domid := d.f 3 11 0,
                  vintid := BitVec.ofNat 24 (d.f 4 23 0), pol := d.b 2 24, rank := { cls := 1 } } := by
  subst hi
  have hok := (hmap.fetched (j := k)).message (k := d.f 2 22 20) hkind hmsg hlo hhi hen
  have hsource : kindOf (d.f 2 22 20) = some (if d.f 2 22 20 = 0 then .msi else .data) := by
    generalize d.f 2 22 20 = n at hkind
    interval_cases n <;> rfl
  have hwired : (if d.f 2 22 20 = 0 then SrcKind.msi else SrcKind.data).isWired = false := by split <;> rfl
  obtain ⟨b, hb, hst⟩ := exec_descriptor_done h rfl (x := .mapSource (.mgr k)) rfl
    (h.toWrites.fetched.cmdMap_message hs hform hsource hwired hok) (Blk.leavesPorts_mappedSpilled ..) (.inr ⟨_, rfl, hapart⟩)
  have hspilled : (s.blk.fetched k).Spilled (d.f 2 18 0) { gen := ((s.blk.fetched k).dom (d.f 3 11 0)).gen } b := hst.spilled rfl
  refine ⟨b, hb, hspilled, ?_⟩
  rw [hst.stt]
  exact Blk.stt_mappedSpilled _ _ _ _

theorem unmapSource_resident (h : s.blk.Takes s.mem k 0x02 d) (hi : d.f 2 18 0 = i) {t : Stt} (ht : s.blk.stt i = t)
    (hv : t.valid = true) (hkind : t.kind ≠ .internal) (hres : t.res = true) (hact : (s.blk.slot t.slot).entry.act = false)
    (hcopies : s.blk.hasCopies i t.mapgen = false) :
    ∃ b, s.AnswersBy d (.unmapSource (.mgr k)) .ok 0 b ∧ b.stt i = { t with valid := false, mapgen := t.mapgen + 1 } ∧
      b.slot t.slot = {} ∧ i ∉ b.rank.parked ∧ i ∉ b.rank.posted ∧ i ∉ b.rings.spillBits ∧ i ∉ b.rings.frozenBits := by
  rw [← Blk.stt_fetched (k := k)] at ht
  rw [← Blk.hasCopies_fetched (k := k)] at hcopies
  rw [← Blk.slot_fetched (k := k)] at hact
  subst ht
  obtain ⟨b, hb, hst⟩ := exec_descriptor_done h rfl (x := .unmapSource (.mgr k)) rfl
    (cmdUnmap_resident hs hi hv hkind hres hcopies) (Blk.leavesPorts_unmapped _) (.inl h.noBufs)
  refine ⟨b, hb, ?_, ?_, ?_⟩
  · rw [hst.stt, Blk.stt_unmapped ((Blk.stt_freedSlot _).symm ▸ hv), Blk.stt_freedSlot]
  · rw [hst.slot, Blk.slot_unmapped, Blk.slot_freedSlot hact]
  · rw [hst.rank, hst.spillBits, hst.frozenBits]
    exact Blk.notMem_unmapped

include hlive

theorem mapSource_edge (h : s.blk.Takes s.mem k 0x01 d) (hform : d.b 1 0 = false) (hi : d.f 2 18 0 = i)
    (hmap : s.blk.MayMap i (d.f 3 11 0) (d.f 4 23 0)) (hkind : d.f 2 22 20 = 2) (hline : i < 1536) (hlo : 0x400 ≤ d.f 4 23 0)
    (hhi : d.f 4 23 0 ≤ 0x9FF) (hown : d.f 3 11 0 ≠ 0 ∨ d.f 4 23 0 = 0x400 + i) :
    ∃ b, s.AnswersBy d (.mapSource (.mgr k)) .ok 0 b ∧
      b.slot i = { entry := { used := true, gen := (s.blk.dom (d.f 3 11 0)).gen }, owner := i } ∧
      b.stt i = { valid := true, kind := .edge, mapgen := (tabGet {} s.blk.sram.stt i).mapgen + 1, domid := d.f 3 11 0,
                  vintid := BitVec.ofNat 24 (d.f 4 23 0), pol := d.b 2 24, res := true, slot := i, rank := { cls := 1 } } := by
  subst hi
  have hmap' : (s.blk.fetched k).MayMap (d.f 2 18 0) (d.f 3 11 0) (d.f 4 23 0) := hmap.fetched
  obtain ⟨b, hb, hst⟩ := exec_descriptor_done h rfl (x := .mapSource (.mgr k)) rfl
    (Blk.cmdMap_edge (b := s.blk.fetched k) hs hlive hform hkind hmap'.free (hmap'.edge hline hlo hhi hown)) (Blk.leavesPorts_mappedEdge ..)
    (.inl h.noBufs)
  refine ⟨b, hb, ?_, ?_⟩
  · rw [hst.slot]
    exact Blk.slot_modSlot_self _ _ _
  · rw [hst.stt, Blk.mappedEdge, Blk.stt_modSlot]
    exact Blk.stt_freshEdge _ _ _

theorem setResidency_toSlot (h : s.blk.Takes s.mem k 0x09 d) (hi : d.f 2 18 0 = i) {t : Stt} (ht : s.blk.stt i = t)
    (hv : t.valid = true) (hmsg : 1792 ≤ i) (hform : d.b 2 20 = true) (hres : t.res = false) (hslot : 1792 ≤ d.f 3 17 0)
    (hfree : (s.blk.slot (d.f 3 17 0)).entry.used = false) (hshare : s.blk.shareUsed t.domid < (s.blk.dom t.domid).sh.rshare) :
    ∃ b, s.AnswersBy d (.setResidency (.mgr k)) .ok 0 b ∧ b.stt i = { t with res := true, slot := d.f 3 17 0 } ∧
      b.slot (d.f 3 17 0) =
        { entry := { decodeEntry (lineDword (s.blk.hostLine s.mem (s.blk.sstLine i)) (i % 8)) with used := true },
          owner := i } := by
  subst ht
  have hok := Blk.moveRefusal_toSlot (b := s.blk.fetched k) hmsg hslot hfree hres hshare
  obtain ⟨ls, hcmd⟩ := cmdResidency_toSlot (m := s.mem) (h.toWrites.fetched (k := k)) hs hlive hi hform hv hok
  obtain ⟨b, hb, hst⟩ := exec_descriptor_done h rfl (x := .setResidency (.mgr k)) rfl hcmd (Blk.leavesPorts_seated ..) (.inl rfl)
  refine ⟨b, hb, ?_, ?_⟩
  · rw [hst.stt, Blk.stt_seated (b := s.blk.fetched k) hv, Blk.stt_fetched]
  · rw [hst.slot, Blk.slot_seated, Blk.hostLine_fetched, Blk.sstLine_fetched]

theorem setResidency_toLine (h : s.blk.Takes s.mem k 0x09 d) (hi : d.f 2 18 0 = i) {t : Stt} (ht : s.blk.stt i = t)
    (hv : t.valid = true) (hmsg : 1792 ≤ i) (hapart : s.blk.SpillApart k i) (hform : d.b 2 20 = false) (hslot : d.f 3 17 0 = 0)
    (hres : t.res = true) (hcls : t.rank.cls < 2) (hen : s.blk.sstEn = true) (hbad : setHas s.blk.ecc.entryBad t.slot = false)
    (hce : setHas s.blk.ecc.entryCe t.slot = false) :
    ∃ b, s.AnswersBy d (.setResidency (.mgr k)) .ok 0 b ∧ b.stt i = { t with res := false, slot := 0 } ∧
      b.slot t.slot = (s.blk.slot t.slot).unused ∧
      s.blk.Spilled i { (s.blk.slot t.slot).entry with used := false } b := by
  subst ht
  have hok := Blk.moveRefusal_toLine (b := s.blk.fetched k) (k := 0) hmsg hen hres hcls
  obtain ⟨ls, hcmd⟩ := cmdResidency_toLine (m := s.mem) (h.toWrites.fetched (k := k)) hs hlive hi hform hslot hv hok hbad hce
  obtain ⟨b, hb, hst⟩ := exec_descriptor_done h rfl (x := .setResidency (.mgr k)) rfl hcmd (Blk.leavesPorts_unseated ..)
    (.inr ⟨_, rfl, hapart⟩)
  refine ⟨b, hb, ?_, ?_, hst.spilled rfl⟩
  · rw [hst.stt, Blk.stt_unseated (b := s.blk.fetched k) hv, Blk.stt_fetched]
  · rw [hst.slot, Blk.stt_fetched, Blk.slot_unseated, Blk.slot_fetched]

end

section
variable {s : State} {k : Nat} {d : Desc}

/-- A descriptor that is refused leaves every store. -/
theorem descriptor_refused {op n : Nat} (h : s.blk.Takes s.mem k op d) (hop : listedOp op = true) {x : Instr}
    (hx : exec x s = s.descriptor (.mgr k) op) (hcmd : cmdOf op s.mem d (s.blk.fetched k) = (s.blk.fetched k, .refuse n)) :
    ∃ b, s.AnswersBy d x .refused n b ∧ b.sram = s.blk.sram := by
  obtain ⟨b, hb, hst⟩ := exec_descriptor_done h hop hx hcmd ⟨rfl, rfl, rfl, rfl⟩ (.inl h.noBufs)
  exact ⟨b, hb, hst.sram⟩

theorem mapSource_requester (h : s.blk.Takes s.mem k 0x01 d) (hform : d.b 1 0 = true) (hfits : d.requester.Fits) :
    ∃ b, s.AnswersBy d (.mapSource (.mgr k)) .ok 0 b ∧
      b.sram = { s.blk.sram with req := tabSet {} s.blk.sram.req (d.f 2 15 0) d.requester } := by
  obtain ⟨b, hb, hst⟩ := exec_descriptor_done h rfl (x := .mapSource (.mgr k)) rfl (cmdMap_requester hform hfits)
    ⟨rfl, rfl, rfl, rfl⟩ (.inl h.noBufs)
  exact ⟨b, hb, hst.sram⟩

end

/-- Settles O37: a descriptor that a manager ring takes is executed on the block that fetched it, and its record is written
through a line buffer; each command is followed through its refusals to the stores that it writes. -/
theorem sourcesAreMappedAndMoved : Obligations.SourcesAreMappedAndMoved := by
  unfold Obligations.SourcesAreMappedAndMoved
  intro s k d hk hs hlive b0 answers i t raw dom vi line q spillFree spilled known newName
  refine ⟨fun h hform => ⟨?_, ?_, ?_⟩, ?_, fun h => ⟨?_, ?_⟩, fun h hv hi hfree => ⟨?_, ?_⟩⟩
  · intro hkind hi hknown hlo hhi hnew hen hv hfree
    exact mapSource_message hs h hform rfl ⟨hknown, hnew, hv⟩ hkind hi hlo hhi hen hfree
  · intro hkind hi hknown hlo hhi hown hnew hv
    exact mapSource_edge hs hlive h hform rfl ⟨hknown, hnew, hv⟩ hkind hi hlo hhi hown
  · exact fun hkind => descriptor_refused h rfl rfl (cmdMap_noKind hform hkind)
  · intro h hform r hm hc hmessages hchannels
    exact mapSource_requester h hform ⟨hm, hc, hmessages, hchannels⟩
  · exact fun hv hkind hres hact hcopies => unmapSource_resident hs h rfl rfl hv hkind hres hact hcopies
  · exact fun hv => descriptor_refused h rfl rfl (cmdUnmap_unmapped (b := s.blk.fetched k) hv)
  · intro hform hres hslot hused hshare
    exact setResidency_toSlot hs hlive h rfl rfl hv hi hform hres hslot hused hshare
  · intro hform hslot hres hcls hen hbad hce
    exact setResidency_toLine hs hlive h rfl rfl hv hi hfree hform hslot hres hcls hen hbad hce

end Sys2Proof.Machine

/-! A record that its lane accepts: the envelope's decision, the placing of the event, and what both leave (04 R130 to R149,
R158). -/
namespace Sys2Proof.Machine
open Sys2Proof

/-! ### The decision of an envelope (04 R147) -/

/-- An arrival at time `t` conforms to an envelope. -/
def Envelope.Admits (e : Envelope) (t : Dword) : Prop := (e.tat - t).toInt ≤ (((e.b - 1) * e.p : Nat) : Int)

/-- The envelope after a conforming arrival at time `t`. -/
def Envelope.admitted (e : Envelope) (t : Dword) : Envelope :=
  { e with tat := (if 0 ≤ (e.tat - t).toInt then e.tat else t) + BitVec.ofNat 64 e.p }

/-- The envelope after an excess arrival. -/
def Envelope.exceeded (e : Envelope) : Envelope := { e with excess := satInc e.excess }

/-- The envelope of a source after an arrival at time `t` that was decided excess or not. -/
def Stt.envelopeAfter (st : Stt) (e : Envelope) (t : Dword) (exc : Bool) : Envelope :=
  if st.env.envv then (if exc then e.exceeded else e.admitted t) else e

/-- The report of an excess arrival at a source (04 R149). -/
def Stt.excessReport (st : Stt) (exc : Bool) : List Nat := if exc && 2#2 ≤ st.rank.cls then [0x80] else []

/-- From `b` to `c` an arrival at source `st` was decided: its envelope is the one after the decision, an excess is reported,
and all that translates, places and credits a record stands. -/
structure Blk.Decides (b c : Blk) (st : Stt) (t : Dword) (exc : Bool) : Prop where
  env : c.env st.env.env = st.envelopeAfter (b.env st.env.env) t exc
  stt : c.stt = b.stt
  rings : c.rings = b.rings
  err : c.err = b.err
  credit : c.ing.credit = b.ing.credit
  lane : ∀ q, c.lane q =
    if q = 24 then { b.lane 24 with reports := (b.lane 24).reports ++ st.excessReport exc } else b.lane q

section
variable {b : Blk} {lane i : Nat} {st : Stt} {t : Dword}

theorem Envelope.arrive_of_admits {e : Envelope} (h : e.Admits t) : e.arrive t = (true, e.admitted t) := if_pos h

theorem Envelope.arrive_of_not_admits {e : Envelope} (h : ¬ e.Admits t) : e.arrive t = (false, e.exceeded) := if_neg h

/-- Where no decision was cancelled every lane sees the envelope as it stands (04 R148). -/
theorem Blk.envSeen_of_noVoids (h : b.ing.voids = []) (lane n : Nat) : b.envSeen lane n = b.env n := by
  simp [Blk.envSeen, h]

theorem Blk.envelopeCheck_none (h : st.env.envv = false) : b.envelopeCheck lane i st t = (b, false) := by
  simp [Blk.envelopeCheck, h]

theorem Blk.env_modEnv_self (n : Nat) (f : Envelope → Envelope) : (b.modEnv n f).env n = f (b.env n) := by
  rw [Blk.env_modEnv, if_pos rfl]

/-- A lane whose number is given with no report added. -/
theorem Blk.lane_unreported (q : Nat) :
    b.lane q = if q = 24 then { b.lane 24 with reports := (b.lane 24).reports ++ [] } else b.lane q := by
  rw [List.append_nil]
  split
  case isTrue hq => rw [hq]
  case isFalse => rfl

variable (henv : st.env.envv = true) (hvoids : b.ing.voids = []) (hsound : setHas b.ecc.envBad st.env.env = false)
include henv hvoids hsound

theorem Blk.envelopeCheck_admits (h : (b.env st.env.env).Admits t) :
    b.envelopeCheck lane i st t = (b.modEnv st.env.env (fun e => e.admitted t), false) := by
  have hing : ({ b.ing with voids := [] } : Ingress) = b.ing := by rw [← hvoids]
  simp only [Blk.envelopeCheck, henv, hsound, Blk.envSeen_of_noVoids hvoids, Envelope.arrive_of_admits h, Bool.not_true,
    Bool.false_eq_true, if_false, if_true, hvoids, List.filter_nil, hing]
  rfl

theorem Blk.envelopeCheck_exceeds (h : ¬ (b.env st.env.env).Admits t) :
    b.envelopeCheck lane i st t =
      (let c := (b.modEnv st.env.env Envelope.exceeded).probe 2 i st.domid st.rank.cls
       (if 2#2 ≤ st.rank.cls then c.raise 0x80 else c, true)) := by
  simp only [Blk.envelopeCheck, henv, hsound, Blk.envSeen_of_noVoids hvoids, Envelope.arrive_of_not_admits h, Bool.not_true,
    Bool.false_eq_true, if_false]
  rfl

omit henv in
/-- The decision of an arrival, and what it leaves. -/
theorem Blk.decides_envelopeCheck : b.Decides (b.envelopeCheck lane i st t).1 st t (b.envelopeCheck lane i st t).2 ∧
    ((b.envelopeCheck lane i st t).2 = false ↔ st.env.envv = false ∨ (b.env st.env.env).Admits t) := by
  cases henv : st.env.envv with
  | false =>
    rw [Blk.envelopeCheck_none henv]
    exact ⟨⟨by simp [Stt.envelopeAfter, henv], rfl, rfl, rfl, rfl, Blk.lane_unreported⟩, by simp⟩
  | true =>
    by_cases h : (b.env st.env.env).Admits t
    · rw [Blk.envelopeCheck_admits henv hvoids hsound h]
      refine ⟨⟨?_, rfl, rfl, rfl, rfl, Blk.lane_unreported⟩, by simp [h]⟩
      rw [Blk.env_modEnv_self]
      simp [Stt.envelopeAfter, henv]
    · rw [Blk.envelopeCheck_exceeds henv hvoids hsound h]
      refine ⟨?_, by simp [h]⟩
      have hafter : (b.modEnv st.env.env Envelope.exceeded).env st.env.env = st.envelopeAfter (b.env st.env.env) t true := by
        rw [Blk.env_modEnv_self]
        simp [Stt.envelopeAfter, henv]
      dsimp only
      rw [Blk.probe_eq]
      split
      case isTrue hcls =>
        refine ⟨hafter, rfl, rfl, rfl, rfl, fun q => ?_⟩
        have hreport : st.excessReport true = [0x80] := by simp [Stt.excessReport, hcls]
        rw [hreport]
        exact Blk.lane_modLane ..
      case isFalse hcls =>
        have hreport : st.excessReport true = [] := by simp [Stt.excessReport, hcls]
        refine ⟨hafter, rfl, rfl, rfl, rfl, ?_⟩
        rw [hreport]
        exact Blk.lane_unreported

end

/-! ### The event of a record (04 R134, R135) -/

/-- Payload of the event that a record makes. -/
def Msg.payload (d : Msg) : Payload :=
  if d.data then { ns := d.ns, seq := d.seq, chan := BitVec.ofNat 24 d.channel, samples := d.samples }
  else { chan := BitVec.ofNat 24 d.vector }

/-- The event of a record that names source `i`, at time `t`. -/
def Blk.recordEvent (b : Blk) (i : Nat) (d : Msg) (t : Dword) (exc : Bool) : Event :=
  { stt := i, mapgen := (b.stt i).mapgen, gen := (b.dom (b.stt i).domid).gen, time := t, exc := exc, pl := d.payload }

section
variable {b : Blk} {d : Msg} {rq : Requester}

/-- A record of a mapped source of its kind, an MSI in the window, is translated. -/
theorem Blk.translate_mapped (hrq : b.requester d.reqid = rq) (hc : rq.Covers d) (hn : d.number < rq.count d)
    (hi : rq.index d ≤ 524287) (hv : (b.stt (rq.index d)).valid = true)
    (hk : (b.stt (rq.index d)).kind = if d.data then .data else .msi)
    (hw : d.data = false → b.inMsiWindow d.addr = true) : b.translate d = .inr (rq.index d) := by
  have hwindow : (!d.data && !b.inMsiWindow d.addr) = false := by
    cases hdata : d.data with
    | true => rfl
    | false => rw [hw hdata]; rfl
  simp only [Blk.translate, Blk.translateIdx_indexed hrq hc hn hi, hv, hk, hwindow, Bool.not_true, Bool.false_eq_true, if_false,
    ne_eq, not_true_eq_false]

/-- A well-formed, translated record becomes an event, which its envelope decides. -/
theorem Blk.decodeRec_of_translated {r : RxRec} {i : Nat} (h : b.inj.arm = []) (hm : malformed r.msg false false = none)
    (hidx : b.translateIdx (decodeMsg r.msg) = .inr i) (ht : b.translate (decodeMsg r.msg) = .inr i) :
    b.decodeRec r = ((b.envelopeCheck (2 * (r.mip / 8)) i (b.stt i) r.time).1,
      some (b.recordEvent i (decodeMsg r.msg) r.time (b.envelopeCheck (2 * (r.mip / 8)) i (b.stt i) r.time).2)) := by
  simp only [Blk.decodeRec, Blk.injHit_of_noArm h, Bool.false_eq_true, if_false, hm, hidx, Blk.sttRead_of_noArm h, ht]
  rfl

end

/-! ### The lane after the record -/

/-- The block once the only record of an MIP's lane has left it: its credit is returned. -/
def Blk.recordLeft (y : Blk) (mip : Nat) : Blk := (y.modLane (mip / 8) (fun l => { l with rx := [] })).creditBack mip

/-- The lane's only record, whose event finds its place, leaves the lane with its credit. -/
theorem Blk.laneRun_of_placed {b c y : Blk} {r : RxRec} {ev : Event} (hs : (b.lane (r.mip / 8)).stall = none)
    (hrx : (b.lane (r.mip / 8)).rx = [r]) (hd : b.decodeRec r = (c, some ev)) (hp : c.placeEvent (r.mip / 8) ev = (y, true))
    (n : Nat) : b.laneRun (r.mip / 8) (n + 1) = y.recordLeft r.mip := by
  simp only [Blk.laneRun, hs, hrx, hd, hp, Option.isSome_none, Bool.false_eq_true, if_false, if_true]
  exact Blk.laneRun_of_empty (by rw [Blk.lane_creditBack, Blk.lane_modLane_self]) n

/-- An accepted record of source `st` left its lane: its envelope decided, its credit back, no error counted. -/
structure Blk.AcceptsRecord (b0 b : Blk) (mip : Nat) (st : Stt) (exc : Bool) : Prop where
  env : b.env st.env.env = st.envelopeAfter (b0.env st.env.env) b0.now exc
  err : b.err = b0.err
  credit : tabGet 0 b.ing.credit mip = tabGet 0 b0.ing.credit mip
  rx : (b.lane (mip / 8)).rx = []
  stall : (b.lane (mip / 8)).stall = none
  reports : (b.lane 24).reports = (b0.lane 24).reports ++ st.excessReport exc

/-- Placing an event has changed its lane's register and stage, and the rings, alone. -/
structure Blk.Places (c y : Blk) (q : Nat) : Prop where
  sram : y.sram = c.sram
  err : y.err = c.err
  credit : y.ing.credit = c.ing.credit
  lane : ∀ p, p ≠ q → y.lane p = c.lane p
  stall : (y.lane q).stall = none

section
variable {b c y : Blk} {mip : Nat} {msg : MsgRec} {st : Stt} {ev : Event} {exc : Bool}

theorem Blk.lane_recordLeft (y : Blk) (mip q : Nat) :
    (y.recordLeft mip).lane q = if q = mip / 8 then { y.lane (mip / 8) with rx := [] } else y.lane q := by
  rw [Blk.recordLeft, Blk.lane_creditBack, Blk.lane_modLane]

/-- What a placed event leaves once its record has left the lane. -/
theorem Blk.LaneFree.acceptsRecord (h : b.LaneFree mip) (hd : (b.keepRecord mip msg).Decides c st b.now exc)
    (hp : c.Places y (mip / 8)) : b.AcceptsRecord (y.recordLeft mip) mip st exc := by
  have henv : (y.recordLeft mip).env st.env.env = c.env st.env.env := by
    show tabGet {} y.sram.env st.env.env = _
    rw [hp.sram]
    rfl
  refine ⟨henv.trans hd.env, hp.err.trans hd.err, ?_, ?_, ?_, ?_⟩
  · have hkept : tabGet 0 y.ing.credit mip = tabGet 0 b.ing.credit mip - 1 := by
      rw [hp.credit, hd.credit]
      exact tabGet_tabMod_self 0 b.ing.credit mip (· - 1)
    have hback : tabGet 0 (y.recordLeft mip).ing.credit mip = tabGet 0 y.ing.credit mip + 1 :=
      tabGet_tabMod_self 0 _ mip (· + 1)
    have hpos := h.credit
    omega
  · rw [Blk.lane_recordLeft, if_pos rfl]
  · rw [Blk.lane_recordLeft, if_pos rfl]
    exact hp.stall
  · rw [Blk.lane_recordLeft, if_neg h.internal_ne, hp.lane 24 h.internal_ne, hd.lane, if_pos rfl, Blk.lane_keepRecord,
      if_neg h.internal_ne]

/-- The lane as the decision leaves it holds the record still. -/
theorem Blk.LaneFree.lane_decided (h : b.LaneFree mip) (hd : (b.keepRecord mip msg).Decides c st b.now exc) :
    c.lane (mip / 8) = { b.lane (mip / 8) with rx := [b.rxRec mip msg] } := by
  rw [hd.lane, if_neg h.internal_ne.symm, h.lane_keepRecord_self]

/-- A record whose event finds its place leaves its lane. -/
theorem Blk.LaneFree.recordIn_of_placed (h : b.LaneFree mip) (m : List Host.Cell)
    (hd : (b.keepRecord mip msg).decodeRec (b.rxRec mip msg) = (c, some ev)) (hp : c.placeEvent (mip / 8) ev = (y, true)) :
    b.recordIn m mip msg = y.recordLeft mip := by
  have hup : b.clientUp (mip / 8) = true := by simp [Blk.clientUp, h.client]
  have hself := h.lane_keepRecord_self (msg := msg)
  simp only [Blk.recordIn, h.awake, hup, Bool.and_self, if_true, Blk.receive]
  exact Blk.laneRun_of_placed (r := b.rxRec mip msg) ((congrArg Lane.stall hself).trans h.noStall) (congrArg Lane.rx hself)
    hd hp 31

end

section
variable {c : Blk} {q : Nat} {ev : Event}

theorem Blk.places_hold (c : Blk) (q n : Nat) (ev : Event) :
    c.Places (c.modLane q (fun l => { l with hold := tabPut l.hold n ev, stall := none })) q := by
  refine ⟨rfl, rfl, rfl, fun p hp => ?_, ?_⟩
  · rw [Blk.lane_modLane, if_neg hp]
  · rw [Blk.lane_modLane_self]

/-- The block with an update behind those of the spill-path queue. -/
def Blk.joined (c : Blk) (u : Upd) : Blk := { c with rings := { c.rings with spillq := c.rings.spillq ++ [u] } }

theorem Blk.spillJoin_of_room (h : c.rings.spillq.length < 64) (u : Upd) : c.spillJoin u = some (c.joined u) := if_pos h

/-- An event of a spilled source joins the spill-path queue while it has room (04 R158). -/
theorem Blk.placeEvent_of_spilled (hres : (c.stt ev.stt).res = false) (hroom : c.rings.spillq.length < 64) :
    c.placeEvent q ev = (c.joined ev.upd, true) := by
  have hjoin := Blk.spillJoin_of_room hroom { stt := ev.stt, mapgen := ev.mapgen, kind := .event ev }
  simp only [Blk.placeEvent, hres, Blk.spillArrival, hjoin, Bool.not_false, if_true]
  rfl

end

/-- The record `msg` is well formed and translated to source `i`, whose entry is `st`; its envelope is sound, and no decision was
cancelled in this HCLK. -/
structure Blk.Translates (b : Blk) (msg : MsgRec) (i : Nat) (st : Stt) : Prop where
  noInject : b.inj.arm = []
  formed : malformed msg false false = none
  index : b.translateIdx (decodeMsg msg) = .inr i
  source : b.translate (decodeMsg msg) = .inr i
  stt : b.stt i = st
  noVoids : b.ing.voids = []
  sound : setHas b.ecc.envBad st.env.env = false

section
variable {b : Blk} {msg : MsgRec} {i : Nat} {st : Stt}

/-- Receiving a record changes nothing that translates it. -/
theorem Blk.Translates.keepRecord (h : b.Translates msg i st) (mip : Nat) : (b.keepRecord mip msg).Translates msg i st :=
  ⟨h.noInject, h.formed, h.index, h.source, h.stt, h.noVoids, h.sound⟩

/-- The event of a translated record, as its envelope decides it. -/
theorem Blk.Translates.decodeRec (h : b.Translates msg i st) {r : RxRec} (hr : r.msg = msg) :
    ∃ c exc, b.decodeRec r = (c, some (b.recordEvent i (decodeMsg msg) r.time exc)) ∧ b.Decides c st r.time exc ∧
      (exc = false ↔ st.env.envv = false ∨ (b.env st.env.env).Admits r.time) := by
  subst hr
  obtain ⟨hdecides, hdecision⟩ := Blk.decides_envelopeCheck (b := b) (lane := 2 * (r.mip / 8)) (i := i) (t := r.time) h.noVoids
    h.sound
  refine ⟨_, _, ?_, hdecides, hdecision⟩
  rw [Blk.decodeRec_of_translated h.noInject h.formed h.index h.source, h.stt]

end

/-- Settles O4: the record is translated, its envelope decides it (`Blk.Translates.decodeRec`), and its event finds its place;
`Blk.LaneFree.acceptsRecord` gives what that leaves. -/
theorem acceptedRecordBecomesEvent : Obligations.AcceptedRecordBecomesEvent := by
  unfold Obligations.AcceptedRecordBecomesEvent
  intro s mip msg st b0 d rq n v count i lane hport hcredit hawake hclient harm hframe hvoids hstall hempty hm hreq hvalid hpasid
    hn hi hst hbad henvBad hv hk hwindow e t conforms pl ev env after exc hexc
  have hfree : b0.LaneFree mip := ⟨hport, hcredit, hawake, hclient, harm, hstall, hempty⟩
  have hrq : b0.requester d.reqid = rq := Blk.requester_of_sound hreq
  have hcovers : rq.Covers d := ⟨hvalid, hpasid⟩
  have hstt : b0.stt i = st := (Blk.stt_of_sound hbad).trans hst
  have htranslates : b0.Translates msg i st :=
    ⟨harm, hm, Blk.translateIdx_indexed hrq hcovers hn hi,
      Blk.translate_mapped hrq hcovers hn hi ((congrArg Stt.valid hstt).trans hv) ((congrArg Stt.kind hstt).trans hk)
        fun hdata => (Blk.inMsiWindow_iff d.addr).2 (hwindow hdata), hstt, hvoids, henvBad⟩
  obtain ⟨c, exc', hdecode, hdecides, hdecision⟩ := (htranslates.keepRecord mip).decodeRec (r := b0.rxRec mip msg) rfl
  obtain rfl : exc' = exc := by
    have hsame : exc' = false ↔ exc = false := hdecision.trans hexc.symm
    rw [Bool.eq_iff_iff, ← not_iff_not, Bool.not_eq_true, Bool.not_eq_true]
    exact hsame
  have hevent : (b0.keepRecord mip msg).recordEvent i d t exc' = ev exc' := by
    rw [Blk.recordEvent, (htranslates.keepRecord mip).stt]
    rfl
  replace hdecode : (b0.keepRecord mip msg).decodeRec (b0.rxRec mip msg) = (c, some (ev exc')) :=
    hdecode.trans (congrArg (fun x => (c, some x)) hevent)
  have hcstt : c.stt (ev exc').stt = st := by rw [hdecides.stt]; exact hstt
  have hlane := hfree.lane_decided hdecides
  have hafter {y : Blk} (hplace : c.placeEvent (mip / 8) (ev exc') = (y, true)) (hp : c.Places y (mip / 8)) :
      after (y.recordLeft mip) exc' := by
    obtain ⟨henv, herr, hcr, hrx, hst', hrep⟩ := hfree.acceptsRecord hdecides hp
    exact ⟨congrArg s.becomes ((hfree.messageRecord_framed hframe (msgFramed_of_wellFormed hm) s.mem).trans
      (hfree.recordIn_of_placed s.mem hdecode hplace)), henv, herr, hcr, hrx, hst', hrep⟩
  refine ⟨fun hres hslot => ?resident, fun hres hroom => ?spilled⟩
  case resident =>
    have hplace := Blk.placeEvent_of_free (b := c) (q := mip / 8) (ev := ev exc') (by rw [hcstt]; exact hres)
      (by rw [hcstt, hlane]; exact hslot)
    refine ⟨_, hafter hplace (c.places_hold ..), ?_, hdecides.rings ▸ rfl⟩
    rw [Blk.lane_recordLeft, if_pos rfl, Blk.lane_modLane_self, hcstt, hlane]
  case spilled =>
    have hplace := Blk.placeEvent_of_spilled (c := c) (q := mip / 8) (ev := ev exc') (by rw [hcstt]; exact hres)
      (by rw [hdecides.rings]; exact hroom)
    have hheld : (c.joined (ev exc').upd).lane (mip / 8) = { lane with rx := [b0.rxRec mip msg] } := hlane
    have hp : c.Places (c.joined (ev exc').upd) (mip / 8) :=
      ⟨rfl, rfl, rfl, fun _ _ => rfl, (congrArg Lane.stall hheld).trans hstall⟩
    refine ⟨_, hafter hplace hp, ?_, ?_⟩
    · rw [Blk.lane_recordLeft, if_pos rfl, hheld]
    · show c.rings.spillq ++ [(ev exc').upd] = _
      rw [hdecides.rings]
      rfl

end Sys2Proof.Machine

/-! The head of the spill-path queue served in its line, and the spill arrival bitmap (04 R155 to R159, R613). -/
namespace Sys2Proof.Machine
open Sys2Proof

theorem lineDword_lineSetDword_ne (l : BitVec 512) (d : Dword) {j k : Nat} (hj : j < 8) (h : j ≠ k) :
    lineDword (lineSetDword l k d) j = lineDword l j := by
  apply BitVec.eq_of_getLsbD_eq
  intro n hn
  have hline : 64 * j + n < 512 := by omega
  have hoff : 64 * j + n < 64 * k ∨ (¬ 64 * j + n < 64 * k ∧ 64 ≤ 64 * j + n - 64 * k) := by omega
  simp only [lineDword, lineSetDword, BitVec.getLsbD_extractLsb', BitVec.getLsbD_or, BitVec.getLsbD_and,
    BitVec.getLsbD_not, BitVec.getLsbD_shiftLeft, BitVec.getLsbD_setWidth, BitVec.getLsbD_allOnes]
  rcases hoff with hbelow | ⟨habove, hbeyond⟩
  · simp [hn, hline, hbelow]
  · simp [hn, hline, habove, hbeyond]

/-! ### An arrival that is released -/

section
variable {b : Blk} {reg i : Nat} {ev : Event} {st : Stt} {e : Entry} {u : Upd}

/-- The entry after an arrival without a program and not excess (03 R96, R124; 04 R149). -/
def Blk.releasedEntry (b : Blk) (st : Stt) (e : Entry) : Entry :=
  setRank (setPend e b.stampNow) (defaultRel st.rank.cls st.rank.prio false)

theorem Blk.releasedEntry_eq (hdlv : e.dlv = false) : b.releasedEntry st e =
    { e with pend := true, stamp := if e.pend then e.stamp else b.now.extractLsb' 6 14, rclass := st.rank.cls,
             rprio := st.rank.prio, dem := false, rtv := false } := by
  simp [Blk.releasedEntry, setRank, setPend, defaultRel, hdlv, Blk.stampNow]

/-- Without a program the contribution is released at once. -/
theorem Blk.arrival_released (hkind : st.kind ≠ .level) (hcv : st.clause.cv = false) (hdlv : e.dlv = false) (cause : Cause)
    (pl : Payload) (time : Dword) : b.arrival i st e cause false pl time = some (b, b.releasedEntry st e) := by
  simp only [Blk.arrival, hcv, Bool.false_and, Bool.false_eq_true, if_false, Blk.release, hkind, hdlv]
  rfl

theorem Blk.stampNow_probe (b : Blk) (k i dom : Nat) (cls : BitVec 2) : (b.probe k i dom cls).stampNow = b.stampNow := by
  rw [Blk.probe_eq]
  rfl

/-- An arrival of the current generation in a domain that acts is not stopped. -/
theorem Blk.arrivalStops_of_current {g : BitVec 8} (hgen : g = (b.dom st.domid).gen) (hacts : (b.dom st.domid).still = false) :
    b.arrivalStops i st g = none := by
  simp only [Blk.arrivalStops, ← hgen, hacts, ne_eq, not_true_eq_false, Bool.false_eq_true, if_false]

/-- What an arrival event without a program makes of the entry. -/
theorem Blk.updBody_event_released (hgen : ev.gen = (b.dom st.domid).gen) (hacts : (b.dom st.domid).still = false)
    (hk : ev.kind = .arrival) (hexc : ev.exc = false) (hkind : st.kind ≠ .level) (hcv : st.clause.cv = false)
    (hdlv : e.dlv = false) (m : List Host.Cell) : b.updBody m reg ev.upd st e =
      some (b.probe 1 ev.stt st.domid st.rank.cls, b.releasedEntry st e) := by
  simp only [Blk.updBody, Event.upd, Blk.arrivalStops_of_current hgen hacts, hk, hexc, Blk.arrival_released hkind hcv hdlv]
  rw [Blk.releasedEntry, Blk.stampNow_probe]
  rfl

theorem Blk.offerIf_of_active (hact : e.act = true) : b.offerIf reg i st e = (b, e) := by simp [Blk.offerIf, hact]

/-- An update of an entry that it leaves active: the entry is not offered. -/
theorem Blk.performOn_of_active {b' : Blk} {f : Entry} {m : List Host.Cell} (hbody : b.updBody m reg u st e = some (b', f))
    (hact : f.act = true) (hgen : f.gen = (b'.dom st.domid).gen) : b.performOn m reg u st e = some (b', f) := by
  have hstamp : (if u.kind.writesGen && f ≠ e then { f with gen := (b'.dom st.domid).gen } else f) = f := by
    split
    · rw [← hgen]
    · rfl
  simp only [Blk.performOn, hbody, hstamp, Blk.offerIf_of_active hact]

end

/-! ### A Spill State line in the enabled Line Cache -/

section
variable {b : Blk} {m : List Host.Cell} {i : Nat} {l : CLine}

/-- The Spill State line of index `i` is the one line of the enabled Line Cache, the line buffers being free. -/
structure Blk.Cached (b : Blk) (i : Nat) (l : CLine) : Prop where
  enabled : b.lc.st = .enabled
  noBufs : b.lc.bufs = []
  lines : b.lc.lines = [l]
  line : l.line = b.sstLine i

theorem LCache.on_of_enabled {c : LCache} (h : c.st = .enabled) : c.on = true := by simp [LCache.on, h]

theorem LCache.heldBuf_of_noBufs {c : LCache} (h : c.bufs = []) (line : Nat) : c.heldBuf line = none := by
  simp [LCache.heldBuf, h]

theorem Blk.Cached.find (h : b.Cached i l) : b.lc.find (b.sstLine i) = some l := by simp [LCache.find, h.lines, h.line]

theorem Blk.Cached.ready (h : b.Cached i l) : b.sstReady (b.sstLine i) = true := by
  simp [Blk.sstReady, LCache.on_of_enabled h.enabled, h.find]

theorem Blk.Cached.sstData (h : b.Cached i l) : b.sstData m (b.sstLine i) = l.data := by
  simp [Blk.sstData, LCache.heldBuf_of_noBufs h.noBufs, LCache.on_of_enabled h.enabled, h.find]

/-- The line with the entry of an index written in it. -/
def CLine.withEntry (l : CLine) (i : Nat) (e : Entry) : CLine :=
  { l with data := lineSetDword l.data (i % 8) (encodeEntry e), dirty := true }

theorem Blk.Cached.sstWrite (h : b.Cached i l) (hprep : b.preparedSlot i = none) (e : Entry) :
    b.sstWrite m i e = { b with lc := { b.lc with lines := [l.withEntry i e] } } := by
  have hmirror : b.mirror i e = b := by simp [Blk.mirror, hprep]
  simp [Blk.sstWrite, hmirror, h.sstData, LCache.heldBuf_of_noBufs h.noBufs, LCache.on_of_enabled h.enabled, h.find,
    LCache.front, h.lines, CLine.withEntry]

/-- Without the line in the cache it is not at hand. -/
theorem Blk.not_sstReady (hst : b.lc.st = .enabled) (hbufs : b.lc.bufs = []) (hlines : b.lc.lines = []) (line : Nat) :
    b.sstReady line = false := by
  simp [Blk.sstReady, LCache.heldBuf_of_noBufs hbufs, LCache.on_of_enabled hst, LCache.find, hlines]

theorem Blk.sstLine_eq (b : Blk) (i : Nat) :
    b.sstLine i = (b.hctl.sstHi.toNat * 2 ^ 32 + b.hctl.sstLo.toNat / 4096 * 4096 + 8 * i) / 64 := by
  have hlo := b.hctl.sstLo.isLt
  have hbits : bits b.hctl.sstLo.toNat 31 12 = b.hctl.sstLo.toNat / 4096 := by
    simp only [bits, Nat.shiftRight_eq_div_pow]
    omega
  rw [Blk.sstLine, Blk.sstBase, hbits]
  rfl

end

/-! ### The head of the spill-path queue (04 R158, R159) -/

/-- An arrival event of a spilled source without a program, under its generation, stands at the head of the spill-path queue,
with these behind it; nothing else waits for a place, and no error and no injection is met. -/
structure Blk.ServesHead (b : Blk) (ev : Event) (rest : List Upd) (st : Stt) : Prop where
  noInject : b.inj.arm = []
  queue : b.rings.spillq = ev.upd :: rest
  noWait : b.rings.spillw = []
  stt : b.stt ev.stt = st
  sound : setHas b.ecc.spillBad ev.stt = false
  valid : st.valid = true
  mapgen : st.mapgen = ev.mapgen
  spilled : st.res = false
  noProgram : st.clause.cv = false
  notLevel : st.kind ≠ .level
  arrival : ev.kind = .arrival
  gen : ev.gen = (b.dom st.domid).gen
  notExcess : ev.exc = false
  acts : (b.dom st.domid).still = false
  notPrepared : b.preparedSlot ev.stt = none
  noOffer : ∀ x ∈ b.rank.offers, x.1 ≠ 16

/-- The block without the head of the spill-path queue. -/
def Blk.dequeued (b : Blk) (rest : List Upd) : Blk := { b with rings := { b.rings with spillq := rest } }

theorem Blk.spillRefill_of_noWait {b : Blk} (h : b.rings.spillw = []) : b.spillRefill = b := by simp [Blk.spillRefill, h]

section
variable {b : Blk} {ev : Event} {rest : List Upd} {st : Stt} {l : CLine} {e : Entry} (h : b.ServesHead ev rest st)
  (m : List Host.Cell)
include h

/-- The head is neither of a source that is gone nor of a stale generation. -/
theorem Blk.ServesHead.spillServe_eq : b.spillServe m =
    if b.sstReady (b.sstLine ev.stt) then
      match (b.dequeued rest).update m ev.upd 4 with
      | some c => c.spillRefill
      | none => b
    else if !b.lc.on || setHas b.lc.fills (b.sstLine ev.stt) || b.inBuf (b.sstLine ev.stt) then b
    else { b with lc := { b.lc with fills := setAdd b.lc.fills (b.sstLine ev.stt) } } := by
  have hhere : (!st.valid || decide (st.mapgen ≠ ev.upd.mapgen)) = false := by simp [h.valid, h.mapgen, Event.upd]
  have hfresh : (ev.upd.kind.dropsStale && ev.upd.kind.genOf != (b.dom st.domid).gen) = false := by
    simp [Event.upd, UpdKind.genOf, h.gen]
  have hheld : b.heldFull m ev.upd st = false := by simp [Blk.heldFull, Event.upd, h.noProgram]
  have hstt : b.stt ev.upd.stt = st := h.stt
  simp only [Blk.spillServe, h.queue, hstt, hhere, hfresh, hheld, h.spilled, Bool.false_or, Bool.false_eq_true, if_false]
  rfl

theorem Blk.ServesHead.rankFree : (b.dequeued rest).rankFree m 16 = b.dequeued rest := by
  have hany : (b.dequeued rest).rank.offers.any (fun x => x.1 == 16) = false :=
    List.any_eq_false.2 fun x hx => by simpa using h.noOffer x hx
  rw [Blk.rankFree, Blk.rankUntil, hany]
  rfl

/-- The block once the head has released its contribution in its line. -/
def Blk.servedHead (b : Blk) (ev : Event) (rest : List Upd) (st : Stt) (l : CLine) (e : Entry) : Blk :=
  let c := (b.dequeued rest).probe 1 ev.stt st.domid st.rank.cls
  { c with lc := { c.lc with lines := [l.withEntry ev.stt (b.releasedEntry st e)] } }

theorem Blk.ServesHead.update (hl : b.Cached ev.stt l) (he : decodeEntry (lineDword l.data (ev.stt % 8)) = e)
    (hdlv : e.dlv = false) (hact : e.act = true) (hgen : e.gen = ev.gen) :
    (b.dequeued rest).update m ev.upd 4 = some (b.servedHead ev rest st l e) := by
  have hcached : (b.dequeued rest).Cached ev.stt l := ⟨hl.enabled, hl.noBufs, hl.lines, hl.line⟩
  have hentry : (b.dequeued rest).sstEntry m ev.stt = e := by rw [Blk.sstEntry, hcached.sstData, he]
  have hperform : (b.dequeued rest).performOn m 16 ev.upd st e =
      some ((b.dequeued rest).probe 1 ev.stt st.domid st.rank.cls, b.releasedEntry st e) := by
    refine Blk.performOn_of_active (Blk.updBody_event_released (b := b.dequeued rest) h.gen h.acts h.arrival h.notExcess
      h.notLevel h.noProgram hdlv m)
      hact ?_
    rw [Blk.probe_eq]
    exact hgen.trans h.gen
  have hafter : ((b.dequeued rest).probe 1 ev.stt st.domid st.rank.cls).Cached ev.stt l := by
    rw [Blk.probe_eq]
    exact ⟨hl.enabled, hl.noBufs, hl.lines, hl.line⟩
  have hprepared : ((b.dequeued rest).probe 1 ev.stt st.domid st.rank.cls).preparedSlot ev.stt = none := by
    rw [Blk.probe_eq]
    exact h.notPrepared
  have hline : (b.dequeued rest).updLine m ev.upd st = some (b.servedHead ev rest st l e) := by
    have hupd : ev.upd.stt = ev.stt := rfl
    have hsound : setHas (b.dequeued rest).ecc.spillBad ev.stt = false := h.sound
    simp only [Blk.updLine, hupd, hsound, Bool.false_eq_true, if_false, h.rankFree, hentry, hperform,
      hafter.sstWrite hprepared]
    rfl
  have hstt : (b.dequeued rest).stt ev.upd.stt = st := h.stt
  have hhere : (!st.valid || decide (st.mapgen ≠ ev.upd.mapgen)) = false := by simp [h.valid, h.mapgen, Event.upd]
  simp only [Blk.update, Blk.sttRead_of_noArm (b := b.dequeued rest) h.noInject, hstt, hhere, h.spilled, Bool.false_eq_true,
    if_false]
  rw [← hline]
  exact if_pos hcached.ready

/-- The arrival whose line is cached releases its contribution there and leaves the queue. -/
theorem Blk.ServesHead.spillServe_cached (hl : b.Cached ev.stt l)
    (he : decodeEntry (lineDword l.data (ev.stt % 8)) = e) (hdlv : e.dlv = false) (hact : e.act = true)
    (hgen : e.gen = ev.gen) : b.spillServe m = b.servedHead ev rest st l e := by
  rw [h.spillServe_eq, hl.ready, if_pos rfl, h.update m hl he hdlv hact hgen]
  refine Blk.spillRefill_of_noWait ?_
  rw [Blk.servedHead, Blk.probe_eq]
  exact h.noWait

/-- The arrival whose line is neither cached nor being fetched keeps its place while the fill is requested. -/
theorem Blk.ServesHead.spillServe_miss (hst : b.lc.st = .enabled) (hbufs : b.lc.bufs = []) (hlines : b.lc.lines = [])
    (hout : ∀ w ∈ b.fp.out, w.line ≠ b.sstLine ev.stt) (hfill : setHas b.lc.fills (b.sstLine ev.stt) = false) :
    b.spillServe m = { b with lc := { b.lc with fills := setAdd b.lc.fills (b.sstLine ev.stt) } } := by
  have hbuf : b.inBuf (b.sstLine ev.stt) = false := by
    simp only [Blk.inBuf, hbufs, List.any_nil, Bool.false_or, List.any_eq_false]
    exact fun w hw => by simp [hout w hw]
  rw [h.spillServe_eq, Blk.not_sstReady hst hbufs hlines]
  simp [LCache.on_of_enabled hst, hfill, hbuf]

end

/-! ### The spill arrival bitmap (04 R159) -/

/-- The arrival that a bit of the spill arrival bitmap stands for: stamped now, its payload lost. -/
def Blk.lostArrival (b : Blk) (i : Nat) : Upd :=
  { stt := i, mapgen := (b.stt i).mapgen, kind := .lostArrival b.now (b.dom (b.stt i).domid).gen }

/-- The block with the lowest bit of the spill arrival bitmap taken into the queue. -/
def Blk.bitTaken (b : Blk) (i : Nat) (rest : NSet) : Blk :=
  let c := b.joined (b.lostArrival i)
  { c with rings := { c.rings with spillBits := rest } }

theorem Blk.bitmapTake_of_room {b : Blk} {i : Nat} {rest : NSet} (hwait : b.rings.spillw = [])
    (hbits : b.rings.spillBits = i :: rest) (hroom : b.rings.spillq.length < 64) : b.bitmapTake = b.bitTaken i rest := by
  have hjoin := Blk.spillJoin_of_room hroom (b.lostArrival i)
  rw [Blk.lostArrival] at hjoin
  simp only [Blk.bitmapTake, hwait, hbits, hjoin, List.isEmpty_nil, Bool.not_true, Bool.false_eq_true, if_false]
  rfl

/-- Settles O8: the head is served in its cached line, or requests the fill (`Blk.ServesHead`); the bitmap's lowest bit joins
the queue. -/
theorem spillPathServesHead : Obligations.SpillPathServesHead := by
  unfold Obligations.SpillPathServesHead
  intro s hawake hclient harm b0
  have hup : (b0.awake && b0.clientUp 28) = true := by simp [b0, hawake, Blk.clientUp, hclient]
  refine ⟨?head, ?bitmap⟩
  case head =>
    intro ev rest st l hqueue hwait hst hbad hspill hvalid hmap hres hcv hkind hk hgen hexc hacts hprep hoffer line hen hbufs e
    have hhead : b0.ServesHead ev rest st := ⟨harm, hqueue, hwait, (Blk.stt_of_sound hbad).trans hst, hspill, hvalid, hmap, hres,
      hcv, hkind, hk, hgen, hexc, hacts, hprep, hoffer⟩
    have hline : b0.sstLine ev.stt = line := b0.sstLine_eq ev.stt
    have hexec {b : Blk} (hb : b0.spillServe s.mem = b) : exec .spillPathUpdate s = s.becomes b := by
      show s.becomes (b0.when (b0.awake && b0.clientUp 28) (fun b => b.spillServe s.mem)) = _
      rw [hup, Blk.when_true, hb]
    refine ⟨fun hlines hl hdlv hact hegen => ?cached, fun hlines hout hfill => ?miss⟩
    case cached =>
      have hserved := hhead.spillServe_cached s.mem ⟨hen, hbufs, hlines, hl.trans hline.symm⟩ rfl hdlv hact hegen
      refine ⟨_, l.withEntry ev.stt (b0.releasedEntry st e), hexec hserved, ?_, ?_, hl, rfl, ?_, fun j hj hne => ?_⟩
      · rw [Blk.servedHead, Blk.probe_eq]
        rfl
      · rfl
      · rw [← hegen, ← Blk.releasedEntry_eq hdlv]
        exact lineDword_lineSetDword _ _ (Nat.mod_lt _ (by decide))
      · exact lineDword_lineSetDword_ne _ _ hj hne
    case miss =>
      rw [← hline] at hout hfill ⊢
      exact ⟨_, hexec (hhead.spillServe_miss s.mem hen hbufs hlines hout hfill), rfl, rfl⟩
  case bitmap =>
    intro i rest hwait hbits hroom
    refine ⟨b0.bitTaken i rest, ?_, rfl, rfl⟩
    show s.becomes (b0.when (b0.awake && b0.clientUp 28) Blk.bitmapTake) = _
    rw [hup, Blk.when_true, Blk.bitmapTake_of_room hwait hbits hroom]

end Sys2Proof.Machine

/-! The block that answers a descriptor of a manager ring, part by part, and a descriptor that stays executing (10 R374, R379,
R383). -/
namespace Sys2Proof.Machine
open Sys2Proof

/-- The block after the completion record of a descriptor of manager ring `k` was issued, in a line of this data. -/
def Blk.withAnswer (c : Blk) (k : Nat) (data : BitVec 512) : Blk :=
  (c.modPair (.mgr k) Pair.recorded).recorded k (c.cplAddr (.mgr k) / 64) data

section
variable (c : Blk) (k : Nat) (data : BitVec 512)

@[simp] theorem Blk.sram_withAnswer : (c.withAnswer k data).sram = c.sram := rfl
@[simp] theorem Blk.tim_withAnswer : (c.withAnswer k data).tim = c.tim := rfl
@[simp] theorem Blk.lc_withAnswer : (c.withAnswer k data).lc = c.lc.miss := rfl
@[simp] theorem Blk.stt_withAnswer (i : Nat) : (c.withAnswer k data).stt i = c.stt i := rfl
@[simp] theorem Blk.env_withAnswer (n : Nat) : (c.withAnswer k data).env n = c.env n := rfl
@[simp] theorem Blk.entry_withAnswer (st : Stt) : (c.withAnswer k data).entry st = c.entry st := rfl
@[simp] theorem Blk.link_withAnswer (n : Nat) : (c.withAnswer k data).link n = c.link n := rfl

theorem Blk.reports_withAnswer : ((c.withAnswer k data).lane 24).reports = (c.lane 24).reports ++ [0x8A + k / 2] :=
  congrArg Lane.reports (Blk.lane_modLane_self c 24 _)

end

section
variable {b c : Blk} {m : List Host.Cell} {k op : Nat} {d : Desc}

theorem Blk.RoomFor.completeDesc_answered (h : b.RoomFor (b.cplAddr (.mgr k) / 64)) (m : List Host.Cell)
    (hring : d.ring = .mgr k) (st : Status) (detail : Nat) (res : List Word) :
    ∃ data, b.completeDesc m d st detail res = b.withAnswer k data := by
  rw [Blk.completeDesc_eq h.noInject m hring]
  obtain ⟨l, hl⟩ := (h.modPair Pair.recorded).writeRec (k := k) m
    (let ws := cplWords (b.pair (.mgr k)).cpl.w d.seq d.op d.tag st.code detail res
     ws ++ [entryCheck (b.pair (.mgr k)).cpl.w 2 (b.cplAddr (.mgr k)) ws])
  exact ⟨_, hl⟩

/-- The command of a descriptor that manager ring `k` takes is done, with a result: the descriptor is answered, on the block as
the command left it. -/
theorem exec_descriptor_answered {s : State} (h : s.blk.Takes s.mem k op d) (hop : listedOp op = true) {x : Instr}
    (hx : exec x s = s.descriptor (.mgr k) op) {st : Status} {detail : Nat} {res : List Word}
    (hcmd : cmdOf op s.mem d (s.blk.fetched k) = (c, .done st detail res)) (hc : (s.blk.fetched k).LeavesPorts c)
    (hbufs : c.lc.bufs = []) :
    ∃ data, exec x s = s.becomes (c.withAnswer k data) ∧ s.blk.Answers (c.withAnswer k data) d st.code detail res := by
  have hroom := h.toWrites.fetched.roomFor_of_leaves (line := s.blk.cplAddr (.mgr k) / 64) hc (.inl hbufs)
  have haddr : c.cplAddr (.mgr k) = s.blk.cplAddr (.mgr k) := by
    rw [Blk.cplAddr, Blk.cplAddr, Blk.pair, hc.rings]
    exact (congrArg (fun p : Pair => p.cpl.addr 32 p.cpl.w) Blk.pair_fetched).trans rfl
  have hanswers := (h.answers hop hcmd hc.rings hroom).1
  obtain ⟨data, hdata⟩ := Blk.RoomFor.completeDesc_answered (haddr ▸ hroom) s.mem h.ring st detail res
  have hrow : s.blk.descRow s.mem (.mgr k) op (cmdOf op) = c.withAnswer k data := by
    rw [h.descRow hop, hcmd]
    exact hdata
  rw [hrow] at hanswers
  exact ⟨data, hx.trans (congrArg s.becomes hrow), hanswers⟩

/-- The block with one more executing descriptor on manager ring `k`. -/
def Blk.executing (c : Blk) (k : Nat) (e : Exec) : Blk := c.modPair (.mgr k) (fun p => { p with exec := p.exec ++ [e] })

/-- The command of a descriptor that manager ring `k` takes answers nothing yet: the descriptor stays executing, alone on its
ring. -/
theorem exec_descriptor_waits {s : State} (h : s.blk.Takes s.mem k op d) (hop : listedOp op = true) {x : Instr}
    (hx : exec x s = s.descriptor (.mgr k) op) {w : Wait} (hcmd : cmdOf op s.mem d (s.blk.fetched k) = (c, .wait w))
    (hmgr : c.rings.mgr = (s.blk.fetched k).rings.mgr) :
    let e : Exec := { seq := d.seq, line := d.line, wait := w }
    exec x s = s.becomes (c.executing k e) ∧ ((c.executing k e).pair (.mgr k)).exec = [e] := by
  intro e
  have hrow : s.blk.descRow s.mem (.mgr k) op (cmdOf op) = c.executing k e := by
    rw [h.descRow hop, hcmd]
    show c.modPair d.ring _ = _
    rw [h.ring]
    rfl
  have hpair : c.pair (.mgr k) = (s.blk.fetched k).pair (.mgr k) := by rw [Blk.pair, Blk.pair, hmgr]
  have hnone : (c.pair (.mgr k)).exec = [] := by
    rw [hpair, Blk.pair_fetched]
    exact h.idle
  refine ⟨hx.trans (congrArg s.becomes hrow), ?_⟩
  rw [Blk.executing, Blk.pair_modPair_self, hnone]
  rfl

theorem Blk.LeavesPorts.refl (b : Blk) : b.LeavesPorts b := ⟨rfl, rfl, rfl, rfl⟩

/-- A descriptor whose command is done at once and changes nothing leaves the SRAMs. -/
theorem exec_descriptor_unchanged {s : State} (h : s.blk.Takes s.mem k op d) (hop : listedOp op = true) {x : Instr}
    (hx : exec x s = s.descriptor (.mgr k) op) {st : Status} {detail : Nat} {res : List Word}
    (hcmd : cmdOf op s.mem d (s.blk.fetched k) = (s.blk.fetched k, .done st detail res)) :
    ∃ b, (exec x s = s.becomes b ∧ s.blk.Answers b d st.code detail res) ∧ b.sram = s.blk.sram := by
  obtain ⟨data, hdata⟩ := exec_descriptor_answered h hop hx hcmd (.refl _) h.noBufs
  exact ⟨_, hdata, Blk.sram_withAnswer ..⟩

end

end Sys2Proof.Machine

/-! SET_CLASS, SET_ENVELOPE, SET_TIMER and RESERVE_SLOTS outside a session (04 R147; 06 R217; 07 R298; 09 R342, R343; 10
R377). -/
namespace Sys2Proof.Machine
open Sys2Proof

section
variable {b : Blk} {m : List Host.Cell} {d : Desc} {k n : Nat} (hs : b.rings.session = none) (hlive : b.classesLive = false)

theorem Blk.apply_of_noSession (hs : b.rings.session = none) (x : Staged) :
    b.apply m x = ((b.applyCfg x).applyFx m b x, .ok) := by
  simp [Blk.apply, hs]

theorem Blk.leavesPorts_modStt (b : Blk) (i : Nat) (f : Stt → Stt) : b.LeavesPorts (b.modStt i f) := ⟨rfl, rfl, rfl, rfl⟩

theorem Blk.stt_modStt_self {i : Nat} (hv : (b.stt i).valid = true) (f : Stt → Stt) : (b.modStt i f).stt i = f (b.stt i) := by
  have hsound := b.sttSound_of_valid hv
  rw [Blk.stt_modStt_of_sound hsound, Blk.stt_of_sound hsound]

theorem Blk.stt_modStt_ne {i j : Nat} (h : j ≠ i) (f : Stt → Stt) : (b.modStt i f).stt j = b.stt j := by
  have hget : tabGet {} (b.modStt i f).sram.stt j = tabGet {} b.sram.stt j := tabGet_tabMod_ne {} b.sram.stt f h
  simp only [Blk.stt, hget]
  rfl

/-! ### SET_CLASS (09 R342, R343) -/

/-- The class, priority and order that a SET_CLASS names. -/
def Desc.classCfg (d : Desc) : ClassCfg :=
  { cls := BitVec.ofNat 2 (d.f 3 1 0), prio := BitVec.ofNat 8 (d.f 3 9 2), ord := d.b 3 12 }

include hs

theorem cmdSetClass_eq : cmdSetClass m d b =
    if !(b.stt (d.f 2 18 0)).valid then (b, .refuse 0xFFFF)
    else if 2#2 ≤ d.classCfg.cls && ((b.stt (d.f 2 18 0)).kind = .core || (b.stt (d.f 2 18 0)).kind = .internal) then
      (b, .refuse 1)
    else if 2#2 ≤ d.classCfg.cls || (b.classesLive && (b.stt (d.f 2 18 0)).res) then (b, .st .stageRequired)
    else (b.modStt (d.f 2 18 0) (fun t => { t with rank := d.classCfg }), .ok) := by
  simp only [cmdSetClass, Blk.mode_of_noSession hs, Blk.staging_of_noSession hs, Blk.apply_of_noSession hs]
  rfl

theorem cmdSetClass_unmapped (hv : (b.stt (d.f 2 18 0)).valid = false) : cmdSetClass m d b = (b, .refuse 0xFFFF) := by
  simp [cmdSetClass_eq hs, hv]

theorem cmdSetClass_internal (hv : (b.stt (d.f 2 18 0)).valid = true) (hcls : 2#2 ≤ d.classCfg.cls)
    (hkind : (b.stt (d.f 2 18 0)).kind = .internal) : cmdSetClass m d b = (b, .refuse 1) := by
  simp [cmdSetClass_eq hs, hv, hcls, hkind]

theorem cmdSetClass_admitted (hv : (b.stt (d.f 2 18 0)).valid = true) (hcls : 2#2 ≤ d.classCfg.cls)
    (hcore : (b.stt (d.f 2 18 0)).kind ≠ .core) (hinternal : (b.stt (d.f 2 18 0)).kind ≠ .internal) :
    cmdSetClass m d b = (b, .st .stageRequired) := by
  simp [cmdSetClass_eq hs, hv, hcls, hcore, hinternal]

theorem cmdSetClass_low (hlive : b.classesLive = false) (hv : (b.stt (d.f 2 18 0)).valid = true)
    (hcls : d.classCfg.cls < 2#2) :
    cmdSetClass m d b = (b.modStt (d.f 2 18 0) (fun t => { t with rank := d.classCfg }), .ok) := by
  have hnot : ¬ 2#2 ≤ d.classCfg.cls := BitVec.not_le.2 hcls
  simp [cmdSetClass_eq hs, hv, hnot, hlive]

/-! ### SET_ENVELOPE (04 R147) -/

omit hs in
/-- The block with envelope `n` written afresh, in group `g`. -/
def Blk.envWritten (b : Blk) (n p bu dl g : Nat) : Blk := (b.applyCfg (.envWrite n p bu dl g)).freshEnv n

omit hs in
theorem Blk.env_envWritten (p bu dl g : Nat) :
    (b.envWritten n p bu dl g).env n = { p := p, b := bu, dl := dl, tat := b.now, excess := 0 } := by
  have hcfg : (b.applyCfg (.envWrite n p bu dl g)).env n = { b.env n with p := p, b := bu, dl := dl } :=
    Blk.env_modEnv_self (b := { b with ecc := { b.ecc with envBad := setDel b.ecc.envBad n } }) n
      (fun e => { e with p := p, b := bu, dl := dl })
  rw [Blk.envWritten, Blk.freshEnv, Blk.env_modEnv_self, hcfg]
  rfl

omit hs in
theorem Blk.igrp_envWritten (p bu dl g : Nat) : tabGet 0 (b.envWritten n p bu dl g).sram.igrp n = g := tabGet_tabSet_self ..

include hlive

theorem cmdSetEnvelope_write (hform : d.b 1 0 = false) (hp : d.f 3 23 0 ≠ 0) (hb : d.f 4 15 0 ≠ 0)
    (hg : d.f 6 3 0 < 12 ∨ d.f 6 3 0 = 15) :
    cmdSetEnvelope m d b = (b.envWritten (d.f 2 13 0) (d.f 3 23 0) (d.f 4 15 0) (d.f 5 23 0) (d.f 6 3 0), .ok) := by
  have hgroup : (decide (12 ≤ d.f 6 3 0) && decide (d.f 6 3 0 ≤ 14)) = false := by
    rw [Bool.and_eq_false_iff, decide_eq_false_iff_not, decide_eq_false_iff_not]
    omega
  simp [cmdSetEnvelope, hform, hp, hb, hgroup, Blk.mode_of_noSession hs, hlive, Blk.apply_of_noSession hs]
  rfl

theorem cmdSetEnvelope_attach (hform : d.b 1 0 = true) (hv : (b.stt (d.f 2 18 0)).valid = true) :
    cmdSetEnvelope m d b =
      (b.modStt (d.f 2 18 0) (fun t => { t with env := { envv := d.b 2 20, env := d.f 3 13 0 } }), .ok) := by
  simp [cmdSetEnvelope, hform, Blk.mode_of_noSession hs, Blk.staging_of_noSession hs, hv, hlive, Blk.apply_of_noSession hs]
  rfl

/-! ### RESERVE_SLOTS (06 R216, R217) -/

omit hs in
theorem Blk.criticalLink_of_notLive : b.criticalLink n = false := by
  have hnone : b.adm = [] := by simpa [Blk.classesLive] using hlive
  simp [Blk.criticalLink, hnone]

/-- The block with the shadow slot table of a link written, to be live at the next frame. -/
def Blk.slotsReserved (b : Blk) (n : Nat) (t : Dword) : Blk := b.modLink n (fun l => { l with shad := t, shadDue := true })

omit hs hlive in
theorem Blk.link_slotsReserved (n : Nat) (t : Dword) :
    (b.slotsReserved n t).link n = { b.link n with shad := t, shadDue := true } := Blk.link_modLink_self b n _

theorem cmdReserveSlots_of_populated (hpop : (b.link (d.f 2 3 0)).pop = true) :
    cmdReserveSlots m d b =
      (b.slotsReserved (d.f 2 3 0) (BitVec.ofNat 64 (d.w 3 + d.w 4 * 2 ^ 32)), .wait (.slotLive (d.f 2 3 0))) := by
  simp [cmdReserveSlots, Blk.mode_of_noSession hs, hpop, Blk.criticalLink_of_notLive hlive]
  rfl

end

/-! ### SET_TIMER (07 R298, R299) -/

/-- The timers after a SET_TIMER: an attachment without TEN has none (DESIGN CHOICE 61). -/
def Desc.timersAfter (d : Desc) (t : Timers) (a : Attach) : Timers :=
  if a.ten then t.operate (timerKey (d.f 2 3 0) (d.f 2 25 16)) (d.f 3 23 0) a.tmin else t

theorem cmdSetTimer_eq (b : Blk) (m : List Host.Cell) (d : Desc) : cmdSetTimer m d b =
    ({ b with tim := d.timersAfter b.tim (tabGet {} (b.cl (d.f 2 3 0)).att (d.f 2 25 16)) }, .ok) := by
  simp only [cmdSetTimer, Desc.timersAfter]
  split <;> rfl

theorem Desc.tick_timersAfter (d : Desc) (t : Timers) (a : Attach) : (d.timersAfter t a).tick = t.tick := by
  unfold Desc.timersAfter Timers.operate
  split
  · split <;> rfl
  · rfl

theorem Desc.armed_timersAfter (d : Desc) (t : Timers) (a : Attach) : (d.timersAfter t a).armed =
    if a.ten = false then t.armed
    else if d.f 3 23 0 = 0 then tabDel t.armed (timerKey (d.f 2 3 0) (d.f 2 25 16))
    else tabPut t.armed (timerKey (d.f 2 3 0) (d.f 2 25 16)) (t.tick + max (d.f 3 23 0) a.tmin) := by
  unfold Desc.timersAfter Timers.operate
  cases a.ten
  · rfl
  · simp only [if_true, Bool.true_eq_false, if_false]
    split <;> rfl

/-! ### SLOT_TABLE_LIVE (06 R216, R217) -/

section
variable {b : Blk} {k n : Nat} {e : Exec}

/-- The slot table that waits for the frame boundary is the one of the only executing descriptor. -/
theorem Blk.slotTableLive_of_waiting (hall : b.allExec = [(.mgr k, e)]) (hwait : e.wait = .slotLive n) (m : List Host.Cell) :
    b.slotTableLive m n = (b.slotLive n).finish m (.mgr k) e .ok 0 [] := by
  have hall' : (b.slotLive n).allExec = [(.mgr k, e)] := hall
  simp only [Blk.slotTableLive, hall', List.foldl_cons, List.foldl_nil, hwait, if_true]

theorem Blk.link_dropExec (k seq n : Nat) : (b.dropExec (.mgr k) seq).link n = b.link n := rfl

/-- An executing descriptor of a manager ring is completed by a record written at once. -/
theorem Blk.Writes.finish (h : b.Writes) (m : List Host.Cell) (st : Status) (detail : Nat) (res : List Word) :
    ∃ data, b.finish m (.mgr k) e st detail res = (b.dropExec (.mgr k) e.seq).withAnswer k data ∧
      b.Records (b.finish m (.mgr k) e st detail res) (.mgr k) e.seq ((lineWord e.line 0).toNat % 256)
        ((lineWord e.line 0).toNat / 65536) st.code detail res := by
  let c := b.dropExec (.mgr k) e.seq
  have hroom : c.RoomFor (c.cplAddr (.mgr k) / 64) :=
    h.roomFor (c := c) rfl rfl rfl (by rw [show c.lc.bufs = [] from h.noBufs]; decide)
      (by rw [show c.lc.bufs = [] from h.noBufs]; exact fun l hl => absurd hl List.not_mem_nil)
  obtain ⟨data, hdata⟩ := hroom.completeDesc_answered (d := { ring := .mgr k, seq := e.seq, line := e.line }) m rfl st detail
    res
  obtain ⟨hrec, -, -⟩ := hroom.completeDesc (d := { ring := .mgr k, seq := e.seq, line := e.line }) m rfl st detail res
  have hcpl : (c.pair (.mgr k)).cpl = (b.pair (.mgr k)).cpl := by
    rw [show c.pair (.mgr k) = _ from Blk.pair_modPair_self b (.mgr k) _]
  have hw := (lineWord e.line 0).isLt
  have htag : bits (lineWord e.line 0).toNat 31 16 = (lineWord e.line 0).toNat / 65536 := by
    simp only [bits, Nat.shiftRight_eq_div_pow]
    omega
  refine ⟨data, hdata, ?_⟩
  rw [← htag]
  exact hrec.of_cpl hcpl

theorem Blk.link_slotLive (h : (b.link n).shadDue = true) :
    (b.slotLive n).link n = { b.link n with live := (b.link n).shad, shadDue := false } := by
  rw [Blk.slotLive, Blk.link_modLink_self, if_pos h]

theorem Blk.Writes.slotLive (h : b.Writes) : (b.slotLive n).Writes :=
  ⟨h.noInject, h.noCache, h.noHeld, h.noBufs, h.noWrites, h.noRecs, h.noFail⟩

/-- The boundary makes the waiting table live, and its descriptor leaves the ring with a record. -/
theorem Blk.Writes.slotTableLive (h : b.Writes) (hall : b.allExec = [(.mgr k, e)]) (hex : (b.pair (.mgr k)).exec = [e])
    (hwait : e.wait = .slotLive n) (hdue : (b.link n).shadDue = true) (m : List Host.Cell) :
    (b.slotTableLive m n).link n = { b.link n with live := (b.link n).shad, shadDue := false } ∧
    ((b.slotTableLive m n).pair (.mgr k)).exec = [] ∧
    b.Records (b.slotTableLive m n) (.mgr k) e.seq ((lineWord e.line 0).toNat % 256)
      ((lineWord e.line 0).toNat / 65536) 0 0 [] := by
  have hex' : ((b.slotLive n).pair (.mgr k)).exec = [e] := hex
  obtain ⟨data, hdata, hrec⟩ := (h.slotLive (n := n)).finish (k := k) (e := e) m .ok 0 []
  rw [Blk.slotTableLive_of_waiting hall hwait]
  refine ⟨?_, ?_, hrec⟩
  · rw [hdata, Blk.link_withAnswer, Blk.link_dropExec, Blk.link_slotLive hdue]
  · rw [Blk.pair_finish, Pair.finished, hex']
    simp

end

/-- Settles O38: the commands of taken descriptors are followed to what they write (`exec_descriptor_answered`), and the table
that waits becomes live at the frame boundary with its completion. -/
theorem classesEnvelopesTimers : Obligations.ClassesEnvelopesTimers := by
  unfold Obligations.ClassesEnvelopesTimers
  intro s k d hk hs hlive b0 answers i t
  refine ⟨?cls, ?envelope, ?attach, ?timer, ?reserve, ?live⟩
  case cls =>
    intro h c
    refine ⟨?low, ?admitted, ?internal, ?unmapped⟩
    case low =>
      intro hv hcls
      obtain ⟨data, hdata⟩ := exec_descriptor_answered h rfl (x := .setClass (.mgr k)) rfl
        (cmdSetClass_low (b := s.blk.fetched k) hs hlive hv hcls) (Blk.leavesPorts_modStt ..) h.noBufs
      refine ⟨_, hdata, ?_, fun j hj => ?_⟩
      · rw [Blk.stt_withAnswer, Blk.stt_modStt_self (b := s.blk.fetched k) hv, Blk.stt_fetched]
        rfl
      · rw [Blk.stt_withAnswer, Blk.stt_modStt_ne hj, Blk.stt_fetched]
    case admitted =>
      intro hv hcls hcore hinternal
      exact exec_descriptor_unchanged h rfl (x := .setClass (.mgr k)) rfl (st := .stageRequired)
        (cmdSetClass_admitted (b := s.blk.fetched k) hs hv hcls hcore hinternal)
    case internal =>
      intro hv hcls hkind
      exact exec_descriptor_unchanged h rfl (x := .setClass (.mgr k)) rfl (st := .refused)
        (cmdSetClass_internal (b := s.blk.fetched k) hs hv hcls hkind)
    case unmapped =>
      intro hv
      exact exec_descriptor_unchanged h rfl (x := .setClass (.mgr k)) rfl (st := .refused)
        (cmdSetClass_unmapped (b := s.blk.fetched k) hs hv)
  case envelope =>
    intro h hform hp hb hg
    obtain ⟨data, hdata⟩ := exec_descriptor_answered h rfl (x := .setEnvelope (.mgr k)) rfl
      (cmdSetEnvelope_write (b := s.blk.fetched k) hs hlive hform hp hb hg) ⟨rfl, rfl, rfl, rfl⟩ h.noBufs
    refine ⟨_, hdata, ?_, ?_, ?_⟩
    · rw [Blk.env_withAnswer, Blk.env_envWritten]
      rfl
    · rw [Blk.sram_withAnswer, Blk.igrp_envWritten]
    · rw [Blk.sram_withAnswer]
      rfl
  case attach =>
    intro h hform hv
    obtain ⟨data, hdata⟩ := exec_descriptor_answered h rfl (x := .setEnvelope (.mgr k)) rfl
      (cmdSetEnvelope_attach (b := s.blk.fetched k) hs hlive hform hv) (Blk.leavesPorts_modStt ..) h.noBufs
    refine ⟨_, hdata, ?_⟩
    rw [Blk.stt_withAnswer, Blk.stt_modStt_self (b := s.blk.fetched k) hv, Blk.stt_fetched]
  case timer =>
    intro h a key
    obtain ⟨data, hdata⟩ := exec_descriptor_answered h rfl (x := .setTimer (.mgr k)) rfl
      (cmdSetTimer_eq (s.blk.fetched k) s.mem d) ⟨rfl, rfl, rfl, rfl⟩ h.noBufs
    refine ⟨_, hdata, ?_, ?_⟩
    · rw [Blk.tim_withAnswer, Desc.tick_timersAfter]
      rfl
    · rw [Blk.tim_withAnswer, Desc.armed_timersAfter]
      rfl
  case reserve =>
    intro h hpop
    obtain ⟨hexec, hexecuting⟩ := exec_descriptor_waits h rfl (x := .reserveSlots (.mgr k)) rfl
      (cmdReserveSlots_of_populated (b := s.blk.fetched k) (m := s.mem) hs hlive hpop) rfl
    exact ⟨_, hexec, Blk.link_slotsReserved (b := s.blk.fetched k) _ _, hexecuting, rfl⟩
  case live =>
    intro n e hn hawake hspill hframe hw hall hex hwait hdue
    have hnow : (b0.mayApply && n < 16 && b0.time.hclk = 0) = true := by simp [Blk.mayApply, hawake, hspill, hn, hframe]
    obtain ⟨hlink, hleft, hrec⟩ := hw.slotTableLive hall hex hwait hdue s.mem
    refine ⟨b0.slotTableLive s.mem n, ?_, congrArg Link.live hlink, congrArg Link.shadDue hlink, hleft, ?_⟩
    · show s.becomes (b0.when (b0.mayApply && n < 16 && b0.time.hclk = 0) (fun b => b.slotTableLive s.mem n)) = _
      rw [hnow, Blk.when_true]
    · rw [BitVec.toNat_umod]
      exact hrec

end Sys2Proof.Machine

/-! SEND_CORE_MSG, QUERY_STATE, CACHE_FLUSH and CACHE_INVALIDATE (04 R144; 05 R205, R206; 10 R399, R400, R402; 11 R406). -/
namespace Sys2Proof.Machine
open Sys2Proof

/-! ### SEND_CORE_MSG to one target (05 R205, R206) -/

section
variable {b : Blk} {m : List Host.Cell} {d : Desc} {k dom v i : Nat} {st : Stt}

/-- The descriptor names one target, in the form of a list. -/
structure Desc.OneTarget (d : Desc) : Prop where
  form : d.f 2 17 16 = 0
  count : d.f 2 19 18 = 0
  second : d.f 3 25 16 = 0
  third : d.f 4 9 0 = 0
  fourth : d.f 4 25 16 = 0

theorem Desc.OneTarget.targets (h : d.OneTarget) (n : Nat) : d.targets n = some [d.f 3 9 0] := by
  simp [Desc.targets, h.form, h.count, h.second, h.third, h.fourth, setOf, setAdd]

theorem Desc.dom_of_mgr (h : d.ring = .mgr k) (n : Nat) : d.dom n = d.f n 11 0 := by simp [Desc.dom, h]

theorem cmdSendCoreMsg_skipped (hring : d.ring = .mgr k) (h : d.OneTarget) (hv : (b.dom (d.f 2 11 0)).sh.cmcount ≤ d.f 3 9 0)
    (hwait : b.arrivalsWait (.mgr k) d.seq = false) : cmdSendCoreMsg m d b = (b, .done .ok 1 []) := by
  have hskip : b.coreTarget (d.f 2 11 0) (d.f 3 9 0) = false := by simp [Blk.coreTarget, Nat.not_lt.2 hv]
  simp [cmdSendCoreMsg, h.targets, Desc.dom_of_mgr hring, hskip, hring, hwait, arrivalsReply]

/-- The block after one arrival without a program at the active core message `i`. -/
def Blk.coreArrived (b : Blk) (i : Nat) (st : Stt) : Blk :=
  ((b.granted (st.slot % 16) 4).probe 1 i st.domid st.rank.cls).settled i st (b.releasedEntry st (b.entry st))

theorem Blk.coreArrived_eq (b : Blk) (i : Nat) (st : Stt) : ∃ slots offers arb dbg, b.coreArrived i st =
    { b with sram := { b.sram with slots := slots }, rank := { b.rank with offers := offers }, arb := arb, dbg := dbg } := by
  rw [Blk.coreArrived, Blk.probe_eq]
  obtain ⟨slots, offers, dbg, h⟩ := Blk.settled_eq _ i st (b.releasedEntry st (b.entry st))
  rw [h]
  exact ⟨_, _, _, _, rfl⟩

theorem Blk.leavesPorts_coreArrived (b : Blk) (i : Nat) (st : Stt) : b.LeavesPorts (b.coreArrived i st) := by
  obtain ⟨slots, offers, arb, dbg, h⟩ := b.coreArrived_eq i st
  rw [h]
  exact ⟨rfl, rfl, rfl, rfl⟩

theorem Blk.arrivalsWait_coreArrived (r : RingId) (seq : Nat) :
    (b.coreArrived i st).arrivalsWait r seq = b.arrivalsWait r seq := by
  obtain ⟨slots, offers, arb, dbg, h⟩ := b.coreArrived_eq i st
  rw [h]
  rfl

/-- What an arrival at a core message without a program makes of the entry. -/
theorem Blk.updBody_coreMsg_released {u : Upd} {g : BitVec 8} {by_ : Option (RingId × Nat)} {reg : Nat} {e : Entry}
    (hu : u.kind = .coreMsg g by_) (hgen : g = (b.dom st.domid).gen) (hacts : (b.dom st.domid).still = false)
    (hkind : st.kind ≠ .level) (hcv : st.clause.cv = false) (hdlv : e.dlv = false) : b.updBody m reg u st e =
      some (b.probe 1 u.stt st.domid st.rank.cls, b.releasedEntry st e) := by
  simp only [Blk.updBody, hu, Blk.arrivalStops_of_current hgen hacts, Blk.arrival_released hkind hcv hdlv]
  rw [Blk.releasedEntry, Blk.stampNow_probe]
  rfl

section
variable (h : b.Resident i st) (hkind : st.kind = .core) (hcv : st.clause.cv = false) (hdlv : (b.entry st).dlv = false)
  (hgen : (b.entry st).gen = (b.dom st.domid).gen)
include h hkind hcv hdlv hgen

/-- An arrival of the Ring Processor at a resident core message is applied at once (04 R144). -/
theorem Blk.Resident.rpApply_core (m : List Host.Cell) (by_ : Option (RingId × Nat)) :
    b.rpApply m { stt := i, mapgen := st.mapgen, kind := .coreMsg (b.dom st.domid).gen by_ } = b.coreArrived i st := by
  let u : Upd := { stt := i, mapgen := st.mapgen, kind := .coreMsg (b.dom st.domid).gen by_ }
  have hbody : (b.granted (st.slot % 16) 4).updBody m (st.slot % 16) u st (b.entry st) =
      some ((b.granted (st.slot % 16) 4).probe 1 i st.domid st.rank.cls, b.releasedEntry st (b.entry st)) :=
    Blk.updBody_coreMsg_released (b := b.granted (st.slot % 16) 4) (u := u) rfl rfl h.acts (by simp [hkind]) hcv hdlv
  have hstamped : ((b.granted (st.slot % 16) 4).probe 1 i st.domid st.rank.cls).stamped u st (b.entry st)
      (b.releasedEntry st (b.entry st)) = b.releasedEntry st (b.entry st) := by
    rw [Blk.stamped]
    split
    · rw [Blk.probe_eq]
      exact congrArg (fun g => { b.releasedEntry st (b.entry st) with gen := g }) hgen.symm
    · rfl
  have hupdate : b.update m u 4 = some (b.coreArrived i st) := by
    rw [h.update_eq rfl rfl, hbody, Option.map_some, hstamped]
    rfl
  have hspilled : b.spilled u = false := h.not_spilled rfl
  show b.rpApply m u = _
  simp only [Blk.rpApply, hspilled, hupdate, Bool.false_eq_true, if_false]

theorem Blk.Resident.coreArrival (hi : b.coreIdx dom v = i) (hv : v < (b.dom dom).sh.cmcount) (m : List Host.Cell)
    (by_ : Option (RingId × Nat)) : b.coreArrival m dom v by_ = b.coreArrived i st := by
  have hthere : (decide (v < (b.dom dom).sh.cmcount) && st.valid && decide (st.kind = .core)) = true := by
    simp [hv, h.valid, hkind]
  rw [← h.rpApply_core hkind hcv hdlv hgen m by_, Blk.coreArrival, hi, h.stt]
  exact if_pos hthere

theorem cmdSendCoreMsg_sent (hring : d.ring = .mgr k) (hone : d.OneTarget)
    (hi : b.coreIdx (d.f 2 11 0) (d.f 3 9 0) = i) (hv : d.f 3 9 0 < (b.dom (d.f 2 11 0)).sh.cmcount)
    (hwait : b.arrivalsWait (.mgr k) d.seq = false) : cmdSendCoreMsg m d b = (b.coreArrived i st, .done .ok 0 []) := by
  have htarget : b.coreTarget (d.f 2 11 0) (d.f 3 9 0) = true := by
    simp [Blk.coreTarget, hi, hv, h.stt, h.valid, hkind]
  have harrive := h.coreArrival hkind hcv hdlv hgen hi hv m (some (.mgr k, d.seq))
  simp [cmdSendCoreMsg, hone.targets, Desc.dom_of_mgr hring, htarget, hring, harrive, Blk.arrivalsWait_coreArrived, hwait,
    arrivalsReply]

end

/-- The active entry of a core message after the arrival: released, and not offered. -/
theorem Blk.Resident.entry_coreArrived (h : b.Resident i st) (hdlv : (b.entry st).dlv = false)
    (hact : (b.entry st).act = true) : (b.coreArrived i st).entry st =
      { b.entry st with pend := true, stamp := if (b.entry st).pend then (b.entry st).stamp else b.now.extractLsb' 6 14,
                        rclass := st.rank.cls, rprio := st.rank.prio, dem := false, rtv := false } := by
  have hacts : (((b.granted (st.slot % 16) 4).probe 1 i st.domid st.rank.cls).dom st.domid).still = false := by
    rw [Blk.probe_eq]
    exact h.acts
  have hsettles := Blk.settlesAt_settled (b := (b.granted (st.slot % 16) 4).probe 1 i st.domid st.rank.cls) h.valid hacts rfl i
    (b.releasedEntry st (b.entry st))
  have hactive : (b.releasedEntry st (b.entry st)).act = true := hact
  rw [Blk.SettlesAt, if_neg fun hdue => absurd (hactive.symm.trans hdue.2.1) (by decide)] at hsettles
  rw [← Blk.releasedEntry_eq hdlv]
  exact hsettles.1

/-- A source stays resident when its descriptor is fetched. -/
theorem Blk.Resident.fetched (h : b.Resident i st) (k : Nat) : (b.fetched k).Resident i st := h.congr rfl rfl rfl rfl

end

/-! ### QUERY_STATE (10 R377; 11 R406) -/

/-- The word of QUERY_STATE with index, residency and class. -/
theorem pack_queried {i c : Nat} (hi : i < 524288) (hc : c < 4) :
    pack [(i, 19, 0), (1, 1, 20), (c, 2, 21)] = i + 2 ^ 20 + c * 2 ^ 21 := by
  have hmodi : i % 2 ^ 19 = i := Nat.mod_eq_of_lt hi
  have hmodc : c % 2 ^ 2 = c := Nat.mod_eq_of_lt hc
  have hlow : i < 2 ^ 20 := by omega
  have hmid : 1 <<< 20 + i < 2 ^ 21 := by omega
  simp only [pack, List.foldl_cons, List.foldl_nil, Nat.zero_or, Nat.shiftLeft_zero, hmodi, hmodc]
  rw [show 1 % 2 ^ 1 = 1 from rfl, Nat.or_comm i, ← Nat.shiftLeft_add_eq_or_of_lt hlow, Nat.or_comm,
    ← Nat.shiftLeft_add_eq_or_of_lt hmid, Nat.shiftLeft_eq]
  omega

section
variable {b : Blk} {m : List Host.Cell} {d : Desc} {k i : Nat} {st : Stt}

/-- The answer of QUERY_STATE about a resident source. -/
def Blk.queriedWords (b : Blk) (i : Nat) (st : Stt) : List Word :=
  [(encodeEntry (b.slot st.slot).entry).extractLsb' 0 32, (encodeEntry (b.slot st.slot).entry).extractLsb' 32 32,
   BitVec.ofNat 32 (i + 2 ^ 20 + st.rank.cls.toNat * 2 ^ 21)]

theorem cmdQuery_resident (hring : d.ring = .mgr k) (hform : d.f 1 1 0 = 0)
    (hfind : b.findSource (d.f 2 11 0) (BitVec.ofNat 24 (d.f 3 23 0)) = some i) (hst : b.stt i = st) (hres : st.res = true)
    (hi : i < 524288) : cmdQuery m d b = (b, .done .ok 0 (b.queriedWords i st)) := by
  have hmanager : d.manager = true := by simp [Desc.manager, hring]
  have hword := pack_queried hi st.rank.cls.isLt
  simp only [cmdQuery, hform, cmdQueryIntid, Desc.dom_of_mgr hring, hfind, hst, hres, hmanager, if_true, b2n, hword]
  rfl

theorem cmdQuery_envelope (hform : d.f 1 1 0 = 1) : cmdQuery m d b =
    (b.modEnv (d.f 2 13 0) (fun e => { e with excess := 0 }), .done .ok 0 [(b.env (d.f 2 13 0)).excess.setWidth 32]) := by
  simp only [cmdQuery, hform]

theorem cmdQuery_domain (hring : d.ring = .mgr k) (hform : d.f 1 1 0 = 2) : cmdQuery m d b =
    (b, .done .ok 0 [BitVec.ofNat 32 (b.shareUsed (d.f 2 11 0)),
      BitVec.ofNat 32 (seqDist (b.dom (d.f 2 11 0)).elq.ring.r (b.dom (d.f 2 11 0)).elq.ring.w),
      BitVec.ofNat 32 ((b.dom (d.f 2 11 0)).gen.toNat + (b.dom (d.f 2 11 0)).st.code * 2 ^ 8)]) := by
  simp only [cmdQuery, hform, Desc.dom_of_mgr hring]

end

/-! ### CACHE_FLUSH (10 R399) -/

section
variable {b : Blk} {m : List Host.Cell} {d : Desc} {l : CLine}

theorem Desc.inScope_of_all (h : d.b 1 0 = false) (line : Nat) : d.inScope line = true := by simp [Desc.inScope, h]

theorem cmdFlush_clean (hform : d.b 1 0 = false) (hclean : ∀ l ∈ b.lc.lines, l.dirty = false) :
    cmdFlush m d b = ({ b with lc := { b.lc with dropped := 0 } }, .ok) := by
  have hnone : b.lc.lines.filter (fun l => l.dirty && d.inScope l.line) = [] :=
    List.filter_eq_nil_iff.2 fun l hl => by simp [hclean l hl]
  simp [cmdFlush, hform, hnone, setOf]

/-- The block with its one cached line passed to a line buffer, valid and clean. -/
def Blk.flushing (b : Blk) (l : CLine) : Blk := b.withLines [{ l with dirty := false }] [l]

theorem Blk.Writes.flushPump (h : b.Writes) (hlines : b.lc.lines = [l]) (hd : l.dirty = true) :
    b.flushPump [] [l.line] = (b.flushing l, [], [l.line]) := by
  have hfind : b.lc.find l.line = some l := by simp [LCache.find, hlines]
  have hbufs : b.lbufs = 0 := by rw [Blk.lbufs_of_noWrites h.noWrites, h.noBufs, List.length_nil]
  have hfree : b.inBuf l.line = false := Blk.inBuf_of_noWrites h.noWrites (by simp [h.noBufs])
  simp [Blk.flushPump, hfind, hd, hbufs, hfree, LCache.modLine, hlines, h.noBufs, setAdd, Blk.flushing, Blk.withLines]

theorem Blk.Writes.cmdFlush_dirty (h : b.Writes) (hform : d.b 1 0 = false) (hlines : b.lc.lines = [l]) (hd : l.dirty = true) :
    cmdFlush m d b = (b.flushing l, .wait (.flush [] [l.line] 1 true)) := by
  simp [cmdFlush, hform, hlines, hd, Desc.inScope_of_all hform, setOf, setAdd, h.flushPump hlines hd]

/-! ### CACHE_INVALIDATE (10 R400) -/

/-- Reports of one source, one for each member of a list, follow those that wait. -/
theorem Blk.foldl_raise {α : Type} (x : List α) (k : Nat) (b : Blk) :
    ∃ lanes, x.foldl (fun b _ => b.raise k) b = { b with ing := { b.ing with lanes := lanes } } ∧
      ((x.foldl (fun b _ => b.raise k) b).lane 24).reports = (b.lane 24).reports ++ List.replicate x.length k := by
  induction x generalizing b with
  | nil => exact ⟨b.ing.lanes, rfl, (List.append_nil _).symm⟩
  | cons y x ih =>
    obtain ⟨lanes, heq, hreports⟩ := ih (b.raise k)
    have hraise : ((b.raise k).lane 24).reports = (b.lane 24).reports ++ [k] :=
      congrArg Lane.reports (Blk.lane_modLane_self b 24 _)
    refine ⟨lanes, heq, ?_⟩
    rw [List.foldl_cons, hreports, hraise, List.append_assoc, List.length_cons, List.replicate_succ, List.singleton_append]

/-- The Line Cache after every line was dropped. -/
def LCache.emptied (c : LCache) : LCache :=
  { c with lines := [], invalSince := true, dropped := satAdd c.dropped (c.lines.filter (·.dirty)).length }

/-- The block after every line was dropped, each dirty one reported. -/
def Blk.invalidated (b : Blk) : Blk :=
  (b.lc.lines.filter (·.dirty)).foldl (fun b _ => b.raise 0x0E) { b with lc := b.lc.emptied }

theorem Blk.invalidated_eq (b : Blk) : ∃ lanes,
    b.invalidated = { b with lc := b.lc.emptied, ing := { b.ing with lanes := lanes } } ∧
    (b.invalidated.lane 24).reports = (b.lane 24).reports ++ List.replicate (b.lc.lines.filter (·.dirty)).length 0x0E :=
  Blk.foldl_raise _ _ _

theorem satAdd_byte (c : BitVec 8) (n : Nat) : satAdd c n = BitVec.ofNat 8 (min (c.toNat + n) 255) := by
  unfold satAdd
  split
  case isTrue h =>
    apply BitVec.eq_of_toNat_eq
    simp only [BitVec.toNat_add, BitVec.toNat_ofNat]
    omega
  case isFalse h =>
    rw [Nat.min_eq_right (by omega)]
    rfl

theorem cmdInvalidate_all (hform : d.b 1 0 = false) (hheld : ∀ l ∈ b.lc.lines, l.held = false) (hfills : b.lc.fills = []) :
    cmdInvalidate m d b = (b.invalidated, .ok) := by
  have hfree : b.lc.lines.any (fun l => l.held && true) = false := List.any_eq_false.2 fun l hl => by simp [hheld l hl]
  simp only [cmdInvalidate, hform, hfree, hfills, Desc.inScope_of_all hform, List.any_nil, Bool.false_and, Bool.or_self,
    Bool.false_eq_true, if_false, Bool.not_true, Bool.not_false, Bool.or_true, List.filter_true, List.filter_false,
    Blk.invalidated, LCache.emptied]

end

/-- Settles O41: the command of each taken descriptor is followed to what it leaves; `exec_descriptor_answered` gives its
record. -/
theorem messagesQueriesCacheCommands : Obligations.MessagesQueriesCacheCommands := by
  unfold Obligations.MessagesQueriesCacheCommands
  intro s k d hk b0 r answers dom v
  refine ⟨?send, fun h => ⟨?intid, ?envelope, ?domain⟩, fun h hform => ⟨?clean, ?dirty⟩, ?invalidate⟩
  case send =>
    intro h hwait hform hcount h2 h3 h4
    have hone : d.OneTarget := ⟨hform, hcount, h2, h3, h4⟩
    refine ⟨?sent, fun hv => ?skipped⟩
    case sent =>
      intro t hv hslot hkind hcv hdom e hdlv hact hgen
      have hres := hslot.resident.fetched k
      obtain ⟨data, hdata⟩ := exec_descriptor_answered h rfl (x := .sendCoreMsg (.mgr k)) rfl (st := .ok)
        (cmdSendCoreMsg_sent (m := s.mem) hres hkind hcv hdlv (hdom ▸ hgen) h.ring hone rfl hv hwait)
        (Blk.leavesPorts_coreArrived ..) (by
          obtain ⟨slots, offers, arb, dbg, heq⟩ := (s.blk.fetched k).coreArrived_eq ((b0.dom dom).sh.cmbase + v) t
          rw [heq]
          exact h.noBufs)
      refine ⟨_, hdata, ?_⟩
      rw [Blk.entry_withAnswer]
      exact hres.entry_coreArrived hdlv hact
    case skipped =>
      exact exec_descriptor_unchanged h rfl (x := .sendCoreMsg (.mgr k)) rfl (st := .ok)
        (cmdSendCoreMsg_skipped (b := s.blk.fetched k) (m := s.mem) h.ring hone hv hwait)
  case intid =>
    intro hform i t hfind hst hres hi
    exact exec_descriptor_unchanged h rfl (x := .queryState (.mgr k)) rfl (st := .ok)
      (cmdQuery_resident (b := s.blk.fetched k) (m := s.mem) h.ring hform hfind hst hres hi)
  case envelope =>
    intro hform n
    obtain ⟨data, hdata⟩ := exec_descriptor_answered h rfl (x := .queryState (.mgr k)) rfl (st := .ok)
      (cmdQuery_envelope (b := s.blk.fetched k) (m := s.mem) hform) ⟨rfl, rfl, rfl, rfl⟩ h.noBufs
    refine ⟨_, hdata, ?_⟩
    rw [Blk.env_withAnswer, Blk.env_modEnv_self]
    rfl
  case domain =>
    intro hform hlive x
    have hcmd := cmdQuery_domain (b := s.blk.fetched k) (m := s.mem) h.ring hform
    have hst : ((s.blk.fetched k).dom (d.f 2 11 0)).st = .live := hlive
    rw [hst] at hcmd
    exact exec_descriptor_unchanged h rfl (x := .queryState (.mgr k)) rfl (st := .ok) hcmd
  case clean =>
    intro hclean
    obtain ⟨data, hdata⟩ := exec_descriptor_answered h rfl (x := .cacheFlush (.mgr k)) rfl (st := .ok)
      (cmdFlush_clean (b := s.blk.fetched k) (m := s.mem) hform hclean) ⟨rfl, rfl, rfl, rfl⟩ h.noBufs
    refine ⟨_, hdata, ?_⟩
    rw [Blk.lc_withAnswer]
    rfl
  case dirty =>
    intro l hlines hd
    obtain ⟨hexec, hexecuting⟩ := exec_descriptor_waits h rfl (x := .cacheFlush (.mgr k)) rfl
      (h.toWrites.fetched.cmdFlush_dirty (m := s.mem) hform hlines hd) rfl
    exact ⟨_, hexec, rfl, rfl, hexecuting⟩
  case invalidate =>
    intro h hform hfills n
    obtain ⟨lanes, heq, hreports⟩ := (s.blk.fetched k).invalidated_eq
    obtain ⟨data, hdata⟩ := exec_descriptor_answered h rfl (x := .cacheInvalidate (.mgr k)) rfl (st := .ok)
      (cmdInvalidate_all (b := s.blk.fetched k) (m := s.mem) hform h.noHeld hfills) (by rw [heq]; exact ⟨rfl, rfl, rfl, rfl⟩)
      (by rw [heq]; exact h.noBufs)
    refine ⟨_, hdata, ?_, ?_⟩
    · rw [Blk.lc_withAnswer, heq]
      show ((s.blk.fetched k).lc.emptied).miss = _
      rw [LCache.emptied, satAdd_byte]
      rfl
    · rw [Blk.reports_withAnswer, hreports, List.append_assoc]
      exact (List.sublist_append_left _ _).trans (List.sublist_append_right _ _)

end Sys2Proof.Machine

/-! Resynchronisation of the route tables (05 R195), and the settling of O12. -/
namespace Sys2Proof.Machine
open Sys2Proof

section
variable (b : Blk) (c : RtCopy)

@[simp] theorem Blk.liveRt_setShad : (b.setShad c).liveRt = b.liveRt := by
  cases h : b.rank.epoch <;> simp [Blk.setShad, Blk.liveRt, h]

@[simp] theorem Blk.shadRt_setShad : (b.setShad c).shadRt = c := by
  cases h : b.rank.epoch <;> simp [Blk.setShad, Blk.shadRt, h]

@[simp] theorem Blk.epoch_setShad : (b.setShad c).rank.epoch = b.rank.epoch := by
  cases h : b.rank.epoch <;> simp [Blk.setShad, h]

end

/-- The copies of `b` with `sh` as its shadow, what is left to copy being `rs` and `gs`. -/
def Blk.resynced (b : Blk) (sh : RtCopy) (rs gs : NSet) (more : Bool) : Blk :=
  let c := b.setShad sh
  { c with rank := { c.rank with dirtyR := rs, dirtyG := gs, resync := more } }

section
variable (b : Blk) (sh : RtCopy) (rs gs : NSet) (more : Bool)

theorem Blk.liveRt_resynced : (b.resynced sh rs gs more).liveRt = b.liveRt := b.liveRt_setShad sh
theorem Blk.shadRt_resynced : (b.resynced sh rs gs more).shadRt = sh := b.shadRt_setShad sh
theorem Blk.epoch_resynced : (b.resynced sh rs gs more).rank.epoch = b.rank.epoch := b.epoch_setShad sh

end

section
variable {b : Blk} {rest : NSet}

theorem Blk.resyncStep_of_oldCnt (h : b.oldCnt ≠ 0) : b.resyncStep = b := by
  simp [Blk.resyncStep, h]

variable (hr : b.rank.resync = true) (hold : b.oldCnt = 0)
include hr hold

/-- The first entry that is left is copied. -/
theorem Blk.resyncStep_route {i : Nat} (hd : b.rank.dirtyR = i :: rest) :
    b.resyncStep = b.resynced { b.shadRt with routes := tabSet {} b.shadRt.routes i (b.liveRt.route i) } rest b.rank.dirtyG
      (!(rest.isEmpty && b.rank.dirtyG.isEmpty)) := by
  cases he : b.rank.epoch <;> simp [Blk.resyncStep, hr, hold, hd, Blk.resynced, Blk.setShad, he]

/-- With no entry left, the first group is. -/
theorem Blk.resyncStep_group {g : Nat} (hd : b.rank.dirtyR = []) (hg : b.rank.dirtyG = g :: rest) :
    b.resyncStep = b.resynced { b.shadRt with groups := tabSet {} b.shadRt.groups g (b.liveRt.group g) } [] rest
      (!rest.isEmpty) := by
  cases he : b.rank.epoch <;> simp [Blk.resyncStep, hr, hold, hd, hg, Blk.resynced, Blk.setShad, he]

end

theorem exec_routeResync {s : State} (ha : s.blk.awake = true) : exec .routeResync s = s.becomes s.blk.resyncStep := by
  show s.becomes (s.blk.when s.blk.awake Blk.resyncStep) = _
  rw [ha, Blk.when_true]

/-- Settles O12: a step copies the first entry that is left, or the first group, and nothing while a candidate holds the epoch
before the flip. -/
theorem resyncCopiesLiveToShadow : Obligations.ResyncCopiesLiveToShadow := by
  unfold Obligations.ResyncCopiesLiveToShadow
  intro s ha hr live shadow b0
  have hlive : live = Blk.liveRt := rfl
  have hshadow : shadow = Blk.shadRt := rfl
  rw [exec_routeResync ha, hlive, hshadow]
  refine ⟨fun hold => ?waits, fun hold => ⟨fun i rest hd => ?route, fun g rest hd hg => ?group⟩⟩
  case waits => rw [Blk.resyncStep_of_oldCnt hold]
  case route =>
    rw [Blk.resyncStep_route hr hold hd]
    refine ⟨_, rfl, Blk.liveRt_resynced .., Blk.epoch_resynced .., rfl, rfl, fun j => ?_, ?_⟩ <;> rw [Blk.shadRt_resynced]
    exact tabGet_tabSet ..
  case group =>
    rw [Blk.resyncStep_group hr hold hd hg]
    refine ⟨_, rfl, Blk.liveRt_resynced .., Blk.epoch_resynced .., rfl, rfl, fun j => ?_, ?_⟩ <;> rw [Blk.shadRt_resynced]
    exact tabGet_tabSet ..

end Sys2Proof.Machine

/-! Re-offer requests: what a series of them issues, and one performed at its bank (05 R176, R179, R189, R190; 11 R427). -/
namespace Sys2Proof.Machine
open Sys2Proof

theorem mem_tabDel_iff {α : Type} {t : Tab α} {n : Nat} {x : Nat × α} : x ∈ tabDel t n ↔ x ∈ t ∧ x.1 ≠ n := by
  refine ⟨fun h => ⟨(tabDel_sublist t n).subset h, key_ne_of_mem_tabDel h⟩, fun ⟨h, hn⟩ => ?_⟩
  clear * - h hn
  induction t with
  | nil => cases h
  | cons y t ih =>
    unfold tabDel
    rcases List.mem_cons.1 h with rfl | h
    · rw [if_neg hn]; exact List.mem_cons_self
    · split
      · exact ih h
      · exact List.mem_cons_of_mem _ (ih h)

/-! ### A series of requests -/

/-- The request that is issued for an index. -/
def Blk.reofferOf (b : Blk) (f : ReofferFrom) (i : Nat) : Upd :=
  { stt := i, mapgen := (b.stt i).mapgen, kind := .reoffer f (b.dom (b.stt i).domid).gen }

/-- From `b0` to `b` requests were issued for the indexes of `l`, in their order: their bits left the three bitmaps, and
nothing else changed. -/
structure Blk.Reoffered (b0 b : Blk) (f : ReofferFrom) (l : List Nat) : Prop where
  reoffers : b.rank.reoffers = b0.rank.reoffers ++ l.map (b0.reofferOf f)
  parked : ∀ i, i ∈ b.rank.parked ↔ i ∈ b0.rank.parked ∧ i ∉ l
  posted : ∀ i, i ∈ b.rank.posted ↔ i ∈ b0.rank.posted ∧ i ∉ l
  geyserBits : ∀ x, x ∈ b.rank.geyserBits ↔ x ∈ b0.rank.geyserBits ∧ x.1 ∉ l
  rest : { b with rank := { b.rank with reoffers := b0.rank.reoffers, parked := b0.rank.parked, posted := b0.rank.posted,
                                        geyserBits := b0.rank.geyserBits } } = b0

theorem Blk.reoffered_foldl (f : ReofferFrom) (l : List Nat) (b : Blk) :
    b.Reoffered (l.foldl (fun b i => b.issueReoffer i f) b) f l := by
  induction l generalizing b with
  | nil => exact ⟨by simp, by simp, by simp, by simp, rfl⟩
  | cons i l ih =>
    obtain ⟨hre, hparked, hposted, hbits, hrest⟩ := ih (b.issueReoffer i f)
    rw [List.foldl_cons]
    refine ⟨?_, fun k => ?_, fun k => ?_, fun x => ?_, ?_⟩
    · rw [hre]
      exact List.append_assoc b.rank.reoffers [b.reofferOf f i] (l.map (b.reofferOf f))
    · rw [hparked, List.mem_cons, not_or, ← and_assoc]
      exact and_congr_left' ((mem_setDel ..).trans and_comm)
    · rw [hposted, List.mem_cons, not_or, ← and_assoc]
      exact and_congr_left' ((mem_setDel ..).trans and_comm)
    · rw [hbits, List.mem_cons, not_or, ← and_assoc]
      exact and_congr_left' mem_tabDel_iff
    · exact congrArg (fun c : Blk => { c with rank := { c.rank with
        reoffers := b.rank.reoffers, parked := b.rank.parked, posted := b.rank.posted, geyserBits := b.rank.geyserBits } }) hrest

/-! ### A step of a rescan -/

section
variable {b : Blk} {p : Nat}

/-- The members of a bitmap in the word at a position. -/
def wordAt (s : NSet) (p : Nat) : NSet := s.filter (fun i => p ≤ i && i < p + 64)

theorem mem_wordAt {s : NSet} {i : Nat} : i ∈ wordAt s p ↔ i ∈ s ∧ p ≤ i ∧ i < p + 64 := by
  simp [wordAt]

theorem nextScan_eq (p : Nat) (again : Bool) :
    (nextScan p again).1 = if p + 64 < 524288 then some (p + 64) else if again then some 0 else none := by
  unfold nextScan
  split
  · rfl
  · split <;> rfl

/-- Outside the word that is examined, a member stays. -/
theorem mem_and_notMem_wordAt {s : NSet} {i : Nat} : i ∈ s ∧ i ∉ wordAt s p ↔ i ∈ s ∧ ¬ (p ≤ i ∧ i < p + 64) := by
  rw [mem_wordAt, not_and]
  exact ⟨fun h => ⟨h.1, h.2 h.1⟩, fun h => ⟨h.1, fun _ => h.2⟩⟩

/-- The block after requests for a word of the parked bitmap. -/
def Blk.parkedWord (b : Blk) (p : Nat) : Blk := (wordAt b.rank.parked p).foldl (fun b i => b.issueReoffer i .parked) b

/-- The block after requests for a word of the posted bitmap. -/
def Blk.postedWord (b : Blk) (p : Nat) : Blk := (wordAt b.rank.posted p).foldl (fun b i => b.issueReoffer i .posted) b

theorem Blk.parkedStep_eq (h : b.rank.rescan = some p) : b.parkedStep =
    { b.parkedWord p with rank := { (b.parkedWord p).rank with
        rescan := (nextScan p (b.parkedWord p).rank.rescanAgain).1,
        rescanAgain := (nextScan p (b.parkedWord p).rank.rescanAgain).2 } } := by
  simp only [Blk.parkedStep, h]
  rfl

theorem Blk.postedStep_eq (h : b.rank.postScan = some p) : b.postedStep =
    { b.postedWord p with rank := { (b.postedWord p).rank with
        postScan := (nextScan p (b.postedWord p).rank.postAgain).1,
        postAgain := (nextScan p (b.postedWord p).rank.postAgain).2 } } := by
  simp only [Blk.postedStep, h]
  rfl

end

/-! ### One request performed at its bank -/

section
variable {b b' : Blk} {i : Nat} {st : Stt} {e e' : Entry} {u : Upd} {g : BitVec 8} {f : ReofferFrom}

/-- An entry that is due no offer is written as it is. -/
theorem Blk.settled_of_not_due (h : ¬ (e.pend = true ∧ e.act = false ∧ e.dlv = false)) (i : Nat) :
    b.settled i st e = b.modSlot st.slot (fun s => { s with entry := e }) := by
  have hif : b.offerIf (st.slot % 16) i st e = (b, e) := by
    unfold Blk.offerIf
    rw [if_neg]
    simp only [Bool.and_eq_true, Bool.not_eq_true']
    exact fun hc => h ⟨hc.1.1.1.1, hc.1.1.1.2, hc.1.1.2⟩
  rw [Blk.settled, hif]

/-- One that waits with no copy is offered afresh. -/
theorem Blk.reofferDue_waiting (hacts : (b.dom st.domid).still = false) (hcopies : b.hasCopies i st.mapgen = false)
    (hdlv : e.dlv = true) (hact : e.act = false) (hpend : e.pend = true) (reg : Nat) :
    b.reofferDue reg i st e .parked = (b.putOffer reg (offerOf i st e) st, e) := by
  simp only [Blk.reofferDue, hacts, hdlv, hcopies, hact, hpend, Bool.false_eq_true, if_false, if_true, Bool.not_true, Bool.or_self]
  rfl

/-- One that was claimed in the meantime is not, and nothing of it is delivered any more. -/
theorem Blk.reofferDue_active (hacts : (b.dom st.domid).still = false) (hcopies : b.hasCopies i st.mapgen = false)
    (hdlv : e.dlv = true) (hact : e.act = true) (reg : Nat) : b.reofferDue reg i st e .parked = (b, copiesGone e) := by
  simp [Blk.reofferDue, hacts, hdlv, hcopies, hact]

/-- Whatever request it makes, a source of another MAPGEN is none of its. -/
theorem Blk.update_reoffer_of_stale (harm : b.inj.arm = []) (hm : (b.stt u.stt).mapgen ≠ u.mapgen)
    (hu : u.kind = .reoffer f g) (m : List Host.Cell) (input : Nat) : b.update m u input = some b := by
  simp [Blk.update, Blk.sttRead_of_noArm harm, hm, Blk.freeOrphan, Blk.updGone, hu]

/-- The request issued first is performed, and leaves the list. -/
theorem Blk.reofferTake_of_performed {rest : List Upd} (hre : b.rank.reoffers = u :: rest)
    (hp : b.reofferPerform m u = some b') (hkeep : b'.rank.reoffers = b.rank.reoffers) :
    b.reofferTake m = { b' with rank := { b'.rank with reoffers := rest } } := by
  simp only [Blk.reofferTake, hre, hp, Option.map_some, Option.getD_some, hkeep, List.drop_succ_cons, List.drop_zero]

/-- A request for a resident source takes the Ranking Unit's turn at input 5 of its bank. -/
theorem Blk.Resident.reofferPerform_eq (h : b.Resident i st) (hi : u.stt = i) (hm : u.mapgen = st.mapgen)
    (hu : u.kind = .reoffer f g) (hturn : setHas b.arb.turn5 (st.slot % 16) = false) {m : List Host.Cell}
    (hdue : (b.granted (st.slot % 16) 5).reofferDue (st.slot % 16) i st (b.entry st) f = (b', e')) :
    b.reofferPerform m u = some ((b'.settled i st e').took5 (st.slot % 16) true) := by
  have hbody : (b.granted (st.slot % 16) 5).updBody m (st.slot % 16) u st (b.entry st) = some (b', e') := by
    simp only [Blk.updBody, hu, hi, hdue]
  have hupd : b.update m u 5 = some (b'.settled i st e') := by
    rw [h.update_eq hi hm, hbody, Option.map_some, Blk.stamped_of_not_writesGen (by rw [hu]; rfl)]
  simp [Blk.reofferPerform, h.not_spilled hi, Blk.update5, Blk.resident, Blk.yields5, hi, h.stt, h.valid, hm, h.res, hturn,
    hupd]

/-- A request under another MAPGEN has no source. -/
theorem Blk.reofferPerform_of_stale (harm : b.inj.arm = []) (hm : (b.stt u.stt).mapgen ≠ u.mapgen)
    (hu : u.kind = .reoffer f g) (m : List Host.Cell) : b.reofferPerform m u = some b := by
  simp [Blk.reofferPerform, Blk.spilled, Blk.update5, Blk.resident, hm, Blk.update_reoffer_of_stale harm hm hu]

end

/-! ### The rows -/

/-- The Ranking Unit runs. -/
theorem Blk.ranks_of_awake {b : Blk} (ha : b.awake = true) (hclient : setHas b.pwr.seq.stopped 29 = false) :
    b.ranks = true := by
  simp [Blk.ranks, Blk.clientUp, ha, hclient]

section
variable {s : State} (h : s.blk.ranks = true)
include h

theorem exec_reOfferRequest : exec .reOfferRequest s = s.becomes (s.blk.reofferTake s.mem) := by
  show s.becomes (s.blk.when s.blk.ranks (fun b => b.reofferTake s.mem)) = _
  rw [h, Blk.when_true]

theorem exec_parkedRescan : exec .parkedRescan s = s.becomes s.blk.parkedStep := by
  show s.becomes (s.blk.when s.blk.ranks Blk.parkedStep) = _
  rw [h, Blk.when_true]

theorem exec_postedRescan : exec .postedRescan s = s.becomes s.blk.postedStep := by
  show s.becomes (s.blk.when s.blk.ranks Blk.postedStep) = _
  rw [h, Blk.when_true]

end

/-- Settles O11: the oldest request by the state in which it finds its entry, and one word of a rescan. -/
theorem reoffersAndRescans : Obligations.ReoffersAndRescans := by
  unfold Obligations.ReoffersAndRescans
  intro s ha hclient b0
  have hranks := Blk.ranks_of_awake ha hclient
  refine ⟨fun u rest st g hre hu hat hcopies hturn => ?request, fun p => ⟨fun hp => ?parked, fun hp => ?posted⟩⟩
  case request =>
    have hr := hat.resident
    intro e result
    have hdone : ∀ {b' e' offers}, b0.reofferPerform s.mem u = some b' → b'.rank.reoffers = b0.rank.reoffers →
        b'.entry st = e' → b'.rank.offers = offers → result e' offers := fun hp hkeep hentry hoffers =>
      ⟨_, (exec_reOfferRequest hranks).trans (congrArg s.becomes (Blk.reofferTake_of_performed hre hp hkeep)), rfl, hentry,
        hoffers⟩
    refine ⟨fun hm hdlv hact hpend => ?waiting, fun hm hdlv hact => ?active, fun hm => ?stale⟩
    case waiting =>
      have hdue := Blk.reofferDue_waiting (b := b0.granted (st.slot % 16) 5) hr.acts hcopies hdlv hact hpend (st.slot % 16)
      have hstays : ¬ (e.pend = true ∧ e.act = false ∧ e.dlv = false) := by simp [hdlv]
      refine hdone (hr.reofferPerform_eq rfl hm hu hturn hdue) ?_ ?_ ?_ <;>
        rw [Blk.settled_of_not_due hstays, Blk.putOffer, Blk.probe_eq]
      · rfl
      · exact congrArg Slot.entry (Blk.slot_modSlot_self ..)
      · rfl
    case active =>
      have hdue := Blk.reofferDue_active (b := b0.granted (st.slot % 16) 5) hr.acts hcopies hdlv hact (st.slot % 16)
      have hstays : ¬ ((copiesGone e).pend = true ∧ (copiesGone e).act = false ∧ (copiesGone e).dlv = false) := by
        simp [copiesGone, hact]
      refine hdone (hr.reofferPerform_eq rfl hm hu hturn hdue) ?_ ?_ ?_ <;> rw [Blk.settled_of_not_due hstays]
      · rfl
      · exact congrArg Slot.entry (Blk.slot_modSlot_self ..)
      · rfl
    case stale =>
      have hstale : (b0.stt u.stt).mapgen ≠ u.mapgen := by rw [hr.stt]; exact hm.symm
      exact hdone (Blk.reofferPerform_of_stale hr.noInject hstale hu s.mem) rfl rfl rfl
  case parked =>
    obtain ⟨hre, hparked, -, -, hrest⟩ := b0.reoffered_foldl .parked (wordAt b0.rank.parked p)
    refine ⟨_, exec_parkedRescan hranks, ?_⟩
    rw [Blk.parkedStep_eq hp]
    refine ⟨hre, (nextScan_eq ..).trans ?_, fun i => (hparked i).trans mem_and_notMem_wordAt⟩
    rw [show (b0.parkedWord p).rank.rescanAgain = b0.rank.rescanAgain from congrArg (·.rank.rescanAgain) hrest]
  case posted =>
    obtain ⟨hre, -, hposted, -, hrest⟩ := b0.reoffered_foldl .posted (wordAt b0.rank.posted p)
    refine ⟨_, exec_postedRescan hranks, ?_⟩
    rw [Blk.postedStep_eq hp]
    refine ⟨hre, (nextScan_eq ..).trans ?_, fun i => (hposted i).trans mem_and_notMem_wordAt⟩
    rw [show (b0.postedWord p).rank.postAgain = b0.rank.postAgain from congrArg (·.rank.postAgain) hrest]

end Sys2Proof.Machine

/-! Firings of a Geyser channel (05 R202, R203, R209), and the settling of O13. -/
namespace Sys2Proof.Machine
open Sys2Proof

/-! ### The registers of a channel -/

/-- A channel whose registers are in force as they were written loads nothing new. -/
theorem Geyser.load_eq {g : Geyser} (hcfg : g.cfgW = BitVec.ofNat 32 (g.period.toNat + 2 ^ 16 * g.burst.toNat))
    (hphase : g.phaseW = g.phase.setWidth 32) (hlt : g.phase.toNat < g.period.toNat) : g.load = g := by
  have hp := g.period.isLt
  have hb := g.burst.isLt
  have hph := g.phase.isLt
  have hword : g.cfgW.toNat = g.period.toNat + 2 ^ 16 * g.burst.toNat := by
    rw [hcfg, BitVec.toNat_ofNat]; omega
  have hperiod : bits g.cfgW.toNat 15 0 = g.period.toNat := by
    rw [bits_eq_mod_div _ (by decide), hword]; omega
  have hburst : bits g.cfgW.toNat 27 16 = g.burst.toNat := by
    rw [bits_eq_mod_div _ (by decide), hword]; omega
  have hphase' : bits g.phaseW.toNat 15 0 = g.phase.toNat := by
    rw [bits_eq_mod_div _ (by decide), hphase, BitVec.toNat_setWidth]; omega
  have hne : g.period.toNat ≠ 0 := by omega
  simp only [Geyser.load, hperiod, hburst, hphase', if_neg hne, Nat.mod_eq_of_lt hlt, BitVec.ofNat_toNat, BitVec.setWidth_eq]

/-! ### When a channel fires -/

section
variable {b : Blk} {c : Nat}

/-- In RUN under a valid time base a channel fires in the first HCLK of a microsecond of its phase (05 R202). -/
theorem Blk.geyserTime_iff (ha : b.awake = true) (hvalid : b.time.valid = true) {g : Geyser}
    (hg : tabGet {} b.rank.geysers c = g) (hperiod : g.period.toNat ≠ 0) : b.geyserTime c = true ↔
      (b.time.tb.toNat / 1000 + g.period.toNat - g.phase.toNat) % g.period.toNat = 0 ∧
      6 * (b.time.tb.toNat % 1000) + b.time.sixths < b.clk.period := by
  have htick : b.tickLen = b.clk.period := by rw [Blk.tickLen, if_pos ha]
  simp only [Blk.geyserTime, hg, hvalid, htick, if_true, Bool.and_eq_true, decide_eq_true_eq, beq_iff_eq]
  exact and_iff_right hperiod

theorem Blk.up_of_awake {b : Blk} (ha : b.awake = true) (hseq : b.pwr.seq.seq = .none) : b.up = true := by
  have hrun := Blk.powerState_of_awake ha
  have hstart := Blk.start_of_awake ha
  simp only [Blk.awake, Blk.inRun, Bool.and_eq_true, Bool.not_eq_true'] at ha
  obtain ⟨⟨-, hreset⟩, -⟩ := ha
  simp [Blk.up, hstart, hreset, hrun, hseq]

theorem exec_geyserFire {s : State} (ha : s.blk.awake = true) (hseq : s.blk.pwr.seq.seq = .none) (hc : c < 16) :
    exec (.geyserFire c) s = s.becomes (if s.blk.geyserTime c then s.blk.geyserFire c else s.blk) := by
  have hup := Blk.up_of_awake ha hseq
  have hdue : s.blk.geyserDue s.mem c = s.blk.geyserFire c := by
    simp [Blk.geyserDue, Blk.fallsDue, ha, hseq, hup, Blk.when]
  show s.becomes (s.blk.when (c < 16 && (s.blk.up || s.blk.pwr.seq.seq ≠ .none) && s.blk.geyserTime c)
    (fun b => b.geyserDue s.mem c)) = _
  simp only [hc, hup, hdue, decide_true, Bool.true_or, Bool.true_and, Blk.when]

end

/-! ### What a firing takes -/

/-- An index stands after the resume point. -/
def Geyser.after (g : Geyser) (i : Nat) : Bool :=
  match g.resume with
  | none => true
  | some r => r < i

/-- The indexes that channel `c` holds after its resume point. -/
def Blk.geyserAfter (b : Blk) (c : Nat) : List Nat :=
  (b.rank.geyserBits.filter (fun x => x.2 == some c && (tabGet {} b.rank.geysers c).after x.1)).map (·.1)

theorem Geyser.after_eq (g : Geyser) (i : Nat) :
    g.after i = decide ((match g.resume with
      | none => 0
      | some r => r + 1) ≤ i) := by
  unfold Geyser.after
  cases g.resume with
  | none => rfl
  | some r => rfl

section
variable {b : Blk} {c : Nat} {g : Geyser}

/-- The block with the channel's registers in force. -/
def Blk.geyserLoaded (b : Blk) (c : Nat) (g : Geyser) : Blk :=
  { b with rank := { b.rank with geysers := tabSet {} b.rank.geysers c g } }

/-- The block with the channel's resume point set. -/
def Blk.resumeAt (b : Blk) (c : Nat) (r : Option Nat) : Blk :=
  { b with rank := { b.rank with geysers := tabMod {} b.rank.geysers c (fun x => { x with resume := r }) } }

theorem Blk.resume_resumeAt (b : Blk) (c : Nat) (r : Option Nat) :
    (tabGet {} (b.resumeAt c r).rank.geysers c).resume = r :=
  congrArg Geyser.resume (tabGet_tabMod_self {} b.rank.geysers c (fun x => { x with resume := r }))

theorem Blk.geyserFire_eq (hg : tabGet {} b.rank.geysers c = g) (hload : g.load = g) (hperiod : g.period ≠ 0) :
    b.geyserFire c =
      let t := (b.geyserAfter c).take (g.burst.toNat + 1)
      (t.foldl (fun b i => b.issueReoffer i (.geyser c)) (b.geyserLoaded c g)).resumeAt c t.getLast? := by
  simp only [Blk.geyserFire, hg, hload, if_neg hperiod, Blk.geyserAfter, Geyser.after_eq]
  rfl

end

/-- Settles O13: a channel that is due issues requests for a burst of what it holds after its resume point. -/
theorem geyserFiringTakesBurst : Obligations.GeyserFiringTakesBurst := by
  unfold Obligations.GeyserFiringTakesBurst
  intro s c ha hseq hc b0 g hcfg hphase hlt hvalid p due
  have hne : g.period.toNat ≠ 0 := by omega
  have htime : b0.geyserTime c = true ↔ due := Blk.geyserTime_iff ha hvalid rfl hne
  rw [exec_geyserFire ha hseq hc]
  refine ⟨fun hno => ?early, fun hdue hsorted => ?fires⟩
  case early => rw [if_neg (fun h => hno (htime.1 h))]
  case fires =>
    have hperiod : g.period ≠ 0 := fun h => hne (congrArg BitVec.toNat h)
    rw [if_pos (htime.2 hdue), Blk.geyserFire_eq rfl (Geyser.load_eq hcfg hphase hlt) hperiod]
    intro held taken
    obtain ⟨hre, -, -, hbits, -⟩ := (b0.geyserLoaded c g).reoffered_foldl (.geyser c) taken
    exact ⟨_, rfl, hre, Blk.resume_resumeAt .., hbits⟩

end Sys2Proof.Machine

/-! The offer that stands alone: which one is taken, and the key and the members' classes that its ranking forms
(05 R164 to R187; 11 R422). -/
namespace Sys2Proof.Machine
open Sys2Proof

/-! ### The offer that is taken -/

section
variable {b : Blk} {reg : Nat} {o : Offer}

theorem afterPtr_singleton (v p : Nat) : afterPtr [v] p = [v] := by
  unfold afterPtr
  by_cases h : p < v
  · simp [h, Nat.not_le.2 h]
  · simp [h, Nat.not_lt.1 h]

theorem regOrder_singleton (p : Nat) : regOrder [(reg, o)] p = [reg] := afterPtr_singleton reg p

/-- Whichever domain is served, it has a turn when it is the only one with an offer. -/
theorem wrrNext_singleton (w : Wrr) (weight : Nat → Nat) (d : Nat) : ∃ w', wrrNext w weight [d] = some (d, w') := by
  unfold wrrNext
  split
  case isTrue h =>
    simp only [setHas, List.contains_cons, List.contains_nil, Bool.or_false, Bool.and_eq_true, beq_iff_eq] at h
    exact ⟨_, by rw [h.1]⟩
  case isFalse => exact ⟨_, by rw [afterPtr_singleton]⟩

/-- The only offer is granted, as one of class 3, of class 2, or in its domain's turn. -/
theorem Blk.pickOffer_of_single (h : b.rank.offers = [(reg, o)]) : ∃ q, b.pickOffer = some (reg, q) := by
  obtain ⟨w, hw⟩ := wrrNext_singleton b.ptrs.wrr b.rweight (b.stt o.stt).domid
  have hclass : ∀ c, b.offerClass o ≠ c → [(reg, o)].filter (fun x => b.offerClass x.2 == c) = [] := fun c hc => by simp [hc]
  have hnone : ∀ p, regOrder [] p = [] := fun _ => rfl
  have hset : setOf [(b.stt o.stt).domid] = [(b.stt o.stt).domid] := rfl
  by_cases h3 : b.offerClass o = 3
  · exact ⟨_, by simp [Blk.pickOffer, h, h3, regOrder_singleton]; rfl⟩
  by_cases h2 : b.offerClass o = 2
  · exact ⟨_, by simp [Blk.pickOffer, h, h2, regOrder_singleton, hnone]; rfl⟩
  exact ⟨{ b.ptrs with wrr := w, dom := tabSet 16 b.ptrs.dom (b.stt o.stt).domid reg },
    by simp [Blk.pickOffer, h, hclass 3#2 h3, hclass 2#2 h2, hnone, regOrder_singleton, hset, hw]⟩

/-- The offer that stands alone is ranked, and no offer stands any more. -/
theorem Blk.offerRanking_of_single (h : b.rank.offers = [(reg, o)]) (m : List Host.Cell) : ∃ q, b.offerRanking m =
    ({ b with ptrs := q, rank := { b.rank with offers := [] } } : Blk).rankOffer m o := by
  obtain ⟨q, hq⟩ := Blk.pickOffer_of_single h
  have hdel : tabDel [(reg, o)] reg = [] := if_pos rfl
  exact ⟨q, by simp [Blk.offerRanking, hq, Blk.rankReg, h, hdel]⟩

theorem exec_offerRanking {s : State} (h : s.blk.ranks = true) :
    exec .offerRanking s = s.becomes (s.blk.offerRanking s.mem) := by
  show s.becomes (s.blk.when s.blk.ranks (fun b => b.offerRanking s.mem)) = _
  rw [h, Blk.when_true]

end

/-! ### The key -/

/-- The class and the urgency that an offer is ranked by make its key (05 R164 to R167). -/
theorem Blk.rankKey_eq (b : Blk) (o : Offer) (st : Stt) : b.rankKey o st =
    (formClass o.rclass st.rank.cls o.dem, mkKey (formClass o.rclass st.rank.cls o.dem) o.rprio
      (urgency (formClass o.rclass st.rank.cls o.dem) b.stampNow o.stamp (b.deadline st))) := rfl

/-! ### The class of a member (05 R184, R185; 11 R422) -/

section
variable {b : Blk} {d v : Nat}

theorem Blk.remoteHome_of_unloaded (h : b.fed.loaded = false) (d v : Nat) : b.remoteHome d v = none := by
  simp [Blk.remoteHome, h]

/-- A context of domain 0 that no guest owns is a member by its link. -/
theorem Blk.memberClass_host (halone : b.fed.loaded = false) (hvct : b.sram.vct = []) : b.memberClass 0 v = b.byLink v := by
  have howner : b.ownerOf v = 0 := by simp [Blk.ownerOf, hvct]
  simp [Blk.memberClass, Blk.remoteHome_of_unloaded halone, howner]

/-- A virtual context of a guest runs on a physical context, or is not a member that runs. -/
theorem Blk.memberClass_guest (halone : b.fed.loaded = false) (hd : d ≠ 0)
    (hvct : setHas b.ecc.vctBad ((b.dom d).sh.vbase + v) = false) : b.memberClass d v =
    if v < (b.dom d).sh.cmcount ∧ (tabGet {} b.sram.vct ((b.dom d).sh.vbase + v)).run = true ∧
      (tabGet {} b.sram.vct ((b.dom d).sh.vbase + v)).sw = false
    then b.byLink (tabGet {} b.sram.vct ((b.dom d).sh.vbase + v)).pctx else .notRunning := by
  by_cases hv : v < (b.dom d).sh.cmcount
  · simp [Blk.memberClass, Blk.remoteHome_of_unloaded halone, hd, Blk.vctx, hvct, hv]
  · simp [Blk.memberClass, Blk.remoteHome_of_unloaded halone, hd, Blk.vctx, hv]

theorem Blk.byLink_up {p : Nat} (h : (b.link (p / 64)).st = .up) : b.byLink p = .eligible p := if_pos h
theorem Blk.byLink_not_up {p : Nat} (h : (b.link (p / 64)).st ≠ .up) : b.byLink p = .waiting (some (p / 64)) := if_neg h

end

/-! ### The members chosen (05 R186) -/

section
variable {b : Blk} {d t : Nat} {pa : Path} {cls : BitVec 2}

/-- When every member of a path that is no broadcast is eligible, every one is a candidate. -/
theorem Blk.candidates_of_eligible {f : Nat → Nat} (hk : pa.kind ≠ 3)
    (h : ∀ v ∈ pa.members, b.memberClass d v = .eligible (f v)) : b.candidates d pa cls = pa.members := by
  have hall : pa.members.filter (fun v => (b.memberClass d v).canTake) = pa.members :=
    List.filter_eq_self.2 fun v hv => by rw [h v hv]; rfl
  have hloc : pa.members.filter (fun v => (b.memberClass d v).isLocal) = pa.members :=
    List.filter_eq_self.2 fun v hv => by rw [h v hv]; rfl
  simp only [Blk.candidates, hall, hloc, if_neg hk, ite_self]

/-- When no member can take a copy, none is chosen. -/
theorem Blk.choose_of_fixed_untaken (hk : pa.kind = 0) (hm : pa.members = [t]) (h : (b.memberClass d t).canTake = false) :
    b.choose d pa cls = [] := by
  simp [Blk.choose, Blk.candidates, hk, hm, h]

/-- The target of a fixed route is chosen when it is eligible. -/
theorem Blk.choose_of_fixed {p : Nat} (hk : pa.kind = 0) (hm : pa.members = [t]) (h : b.memberClass d t = .eligible p) :
    b.choose d pa cls = [t] := by
  have hc : b.candidates d pa cls = pa.members :=
    Blk.candidates_of_eligible (f := fun _ => p) (by simp [hk]) (by simpa [hm] using h)
  rw [Blk.choose, if_pos (.inl hk), hc, hm]

/-- Round robin takes the eligible member that comes first after the pointer. -/
theorem Blk.choose_of_round_robin {f : Nat → Nat} (hk : pa.kind = 2)
    (h : ∀ v ∈ pa.members, b.memberClass d v = .eligible (f v)) :
    b.choose d pa cls = (afterPtr pa.members (tabGet 0 b.rank.rot (pa.group.getD 0))).take 1 := by
  have hc : b.candidates d pa cls = pa.members := Blk.candidates_of_eligible (f := f) (by simp [hk]) h
  simp only [Blk.choose, hc, hk]
  rfl

end

/-- The least member of an ascending list comes first. -/
theorem take_one_of_least {l : List Nat} {v : Nat} (hs : l.Pairwise (· < ·)) (hv : v ∈ l) (hleast : ∀ m ∈ l, v ≤ m) :
    l.take 1 = [v] := by
  cases l with
  | nil => cases hv
  | cons x l =>
    obtain ⟨hx, -⟩ := List.pairwise_cons.1 hs
    have hxv : x = v := by
      rcases List.mem_cons.1 hv with rfl | hv
      · rfl
      · exact absurd (hleast x List.mem_cons_self) (Nat.not_le.2 (hx v hv))
    rw [hxv]
    rfl

/-- In ascending order after a pointer, the member that comes next is the least above it, or the least of all when none is
above it. -/
theorem take_one_afterPtr {ms : NSet} {ptr v : Nat} (hs : ms.Pairwise (· < ·)) (hv : v ∈ ms)
    (hnext : (ptr < v ∧ ∀ m ∈ ms, ptr < m → v ≤ m) ∨ ((∀ m ∈ ms, m ≤ ptr) ∧ ∀ m ∈ ms, v ≤ m)) :
    (afterPtr ms ptr).take 1 = [v] := by
  rcases hnext with ⟨hlt, hleast⟩ | ⟨hno, hleast⟩
  case inl =>
    have habove : (ms.filter (fun m => ptr < m)).take 1 = [v] :=
      take_one_of_least (hs.filter _) (by simpa using ⟨hv, hlt⟩) fun m hm => by
        simp only [List.mem_filter, decide_eq_true_eq] at hm
        exact hleast m hm.1 hm.2
    have hlen : 1 ≤ (ms.filter (fun m => ptr < m)).length := by
      cases hf : ms.filter (fun m => ptr < m) with
      | nil => rw [hf] at habove; cases habove
      | cons x l => exact Nat.succ_le_succ (Nat.zero_le _)
    rw [afterPtr, List.take_append_of_le_length hlen, habove]
  case inr =>
    have hempty : ms.filter (fun m => ptr < m) = [] := by simpa using hno
    have hall : ms.filter (fun m => m ≤ ptr) = ms := by simpa using hno
    rw [afterPtr, hempty, hall, List.nil_append]
    exact take_one_of_least hs hv hleast

end Sys2Proof.Machine

/-! What the ranking of an offer leads to: parked, held, handed to a link, or posted (05 R187 to R201; 06 R218; 11 R424), and
the settling of O9 and O10. -/
namespace Sys2Proof.Machine
open Sys2Proof

/-! ### A candidate enters an output queue (06 R218) -/

theorem length_insertCand (c : Cand) (l : List Cand) : (insertCand c l).length = l.length + 1 := by
  induction l with
  | nil => rfl
  | cons d l ih =>
    unfold insertCand
    split
    · rfl
    · rw [List.length_cons, ih, List.length_cons]

theorem mem_insertCand_self (c : Cand) (l : List Cand) : c ∈ insertCand c l := by
  induction l with
  | nil => exact List.mem_cons_self
  | cons d l ih =>
    unfold insertCand
    split
    · exact List.mem_cons_self
    · exact List.mem_cons_of_mem _ ih

section
variable {b : Blk} {o : Offer} {intid key : Word24} {p : Nat}

/-- From a queue with room nothing bounces. -/
theorem Blk.enqueue_of_room {n : Nat} {c : Cand} (hroom : (b.link n).outq.length < 64) :
    b.enqueue n c = b.modLink n (fun l => { l with outq := insertCand c l.outq }) := by
  have hlen : ((b.modLink n (fun l => { l with outq := insertCand c l.outq })).link n).outq.length ≤ 64 := by
    rw [Blk.link_modLink_self, length_insertCand]
    omega
  rw [Blk.enqueue, Blk.bounce]
  simp only [hlen, if_true]

/-- The handle of a copy that an offer makes for a physical context. -/
def Offer.handle (o : Offer) (p : Nat) : Handle :=
  { st := .queued, stt := o.stt, mapgen := o.mapgen, gen := o.gen, shr := false, ctx := p % 64 }

/-- The candidate that a copy is, under a handle. -/
def copyCand (intid key : Word24) (p h : Nat) : Cand :=
  { shared := false, ctx := p % 64, handle := h, intid := intid, key := key, qkey := key }

@[simp] theorem handle_copyCand (h : Nat) : (copyCand intid key p h).handle = h := rfl

/-- A copy binds a handle of its link and enters the output queue. -/
theorem Blk.sendCopy_onLink (hroom : (b.link (p / 64)).outq.length < 64) :
    let l := b.link (p / 64)
    let h := l.freeHandle
    b.OnLink (b.sendCopy o intid key p) (p / 64)
      { l.modHandle h (fun _ => o.handle p) with outq := insertCand (copyCand intid key p h) l.outq } := by
  intro l h
  have hq : ((b.modLink (p / 64) (fun l => l.modHandle h (fun _ => o.handle p))).link (p / 64)).outq.length < 64 := by
    rw [Blk.link_modLink_self]
    exact hroom
  have hsend := Blk.enqueue_of_room (c := copyCand intid key p h) hq
  have hon := ((Blk.OnLink.refl b (p / 64)).modLink (fun l => l.modHandle h (fun _ => o.handle p))).modLink
    (fun l => { l with outq := insertCand (copyCand intid key p h) l.outq })
  rw [← hsend] at hon
  exact hon

end

/-! ### What posting tells (11 R424) -/

/-- From `b0` to `b` reports were only added, and the Ranking Unit is as it was; nothing is injected. -/
structure Blk.Tells (b0 b : Blk) : Prop where
  noInject : b.inj.arm = []
  rank : b.rank = b0.rank
  reports : ∃ more, (b.lane 24).reports = (b0.lane 24).reports ++ more

namespace Blk.Tells
variable {b0 b b' : Blk} {m : List Host.Cell}

theorem refl (h : b.inj.arm = []) : b.Tells b := ⟨h, rfl, [], (List.append_nil _).symm⟩

theorem same (h : b0.Tells b) (hinj : b'.inj = b.inj) (hrank : b'.rank = b.rank) (hing : b'.ing = b.ing) : b0.Tells b' := by
  refine ⟨hinj ▸ h.noInject, hrank.trans h.rank, ?_⟩
  rw [Blk.lane, hing]
  exact h.reports

theorem ite {p : Prop} [Decidable p] (h : b0.Tells b) (h' : b0.Tells b') : b0.Tells (if p then b else b') := by
  split
  · exact h
  · exact h'

theorem raise {k : Nat} (h : b0.Tells b) : b0.Tells (b.raise k) := by
  obtain ⟨more, hmore⟩ := h.reports
  exact ⟨h.noInject, h.rank, more ++ [k], by rw [Blk.reports_raise, hmore, List.append_assoc]⟩

theorem injHit {k sel : Nat} (h : b0.Tells b) : b.injHit k sel = false := Blk.injHit_of_noArm h.noInject k sel

theorem fpFail {first : Bool} (h : b0.Tells b) : b0.Tells (b.fpFail first) :=
  ite (raise (h.same rfl rfl rfl)) (h.same rfl rfl rfl)

theorem foldl {α : Type} {f : Blk → α → Blk} {l : List α} (hf : ∀ b x, b0.Tells b → b0.Tells (f b x)) (h : b0.Tells b) :
    b0.Tells (l.foldl f b) := by
  induction l generalizing b with
  | nil => exact h
  | cons x l ih => exact ih (hf b x h)

theorem readFailed {line : Nat} {first : Bool} (h : b0.Tells b) : b0.Tells (b.readFailed line first) := by
  rw [Blk.readFailed, h.injHit]
  exact fpFail (h.same rfl rfl rfl)

theorem readRetries {line : Nat} (h : b0.Tells b) : b0.Tells (b.readRetries line) := foldl (fun _ _ h => h.readFailed) h

theorem cleanHit_eq {l : CLine} (h : b0.Tells b) : b.cleanHit l = b := by
  rw [Blk.cleanHit, h.injHit, Bool.and_false, if_neg Bool.false_ne_true]

/-- A line is taken from the cache, or read until its read succeeds. -/
theorem takeLine {line : Nat} (h : b0.Tells b) : b0.Tells (b.takeLine m line).1 := by
  have hmiss : b0.Tells (({ b with lc := b.lc.miss }).readRetries line) := readRetries (h.same rfl rfl rfl)
  unfold Blk.takeLine
  cases hfind : b.lc.find line with
  | none =>
    simp only [hfind, ite_self]
    split
    · exact hmiss.same rfl rfl rfl
    · exact hmiss
  | some l =>
    simp only [h.cleanHit_eq, ite_self, hfind]
    split
    · exact h.same rfl rfl rfl
    · split
      · exact hmiss.same rfl rfl rfl
      · exact hmiss

theorem recNote {k : WKind} (h : b0.Tells b) : b0.Tells (b.recNote k) := by
  unfold Blk.recNote
  split
  · exact h.raise
  · exact ite (h.same rfl rfl rfl) h
  · exact ite h (ite h.raise (h.same rfl rfl rfl))
  · exact h

theorem writeRec {addr : Nat} {ws : List Word} {k : WKind} (h : b0.Tells b) : b0.Tells (b.writeRec m addr ws k) :=
  ite (recNote (h.takeLine.same rfl rfl rfl)) (h.same rfl rfl rfl)

/-- A record for an Event Log Queue is written, discarded, or counted as lost. -/
theorem elqTake {d : Nat} {r : EvRec} (h : b0.Tells b) : b0.Tells (b.elqTake m d r) := by
  have hheader : ∀ b', b0.Tells b' → b0.Tells (b'.writeHeader d) := fun b' h' => by
    rw [Blk.writeHeader, h'.injHit, if_neg Bool.false_ne_true]
    exact h'.same rfl rfl rfl
  unfold Blk.elqTake
  rw [h.injHit, if_neg Bool.false_ne_true]
  exact ite h (ite (hheader _ (h.same rfl rfl rfl)) (writeRec (h.same rfl rfl rfl)))

end Blk.Tells

section
variable {b : Blk} {o : Offer} {st : Stt} {m : List Host.Cell}

/-- Posting raises internal source 0x88 before anything else is reported. -/
theorem Blk.post_leaves (harm : b.inj.arm = []) (key : Word24) (v : Nat) (cls : BitVec 2) :
    (b.post m o st key v cls).rank = { b.rank with posted := setAdd b.rank.posted o.stt } ∧
    ∃ more, ((b.post m o st key v cls).lane 24).reports = (b.lane 24).reports ++ 0x88 :: more := by
  let b1 := ({ b with rank := { b.rank with posted := setAdd b.rank.posted o.stt } } : Blk).raise 0x88
  have hprobe : b1.Tells (b1.probe 13 o.stt st.domid cls) := by
    rw [Blk.probe_eq]
    exact (Blk.Tells.refl (b := b1) harm).same rfl rfl rfl
  have hpost : b1.Tells (b.post m o st key v cls) := Blk.Tells.ite hprobe hprobe.elqTake
  obtain ⟨more, hmore⟩ := hpost.reports
  refine ⟨hpost.rank, more, hmore.trans ?_⟩
  rw [Blk.reports_raise, List.append_assoc]
  rfl

end

/-! ### The outcome of a ranking (05 R187) -/

theorem Blk.links_turn (b : Blk) (pa : Path) (v : Nat) : (b.turn pa v).links = b.links := by
  unfold Blk.turn
  split
  · split <;> rfl
  · rfl

theorem Blk.rank_turn_of_fixed {b : Blk} {pa : Path} (h : pa.group = none) (v : Nat) : (b.turn pa v).rank = b.rank := by
  rw [Blk.turn, h]

theorem Blk.rank_turn_of_round_robin {b : Blk} {pa : Path} {g : Nat} (h : pa.group = some g) (hk : pa.kind = 2) (v : Nat) :
    (b.turn pa v).rank = { b.rank with rot := tabSet 0 b.rank.rot g v } := by
  simp only [Blk.turn, h, if_pos (Or.inr hk : pa.kind = 1 ∨ pa.kind = 2)]

/-- A source that is no core message's and has an offer without RTV: it is mapped under the offer's MAPGEN, no federated
configuration is loaded and nothing is injected. -/
structure Blk.Ranks (b : Blk) (o : Offer) (st : Stt) : Prop where
  stt : b.stt o.stt = st
  valid : st.valid = true
  mapgen : st.mapgen = o.mapgen
  noInject : b.inj.arm = []
  alone : b.fed.loaded = false
  kind : st.kind ≠ .core
  rtv : o.rtv = false

/-- The offer is held in a Geyser channel. -/
def Blk.Held (b : Blk) (o : Offer) (st : Stt) (gch : Nat) : Prop :=
  (b.rankKey o st).1 = 0 ∧ (tabGet {} b.rank.geysers gch).period ≠ 0 ∧ o.geyser = false

section
variable {b : Blk} {o : Offer} {st : Stt} {m : List Host.Cell} {pa : Path}

theorem Blk.Ranks.stale (h : b.Ranks o st) (hgen : o.gen ≠ (b.dom st.domid).gen) : b.rankOffer m o = b := by
  simp [Blk.rankOffer, h.stt, h.valid, h.mapgen, hgen]

variable (h : b.Ranks o st) (hgen : o.gen = (b.dom st.domid).gen)
include h hgen

theorem Blk.Ranks.unrouted (hpath : b.pathOf o.stt st = none) : b.rankOffer m o = b.park o.stt := by
  have hfault : b.routeFault st.route.ridx = b := by simp [Blk.routeFault, Blk.injHit_of_noArm h.noInject]
  simp [Blk.rankOffer, h.stt, h.valid, h.mapgen, hgen, hfault, hpath]

variable (hpath : b.pathOf o.stt st = some pa)
include hpath

/-- A routed offer is held, or its members decide. -/
theorem Blk.Ranks.routed : b.rankOffer m o =
    if (b.rankKey o st).1 = 0 && (tabGet {} b.rank.geysers pa.gch).period ≠ 0 && !o.geyser then
      { b with rank := { b.rank with geyserBits := tabPut b.rank.geyserBits o.stt (some pa.gch) } }
    else if !(b.choose st.domid pa (b.rankKey o st).1).isEmpty then
      b.deliver o st (b.rankKey o st).1 (b.rankKey o st).2 pa (b.choose st.domid pa (b.rankKey o st).1)
    else if pa.members.any (fun v => (b.memberClass st.domid v).isWaiting) then
      (if (b.rankKey o st).1 = 3 then b.wakeLinks st.domid pa.members else b).park o.stt
    else b.post m o st (b.rankKey o st).2 (b.postedFor st.domid pa) (b.rankKey o st).1 := by
  have hfault : b.routeFault st.route.ridx = b := by simp [Blk.routeFault, Blk.injHit_of_noArm h.noInject]
  have hemit : b.emitTarget o (b.rankKey o st).1 pa = (b, pa) := by simp [Blk.emitTarget, h.rtv]
  rw [Blk.rankKey_eq] at hemit ⊢
  simp only [Blk.rankOffer, h.stt, h.valid, h.mapgen, hgen, hfault, ite_self, hpath, hemit]
  simp

theorem Blk.Ranks.held (hheld : b.Held o st pa.gch) : b.rankOffer m o =
    { b with rank := { b.rank with geyserBits := tabPut b.rank.geyserBits o.stt (some pa.gch) } } := by
  rw [h.routed hgen hpath, if_pos (by simpa [Blk.Held, and_assoc] using hheld)]

variable (hfree : ¬ b.Held o st pa.gch)
include hfree

theorem Blk.Ranks.members_decide : b.rankOffer m o =
    if !(b.choose st.domid pa (b.rankKey o st).1).isEmpty then
      b.deliver o st (b.rankKey o st).1 (b.rankKey o st).2 pa (b.choose st.domid pa (b.rankKey o st).1)
    else if pa.members.any (fun v => (b.memberClass st.domid v).isWaiting) then
      (if (b.rankKey o st).1 = 3 then b.wakeLinks st.domid pa.members else b).park o.stt
    else b.post m o st (b.rankKey o st).2 (b.postedFor st.domid pa) (b.rankKey o st).1 := by
  rw [h.routed hgen hpath, if_neg (by simpa [Blk.Held, and_assoc] using hfree)]

/-- One member is chosen: its copy stands in its link's output queue, under a handle bound to it. -/
theorem Blk.Ranks.sent {v p : Nat} (hk : pa.kind ≠ 3#2) (hchoose : b.choose st.domid pa (b.rankKey o st).1 = [v])
    (hv : b.memberClass st.domid v = .eligible p) (hroom : (b.link (p / 64)).outq.length < 64) :
    (b.rankOffer m o).rank = (b.turn pa v).rank ∧
    ((b.rankOffer m o).link (p / 64)).outq =
      insertCand (copyCand st.vintid (b.rankKey o st).2 p (b.link (p / 64)).freeHandle) (b.link (p / 64)).outq ∧
    ((b.rankOffer m o).link (p / 64)).handle (b.link (p / 64)).freeHandle = o.handle p := by
  have heq : b.rankOffer m o = (b.turn pa v).sendCopy o st.vintid (b.rankKey o st).2 p := by
    rw [h.members_decide hgen hpath hfree, hchoose]
    simp [Blk.deliver, hk, hv]
  have hlink : (b.turn pa v).link (p / 64) = b.link (p / 64) := by rw [Blk.link, Blk.links_turn, Blk.link]
  have hon := Blk.sendCopy_onLink (b := b.turn pa v) (o := o) (intid := st.vintid) (key := (b.rankKey o st).2) (p := p)
    (by rw [hlink]; exact hroom)
  rw [hlink, ← heq] at hon
  have hrank := congrArg Blk.rank hon.rest
  rw [hon.self]
  exact ⟨hrank, rfl, Link.handle_modHandle_self (b.link (p / 64)) _ (fun _ => o.handle p)⟩

/-- A target that waits for its link is parked, and a CRITICAL one wakes the link. -/
theorem Blk.Ranks.waits {v n : Nat} (hk : pa.kind = 0) (hm : pa.members = [v])
    (hv : b.memberClass st.domid v = .waiting (some n)) : b.rankOffer m o =
    (if (b.rankKey o st).1 = 3 then b.modLink n (fun l => { l with waking := true }) else b).park o.stt := by
  have hchoose : b.choose st.domid pa (b.rankKey o st).1 = [] := Blk.choose_of_fixed_untaken hk hm (by rw [hv]; rfl)
  rw [h.members_decide hgen hpath hfree, hchoose]
  simp [hm, hv, MClass.isWaiting, Blk.wakeLinks]

/-- A target that does not run is posted. -/
theorem Blk.Ranks.posts {v : Nat} (hk : pa.kind = 0) (hm : pa.members = [v])
    (hv : b.memberClass st.domid v = .notRunning) : b.rankOffer m o =
    b.post m o st (b.rankKey o st).2 (b.postedFor st.domid pa) (b.rankKey o st).1 := by
  have hchoose : b.choose st.domid pa (b.rankKey o st).1 = [] := Blk.choose_of_fixed_untaken hk hm (by rw [hv]; rfl)
  rw [h.members_decide hgen hpath hfree, hchoose]
  simp [hm, hv, MClass.isWaiting]

end

/-! ### The path of a route (05 R182, R187) -/

section
variable {b : Blk} {i : Nat} {st : Stt} {r : Route}

theorem Blk.pathOf_of_no_route (hk : st.kind ≠ .core) (h : st.route.rv = false ∨ (b.liveRt.route st.route.ridx).valid = false) :
    b.pathOf i st = none := by
  rcases h with h | h <;> simp [Blk.pathOf, hk, h]

variable (hk : st.kind ≠ .core) (hrv : st.route.rv = true) (hr : b.liveRt.route st.route.ridx = r) (hvalid : r.valid = true)
  (hsound : setHas b.ecc.routeBad st.route.ridx = false)
include hk hrv hr hvalid hsound

theorem Blk.pathOf_fixed (hfixed : r.kind = 0) :
    b.pathOf i st = some { kind := 0, members := [r.target], group := none, gch := r.gch } := by
  simp [Blk.pathOf, hk, hrv, hr, hvalid, hsound, RtCopy.members, hfixed]

theorem Blk.pathOf_group (hgroup : r.kind ≠ 0#2) (hgood : setHas b.ecc.groupBad r.group = false)
    (hne : (b.liveRt.group r.group).members ≠ []) :
    b.pathOf i st = some { kind := r.kind, members := (b.liveRt.group r.group).members, group := some r.group, gch := r.gch } := by
  simp [Blk.pathOf, hk, hrv, hr, hvalid, hsound, RtCopy.members, hgroup, hgood, hne]

end

/-! ### The obligations -/

/-- The block when the only offer was taken, before it is ranked. -/
def Blk.offerTaken (b : Blk) (q : RankPtrs) : Blk := { b with ptrs := q, rank := { b.rank with offers := [] } }

theorem Blk.rankKey_offerTaken (b : Blk) (q : RankPtrs) (o : Offer) (st : Stt) :
    (b.offerTaken q).rankKey o st = b.rankKey o st := rfl

theorem Blk.held_offerTaken (b : Blk) (q : RankPtrs) (o : Offer) (st : Stt) (gch : Nat) :
    (b.offerTaken q).Held o st gch ↔ (b.rankKey o st).1 = 0 ∧ (tabGet {} b.rank.geysers gch).period ≠ 0 ∧ o.geyser = false := by
  rw [Blk.Held, Blk.rankKey_offerTaken]
  rfl

section
variable {s : State} {reg : Nat} {o : Offer} {st : Stt}

theorem Blk.Offers.exec_eq (h : s.blk.Offers reg o st) :
    ∃ q, exec .offerRanking s = s.becomes ((s.blk.offerTaken q).rankOffer s.mem o) := by
  obtain ⟨q, hq⟩ := Blk.offerRanking_of_single h.offers s.mem
  exact ⟨q, (exec_offerRanking (Blk.ranks_of_awake h.awake h.client)).trans (congrArg s.becomes hq)⟩

theorem Blk.Offers.ranks (h : s.blk.Offers reg o st) (hkind : st.kind ≠ .core) (hrtv : o.rtv = false) (q : RankPtrs) :
    (s.blk.offerTaken q).Ranks o st := by
  obtain ⟨hvalid, hmapgen, hsound⟩ := h.mapped
  refine ⟨?_, hvalid, hmapgen, h.noInject, h.alone, hkind, hrtv⟩
  simp only [Blk.stt, Blk.offerTaken, hsound, Bool.false_eq_true, if_false, h.stt]

end

/-- Settles O9: the offer is ranked as the class of its one member says. -/
theorem offerOutcomes : Obligations.OfferOutcomes := by
  unfold Obligations.OfferOutcomes
  intro s reg o st h hkind hrtv b0 r cls key fresh v p runs l fixed held becomes park
  obtain ⟨q, hexec⟩ := h.exec_eq
  have hR := h.ranks hkind hrtv q
  let pa : Path := { kind := 0, members := [r.target], group := none, gch := r.gch }
  have hbecomes : ∀ {f : Blk → Blk}, (b0.offerTaken q).rankOffer s.mem o = f (b0.offerTaken q) → becomes f := fun hf =>
    ⟨q, hexec.trans (congrArg s.becomes hf)⟩
  have hpath : fixed → (b0.offerTaken q).pathOf o.stt st = some pa := fun ⟨hrv, hvalid, hsound, hk, _⟩ =>
    Blk.pathOf_fixed (b := b0.offerTaken q) hkind hrv rfl hvalid hsound hk
  have hclass : fixed → (b0.offerTaken q).memberClass st.domid r.target =
      if runs then (b0.offerTaken q).byLink p else .notRunning := fun ⟨_, _, _, _, hdom, hvct⟩ => by
    exact Blk.memberClass_guest (b := b0.offerTaken q) hR.alone hdom hvct
  have hlink : (b0.offerTaken q).link (p / 64) = l := rfl
  have hHeld : (b0.offerTaken q).Held o st r.gch ↔ held := Blk.held_offerTaken b0 q o st r.gch
  refine ⟨fun hstale => ?stale, fun hgen hno => ?unrouted, fun hgen hf hheld => ?held,
    fun hgen hf hheld hruns hup hq h hfree hlow hh => ?sent, fun hgen hf hheld hruns hup => ?waits, fun hgen hf hheld hruns => ?posts⟩
  case stale => exact hbecomes (f := id) (hR.stale hstale)
  case unrouted => exact hbecomes (f := park) (hR.unrouted hgen (Blk.pathOf_of_no_route (b := b0.offerTaken q) hkind hno))
  case held =>
    exact hbecomes (f := fun b => { b with rank := { b.rank with geyserBits := tabPut b.rank.geyserBits o.stt (some r.gch) } })
      (hR.held hgen (hpath hf) (hHeld.2 hheld))
  case sent =>
    have hv := hclass hf
    rw [if_pos hruns, Blk.byLink_up (b := b0.offerTaken q) hup] at hv
    have hchoose := Blk.choose_of_fixed (cls := cls) (pa := pa) rfl rfl hv
    have hhandle : ((b0.offerTaken q).link (p / 64)).freeHandle = h := Link.freeHandle_eq hh hfree hlow
    obtain ⟨hrank, houtq, hbound⟩ := hR.sent (m := s.mem) hgen (hpath hf) (fun hh => hheld (hHeld.1 hh)) (by simp [pa])
      hchoose hv (by rw [hlink, hq]; exact Nat.succ_pos _)
    rw [hhandle] at houtq hbound
    rw [hlink, hq] at houtq
    rw [Blk.rank_turn_of_fixed rfl] at hrank
    exact ⟨_, hexec, congrArg (·.parked) hrank, houtq, hbound⟩
  case waits =>
    have hv := hclass hf
    rw [if_pos hruns, Blk.byLink_not_up (b := b0.offerTaken q) hup] at hv
    exact hbecomes (f := fun b => park (if cls = 3 then b.modLink (p / 64) (fun x => { x with waking := true }) else b))
      (hR.waits hgen (hpath hf) (fun hh => hheld (hHeld.1 hh)) rfl rfl hv)
  case posts =>
    have hv := hclass hf
    rw [if_neg hruns] at hv
    have hposts := hR.posts (m := s.mem) hgen (hpath hf) (fun hh => hheld (hHeld.1 hh)) rfl rfl hv
    obtain ⟨hrank, hreports⟩ := Blk.post_leaves (o := o) (st := st) (m := s.mem) hR.noInject key
      ((b0.offerTaken q).postedFor st.domid pa) cls
    exact ⟨_, hexec.trans (congrArg s.becomes hposts), congrArg (·.posted) hrank, congrArg (·.parked) hrank, hreports⟩

/-- Settles O10: every member is eligible, and the one whose turn it is is chosen. -/
theorem roundRobinTurnsPointer : Obligations.RoundRobinTurnsPointer := by
  unfold Obligations.RoundRobinTurnsPointer
  intro s reg o st v h hkind hrtv b0 r ms ptr hgen hdom hrv hvalid hsound hrr hgood hvct hup hsorted hv hnext hheld hroom
  obtain ⟨q, hexec⟩ := h.exec_eq
  have hR := h.ranks hkind hrtv q
  let pa : Path := { kind := r.kind, members := ms, group := some r.group, gch := r.gch }
  have hne : ms ≠ [] := fun he => by rw [he] at hv; cases hv
  have hpath : (b0.offerTaken q).pathOf o.stt st = some pa :=
    Blk.pathOf_group (b := b0.offerTaken q) hkind hrv rfl hvalid hsound (by rw [hrr]; decide) hgood hne
  have hclass : ∀ m ∈ pa.members, (b0.offerTaken q).memberClass st.domid m = .eligible m := fun m hm => by
    rw [hdom, Blk.memberClass_host (b := b0.offerTaken q) h.alone hvct, Blk.byLink_up (b := b0.offerTaken q) (hup m hm)]
  have hchoose : (b0.offerTaken q).choose st.domid pa ((b0.offerTaken q).rankKey o st).1 = [v] :=
    (Blk.choose_of_round_robin (f := id) hrr hclass).trans (take_one_afterPtr hsorted hv hnext)
  have hfree : ¬ (b0.offerTaken q).Held o st pa.gch := fun hh => hheld ((Blk.held_offerTaken b0 q o st r.gch).1 hh)
  obtain ⟨hrank, houtq, hbound⟩ := hR.sent (m := s.mem) hgen hpath hfree (show r.kind ≠ 3#2 by rw [hrr]; decide) hchoose
    (hclass v hv) hroom
  rw [Blk.rank_turn_of_round_robin rfl hrr] at hrank
  refine ⟨_, hexec, ?_, congrArg (·.parked) hrank, congrArg (·.posted) hrank,
    copyCand st.vintid ((b0.offerTaken q).rankKey o st).2 v ((b0.offerTaken q).link (v / 64)).freeHandle, ?_, rfl, rfl, ?_⟩
  · exact (congrArg (fun x => tabGet 0 x.rot r.group) hrank).trans ((tabGet_tabSet ..).trans (if_pos rfl))
  · rw [houtq]
    exact mem_insertCand_self ..
  · rw [handle_copyCand, hbound]
    rfl

end Sys2Proof.Machine

/-! A candidate flit at the Tile Agent: its check, the insertion of its copy, and the link trained again (05 R170; 06 R222 to
R237), and the settling of O15. -/
namespace Sys2Proof.Machine
open Sys2Proof

/-! ### What a flit's check leads to (06 R224, R227, R228) -/

theorem Flit.isIdle_of_isCand {f : Flit} (h : f.isCand = true) : f.isIdle = false := by
  have hne : f.b0 ≠ 0#24 := fun h0 => by rw [Flit.isCand, h0] at h; exact absurd h (by decide)
  simp [Flit.isIdle, hne]

theorem corrupt_zero (f : Flit) : corrupt f 0 = f := by
  have h := corrupt_none f
  rwa [BitVec.xor_self] at h

theorem LinkEnd.check_mkFlit (e : LinkEnd) (r i k : Word24) : e.check (mkFlit e.rxExp r i k) = true := by
  simp [LinkEnd.check, mkFlit]

/-- The block when the Tile Agent took the next flit from the wire. -/
def Blk.flitTaken (b : Blk) (n : Nat) (rest : List Flit) : Blk := b.modLink n (fun l => { l with e := { l.e with wire := rest } })

/-- The block when the Tile Agent accepted that flit. -/
def Blk.flitAccepted (b : Blk) (n : Nat) (rest : List Flit) (g : Flit) : Blk :=
  (b.flitTaken n rest).modTa n (fun a => { a with e := a.e.accepted g })

section
variable {b : Blk} {n : Nat} {f : Flit} {rest : List Flit}

theorem Blk.recvDown_eq (hinj : b.injHit 17 n = false) (hwire : (b.link n).e.wire = f :: rest) (err : BitVec 96) :
    b.recvDown n err =
      if (b.ta n).e.check (corrupt f err) then
        if (corrupt f err).legal false then (b.flitAccepted n rest (corrupt f err), some (corrupt f err))
        else ((b.flitAccepted n rest (corrupt f err)).protoError n, none)
      else ((b.flitTaken n rest).mismatch n true (!(b.ta n).e.nakWait), none) := by
  have hx : err ^^^ (0 : BitVec 96) = err := BitVec.xor_zero
  unfold Blk.recvDown
  simp only [hwire, hinj, Bool.false_eq_true, if_false, hx, Blk.ta_modLink]
  cases (b.ta n).e.check (corrupt f err) <;> rfl

/-- The first mismatch of a wait is counted and reported, and makes a NAK due. -/
theorem Blk.mismatch_leaves (b : Blk) (n : Nat) (first : Bool) :
    let b' := b.mismatch n true first
    b'.link n = { b.link n with err := { (b.link n).err with
      crc := if first then satInc (b.link n).err.crc else (b.link n).err.crc } } ∧
    b'.ta n = { b.ta n with e := { (b.ta n).e with nakWait := true, nakDue := (b.ta n).e.nakDue || first } } ∧
    (b'.lane 24).reports = (b.lane 24).reports ++ if first then [0x46 + n] else [] := by
  cases first with
  | false => exact ⟨rfl, Blk.ta_modTa_self _ _ _, (List.append_nil _).symm⟩
  | true =>
    refine ⟨Blk.link_modLink_self b n (fun l => { l with err := { l.err with crc := satInc l.err.crc } }),
      Blk.ta_modTa_self b n (fun a => { a with e := { a.e with nakWait := true, nakDue := a.e.nakDue || true } }), ?_⟩
    simp only [Blk.mismatch, if_true, Blk.reports_raise]
    rfl

end

/-! ### Training again (06 R251) -/

/-- A Tile Agent that holds no read loses none. -/
theorem Agent.loseHeld_of_quiet {a : Agent} (hheld : ∀ x ∈ a.ctxs, x.2.held = none) (hq : a.Quiet) : a.loseHeld = a := by
  have hnone : a.ctxs.filter (fun x => x.2.held.isSome) = [] := List.filter_eq_nil_iff.2 fun x hx => by simp [hheld x hx]
  rw [Agent.loseHeld, hnone]
  exact Agent.serveAll_of_quiet hq

/-- Training again leaves the contexts of a tile on which no read is held and no access waits. -/
theorem Blk.ctxs_retrain_of_quiet {b : Blk} {n : Nat} (hheld : ∀ x ∈ (b.ta n).ctxs, x.2.held = none) (hq : (b.ta n).Quiet) :
    ((b.retrain n).ta n).ctxs = (b.ta n).ctxs := by
  have hlose : ({ b.ta n with upq := [], pausing := false } : Agent).loseHeld = { b.ta n with upq := [], pausing := false } :=
    Agent.loseHeld_of_quiet hheld hq
  simp only [Blk.retrain, Blk.startTraining, Blk.trainStep1, Blk.ta_modTa_self, Blk.ta_modLink, hlose]

/-- A protocol error on a link in UP is counted, and the link is trained again. -/
theorem Blk.protoError_of_up {b : Blk} {n : Nat} (hup : (b.link n).st = .up) : b.protoError n =
    (b.modLink n (fun l => { l with err := { l.err with proto := satInc l.err.proto } })).retrain n := by
  rw [Blk.protoError, Blk.retrainIf, if_pos (.inl (by rw [Blk.link_modLink_self]; exact hup))]

/-! ### The insertion of a copy (05 R170; 06 R235) -/

theorem insertCopy_append {k : Copy} {before after : List Copy} (hbefore : ∀ x ∈ before, k.key ≤ x.key)
    (hafter : ∀ x ∈ after, x.key < k.key) : insertCopy k (before ++ after) = before ++ k :: after := by
  induction before with
  | nil =>
    cases after with
    | nil => rfl
    | cons x after => exact if_pos (hafter x List.mem_cons_self)
  | cons x before ih =>
    obtain ⟨hx, hbefore⟩ := List.forall_mem_cons.1 hbefore
    rw [List.cons_append, insertCopy, if_neg (BitVec.not_lt.2 hx), ih hbefore]
    rfl

/-- RELEASED for a handle of which the tile has no copy. -/
def Agent.released (a : Agent) (h : Nat) : List Word24 := if a.hasCopy h then [] else [recHC 3 h 0]

theorem Agent.upq_releaseIf (a : Agent) (h : Nat) : (a.releaseIf h).upq = a.upq ++ a.released h := by
  unfold Agent.releaseIf Agent.released
  split
  · exact (List.append_nil _).symm
  · rfl

theorem Agent.ctxs_releaseIf (a : Agent) (h : Nat) : (a.releaseIf h).ctxs = a.ctxs := by
  unfold Agent.releaseIf
  split <;> rfl

theorem Agent.e_releaseIf (a : Agent) (h : Nat) : (a.releaseIf h).e = a.e := by
  unfold Agent.releaseIf
  split <;> rfl

/-- What a Tile Agent tells when a copy was accepted: the release of the one that left a full list. -/
def Agent.leftList (a : Agent) (l : List Copy) : List Word24 :=
  match l.drop 4 with
  | [] => []
  | d :: _ => a.released d.handle

theorem Agent.leftList_congr {a a' : Agent} (h : a.ctxs = a'.ctxs) (l : List Copy) : a.leftList l = a'.leftList l := by
  have hcopy : ∀ h, a.hasCopy h = a'.hasCopy h := fun _ => by rw [Agent.hasCopy, h, Agent.hasCopy]
  simp only [Agent.leftList, Agent.released, hcopy]

/-- A copy accepted takes its place, and at most four stay. -/
theorem Agent.accept_leaves {a : Agent} {c : Nat} {k : Copy} {l : List Copy} (hl : insertCopy k (a.ctx c).ready = l) :
    (a.accept c k).ctxs = (a.modCtx c (fun x => { x with ready := l.take 4 })).ctxs ∧
    (a.accept c k).upq = a.upq ++ (a.modCtx c (fun x => { x with ready := l.take 4 })).leftList l ∧
    (a.accept c k).e = a.e := by
  subst hl
  cases hd : (insertCopy k (a.ctx c).ready).drop 4 with
  | nil =>
    simp only [Agent.accept, Agent.leftList, hd]
    exact ⟨trivial, (List.append_nil _).symm, rfl⟩
  | cons d more =>
    simp only [Agent.accept, Agent.leftList, hd]
    exact ⟨Agent.ctxs_releaseIf _ _, Agent.upq_releaseIf _ _, Agent.e_releaseIf _ _⟩

/-! ### A candidate's flit -/

section
variable {typ low : Nat} {q : BitVec 8} {i k : Word24}

theorem isCand_mkFlit_of_recType {r : Word24} (hr : recType r = 1 ∨ recType r = 2) : (mkFlit q r i k).isCand = true := by
  rcases hr with hr | hr <;> simp [Flit.isCand, mkFlit, hr]

theorem b0_mkFlit (q : BitVec 8) (r i k : Word24) : (mkFlit q r i k).b0 = r := rfl
theorem b1_mkFlit (q : BitVec 8) (r i k : Word24) : (mkFlit q r i k).b1 = i := rfl
theorem b2_mkFlit (q : BitVec 8) (r i k : Word24) : (mkFlit q r i k).b2 = k := rfl

theorem legal_cand {f : Flit} (hcand : f.isCand = true) : f.legal false = (bits f.b0.toNat 13 10 == 0) := by
  simp [Flit.legal, hcand]

end

/-- Beat 0 of the flit of a copy for a context (06 Table 6-1). -/
def candHead (c : Nat) (k : Copy) : Word24 := rec24 (if k.shared then 2 else 1) (c * 2 ^ 14 + k.handle)

section
variable {c : Nat} {k : Copy} (hc : c < 64) (hh : k.handle < 1024)

theorem rec24_candHead (c : Nat) (k : Copy) : rec24 (if k.shared then 2 else 1) (c * 2 ^ 14 + k.handle) = candHead c k := rfl

theorem recType_candHead (c : Nat) (k : Copy) : recType (candHead c k) = if k.shared then 2 else 1 :=
  recType_rec24 (by split <;> decide) _

theorem candHead_is_cand (c : Nat) (k : Copy) : recType (candHead c k) = 1 ∨ recType (candHead c k) = 2 := by
  rw [recType_candHead]
  split
  · exact .inr rfl
  · exact .inl rfl

include hc hh

/-- The fields of beat 0. -/
theorem bits_candHead : bits (candHead c k).toNat 19 14 = c ∧ bits (candHead c k).toNat 9 0 = k.handle ∧
    bits (candHead c k).toNat 13 10 = 0 := by
  have ht : (if k.shared then 2 else 1) < 16 := by split <;> decide
  refine ⟨?_, ?_, ?_⟩
  all_goals
    rw [candHead, bits_rec24 ht _ (by decide) (by decide), bits_eq_mod_div _ (by decide)]
    omega

end

/-! ### The row -/

/-- No IDLE flit stands before a flit that holds content and comes next. -/
theorem Blk.idlesAtTile_of_head {b : Blk} {n : Nat} {f : Flit} {rest : List Flit} (hwire : (b.link n).e.wire = f :: rest)
    (hf : f.isIdle = false) : b.idlesAtTile n = b := by
  rw [Blk.idlesAtTile, hwire, List.length_cons, Blk.idlesDown]
  simp only [hwire, hf, Bool.false_eq_true, if_false]

section
variable {b b' : Blk} {n : Nat} {f g : Flit} {rest : List Flit} {err : BitVec 96} (hinbox : (b.ta n).e.inbox = [])
  (hwire : (b.link n).e.wire = f :: rest) (hcand : f.isCand = true)
include hinbox hwire hcand

/-- A candidate flit that is not accepted makes nothing else happen. -/
theorem Blk.candidateFlit_of_none (hrecv : b.recvDown n err = (b', none)) : b.candidateFlit n err = b' := by
  have hidle := Flit.isIdle_of_isCand hcand
  simp [Blk.candidateFlit, hinbox, hwire, hidle, hcand, Blk.idlesAtTile_of_head hwire hidle, hrecv]

/-- The copy of a candidate flit is accepted; UNPOP tells of a context that is not populated. -/
theorem Blk.candidateFlit_of_some (hrecv : b.recvDown n err = (b', some g)) (hg : g.isCand = true)
    (hinj : b'.injHit 26 n = false) : b.candidateFlit n err =
    let c := bits g.b0.toNat 19 14
    let h := bits g.b0.toNat 9 0
    b'.modTa n (fun a =>
      let a := a.accept c { shared := recType g.b0 == 2, handle := h, intid := g.b1, key := g.b2 }
      if b'.ctxPop (64 * n + c) then a else a.send (recHC 14 h c)) := by
  have hidle := Flit.isIdle_of_isCand hcand
  simp [Blk.candidateFlit, hinbox, hwire, hidle, hcand, Blk.idlesAtTile_of_head hwire hidle, hrecv, hg, hinj]

end

/-- What a Tile Agent makes of a copy for a context that is populated, or is not. -/
def Agent.takesIn (a : Agent) (c : Nat) (k : Copy) (pop : Bool) : Agent :=
  if pop then a.accept c k else (a.accept c k).send (recHC 14 k.handle c)

theorem Agent.takesIn_leaves {a : Agent} {c : Nat} {k : Copy} {l : List Copy} (hl : insertCopy k (a.ctx c).ready = l)
    (pop : Bool) :
    a.Makes (a.takesIn c k pop) c { a.ctx c with ready := l.take 4 } ∧
    (a.takesIn c k pop).upq = a.upq ++ (a.takesIn c k pop).leftList l ++ (if pop then [] else [recHC 14 k.handle c]) ∧
    (a.takesIn c k pop).e = a.e := by
  obtain ⟨hctxs, hupq, he⟩ := Agent.accept_leaves hl
  rw [← Agent.leftList_congr hctxs l] at hupq
  have hmakes : a.Makes (a.accept c k) c { a.ctx c with ready := l.take 4 } := by
    have hmod := a.makes_modCtx c (fun x => { x with ready := l.take 4 })
    unfold Agent.Makes Agent.ctx at hmod ⊢
    rwa [hctxs]
  cases pop with
  | true => exact ⟨hmakes, hupq.trans (List.append_nil _).symm, he⟩
  | false => exact ⟨hmakes, congrArg (· ++ [recHC 14 k.handle c]) hupq, he⟩

theorem Agent.ctx_withEnd (a : Agent) (e : LinkEnd) (c : Nat) : ({ a with e := e } : Agent).ctx c = a.ctx c := rfl

/-- A copy taken in when the flit was accepted. -/
theorem Agent.takesIn_withEnd {a : Agent} {c : Nat} {k : Copy} {before after : List Copy} (e : LinkEnd)
    (hready : (a.ctx c).ready = before ++ after) (hbefore : ∀ x ∈ before, k.key ≤ x.key)
    (hafter : ∀ x ∈ after, x.key < k.key) (pop : Bool) :
    let a' := ({ a with e := e } : Agent).takesIn c k pop
    a.Makes a' c { a.ctx c with ready := (before ++ k :: after).take 4 } ∧
    a'.upq = a.upq ++ a'.leftList (before ++ k :: after) ++ (if pop then [] else [recHC 14 k.handle c]) ∧ a'.e = e := by
  have hins : insertCopy k (({ a with e := e } : Agent).ctx c).ready = before ++ k :: after := by
    rw [Agent.ctx_withEnd, hready, insertCopy_append hbefore hafter]
  exact Agent.takesIn_leaves hins pop

/-- The flit of a copy, intact and in sequence, is accepted, and its copy taken in. -/
theorem Blk.candidateFlit_of_copy {b : Blk} {n c : Nat} {k : Copy} {f : Flit} {rest : List Flit} (hc : c < 64)
    (hh : k.handle < 1024) (harm : b.inj.arm = []) (hinbox : (b.ta n).e.inbox = []) (hwire : (b.link n).e.wire = f :: rest)
    (hcheck : (b.ta n).e.check f = true) (h0 : f.b0 = candHead c k) (h1 : f.b1 = k.intid) (h2 : f.b2 = k.key) :
    b.candidateFlit n 0 = (b.flitAccepted n rest f).modTa n (fun a => a.takesIn c k (b.ctxPop (64 * n + c))) := by
  have hcand : f.isCand = true := by
    rw [Flit.isCand, h0]
    simpa using candHead_is_cand c k
  obtain ⟨hctx, hhandle, hzero⟩ := bits_candHead hc hh
  have hlegal : f.legal false = true := by rw [legal_cand hcand, h0, hzero]; rfl
  have hrecv : b.recvDown n 0 = (b.flitAccepted n rest f, some f) := by
    rw [Blk.recvDown_eq (Blk.injHit_of_noArm harm _ _) hwire, corrupt_zero, if_pos hcheck, if_pos hlegal]
  have hshared : (recType (candHead c k) == 2) = k.shared := by rw [recType_candHead]; cases k.shared <;> rfl
  rw [Blk.candidateFlit_of_some hinbox hwire hcand hrecv hcand (Blk.injHit_of_noArm harm _ _)]
  simp only [h0, h1, h2, hshared, hctx, hhandle]
  rfl

theorem Blk.link_flitAccepted (b : Blk) (n : Nat) (rest : List Flit) (f : Flit) :
    (b.flitAccepted n rest f).link n = { b.link n with e := { (b.link n).e with wire := rest } } :=
  b.link_modLink_self n (fun l => { l with e := { l.e with wire := rest } })

theorem Blk.ta_flitAccepted (b : Blk) (n : Nat) (rest : List Flit) (f : Flit) :
    (b.flitAccepted n rest f).ta n = { b.ta n with e := (b.ta n).e.accepted f } :=
  Blk.ta_modTa_self (b.flitTaken n rest) n (fun a => { a with e := a.e.accepted f })

theorem LinkEnd.rxExp_accepted_of_isCand (e : LinkEnd) {f : Flit} (h : f.isCand = true) : (e.accepted f).rxExp = e.rxExp + 1 := by
  simp [LinkEnd.accepted, Flit.sequenced, h]

/-- A flit that passes its check with a reserved bit set trains a link in UP again. -/
theorem Blk.candidateFlit_of_illegal {b : Blk} {n : Nat} {f : Flit} {rest : List Flit} (harm : b.inj.arm = [])
    (hinbox : (b.ta n).e.inbox = []) (hwire : (b.link n).e.wire = f :: rest) (hcheck : (b.ta n).e.check f = true)
    (hcand : f.isCand = true) (hbits : bits f.b0.toNat 13 10 ≠ 0) (hup : (b.link n).st = .up) :
    b.candidateFlit n 0 = ((b.flitAccepted n rest f).modLink n
      (fun l => { l with err := { l.err with proto := satInc l.err.proto } })).retrain n := by
  have hlegal : f.legal false = false := (legal_cand hcand).trans (beq_eq_false_iff_ne.2 hbits)
  have hrecv := Blk.recvDown_eq (Blk.injHit_of_noArm harm _ _) hwire 0
  rw [corrupt_zero, if_pos hcheck, if_neg (by rw [hlegal]; exact Bool.false_ne_true)] at hrecv
  rw [Blk.candidateFlit_of_none hinbox hwire hcand hrecv,
    Blk.protoError_of_up (by rw [Blk.link_flitAccepted]; exact hup)]

theorem Blk.err_retrain (b : Blk) (n : Nat) : ((b.retrain n).link n).err = (b.link n).err := by
  simp only [Blk.retrain, Blk.link_startTraining, Blk.link_modTa, Blk.link_modLink_self, Link.dropCtl]

theorem exec_candidateFlit {s : State} {n : Nat} (h : s.blk.LinkRuns n) (err : BitVec 96) :
    exec (.candidateFlit n err) s = s.becomes (s.blk.candidateFlit n err) := by
  show s.becomes (s.blk.linkRow s.mem n (fun b => b.candidateFlit n err)) = _
  rw [h.linkRow_eq]

/-- Settles O15: the flit's check decides, and a copy accepted takes its place in the Ready List. -/
theorem candidateFlitAtTileAgent : Obligations.CandidateFlitAtTileAgent := by
  unfold Obligations.CandidateFlitAtTileAgent
  intro s n rest h hinbox b0 a l
  refine ⟨fun c k before after hc hh hwire hready hbefore hafter => ?taken, fun f err hwire hcand hcrc => ?mismatch,
    fun r i k hwire hr hbits hup => ?illegal⟩
  case taken =>
    rw [rec24_candHead] at hwire
    have hcheck := LinkEnd.check_mkFlit a.e (candHead c k) k.intid k.key
    have hcand := isCand_mkFlit_of_recType (q := a.e.rxExp) (i := k.intid) (k := k.key) (candHead_is_cand c k)
    have hrow := Blk.candidateFlit_of_copy hc hh h.noInject hinbox hwire hcheck (b0_mkFlit ..) (b1_mkFlit ..) (b2_mkFlit ..)
    generalize mkFlit a.e.rxExp (candHead c k) k.intid k.key = f at hrow hcand
    have hexp := LinkEnd.rxExp_accepted_of_isCand (b0.ta n).e hcand
    have hta := Blk.ta_modTa_self (b0.flitAccepted n rest f) n (fun a => a.takesIn c k (b0.ctxPop (64 * n + c)))
    rw [Blk.ta_flitAccepted] at hta
    obtain ⟨⟨hself, hothers⟩, hupq, he⟩ :=
      Agent.takesIn_withEnd (a := b0.ta n) ((b0.ta n).e.accepted f) hready hbefore hafter (b0.ctxPop (64 * n + c))
    refine ⟨_, (exec_candidateFlit h 0).trans (congrArg s.becomes hrow), ?_⟩
    rw [hta]
    exact ⟨congrArg (fun l : Link => l.e.wire) (b0.link_flitAccepted n rest f), (congrArg LinkEnd.rxExp he).trans hexp, hself,
      hothers, hupq⟩
  case mismatch =>
    have hcheck : a.e.check (corrupt f err) = false := beq_eq_false_iff_ne.2 hcrc
    have hrecv := Blk.recvDown_eq (Blk.injHit_of_noArm h.noInject _ _) hwire err
    rw [if_neg (by rw [hcheck]; exact Bool.false_ne_true)] at hrecv
    have hrow := Blk.candidateFlit_of_none hinbox hwire hcand hrecv
    obtain ⟨hlink, hta, hreports⟩ := (b0.flitTaken n rest).mismatch_leaves n (!a.e.nakWait)
    rw [show (b0.flitTaken n rest).link n = { l with e := { l.e with wire := rest } } from b0.link_flitAccepted n rest f] at hlink
    refine ⟨_, (exec_candidateFlit h err).trans (congrArg s.becomes hrow), ?_⟩
    rw [hlink, hta, hreports]
    refine ⟨rfl, rfl, rfl, rfl, rfl, ?_, ?_⟩
    all_goals cases a.e.nakWait <;> rfl
  case illegal =>
    have hcheck := LinkEnd.check_mkFlit a.e r i k
    have hcand := isCand_mkFlit_of_recType (q := a.e.rxExp) (i := i) (k := k) hr
    have hrow := Blk.candidateFlit_of_illegal h.noInject hinbox hwire hcheck hcand hbits hup
    generalize mkFlit a.e.rxExp r i k = f at hrow
    let b1 := (b0.flitAccepted n rest f).modLink n (fun l => { l with err := { l.err with proto := satInc l.err.proto } })
    have hlink : b1.link n = { l with e := { l.e with wire := rest }, err := { l.err with proto := satInc l.err.proto } } := by
      rw [Blk.link_modLink_self, Blk.link_flitAccepted]
    obtain ⟨hst, hretrains, -⟩ := b1.link_retrain n
    refine ⟨_, (exec_candidateFlit h 0).trans (congrArg s.becomes hrow), hst, ?_, ?_, fun hquiet c => ?_⟩
    · rw [Blk.err_retrain, hlink]
    · rw [hretrains, hlink]
    · have hta : b1.ta n = { a with e := a.e.accepted f } := b0.ta_flitAccepted n rest f
      rw [Agent.ctx, Blk.ctxs_retrain_of_quiet (by rw [hta]; exact fun x hx => (hquiet x hx).1)
        (by rw [hta]; exact fun x hx => (hquiet x hx).2), hta, Agent.ctx]

end Sys2Proof.Machine

/-! Pause, quiesce and wake of a link, and the resets of a Tile Agent (06 R252 to R258; 16 R575, R581), and the settling of
O21. -/
namespace Sys2Proof.Machine
open Sys2Proof

/-- Where only ends changed, a link is what it was but for its end. -/
theorem Blk.OnlyEnds.link_eq {b0 b : Blk} (h : b0.OnlyEnds b) (k : Nat) : b.link k = { b0.link k with e := (b.link k).e } := by
  have hlink := congrArg (fun l : Link => { l with e := (b.link k).e }) (h.link k)
  exact hlink

theorem Blk.OnlyEnds.ta_eq {b0 b : Blk} (h : b0.OnlyEnds b) (k : Nat) : b.ta k = { b0.ta k with e := (b.ta k).e } := by
  have hta := congrArg (fun a : Agent => { a with e := (b.ta k).e }) (h.ta k)
  exact hta

/-! ### A record at the Hub while the link may be pausing -/

section
variable {b : Blk} {n : Nat} {r : Word24} {rest : List Flit}

/-- A record that reaches the Hub in sequence leaves what either end still has to send. -/
theorem Blk.takeUp_of_record (hr : 2 < recType r) (hl : recLegal true r = true) (harm : b.inj.arm = [])
    (hdriven : (b.link n).driven = true) (htile : (b.ta n).inReset = false) (hinbox : (b.link n).e.inbox = [])
    (hwire : (b.ta n).e.wire = mkFlit (b.link n).e.rxExp r 0 0 :: rest) :
    ∃ b' e, b.takeUp n (recType r) 0 = some (b', some r) ∧ b'.link n = { b.link n with e := e } ∧
      e.txSeq = (b.link n).e.txSeq ∧ e.resend = (b.link n).e.resend ∧
      b'.ta n = { b.ta n with e := { (b.ta n).e with wire := rest } } := by
  have hlaunch : (b.ta n).launchNext b.time.count = b.ta n := by simp [Agent.launchNext, hwire]
  have hcheck := check_mkFlit (b.link n).e r
  have hleads := leads_mkFlit hr (b.link n).e.rxExp
  have hlegal := legal_mkFlit hr hl (b.link n).e.rxExp
  have hfirst := fun e : LinkEnd => e.takeFirst_mkFlit hr (b.link n).e.rxExp
  generalize mkFlit (b.link n).e.rxExp r 0 0 = f at *
  let b1 := (b.modTa n (fun _ => b.ta n)).modTa n (fun a => { a with e := { a.e with wire := rest } })
  let b2 := b1.modLink n (fun l => { l with e := l.e.accepted f })
  have hrecv : (b.modTa n (fun _ => b.ta n)).recvUp n 0 = (b2, some f) := by
    have hinj : (b.modTa n (fun _ => b.ta n)).injHit 18 n = false := Blk.injHit_of_noArm harm _ _
    unfold Blk.recvUp
    simp only [Blk.ta_modTa_self, hwire, hinj, Bool.false_eq_true, if_false, corrupt_none, Blk.link_modTa, hcheck, Bool.not_true,
      hlegal, if_true]
    rfl
  have hlink : b2.link n = { b.link n with e := (b.link n).e.accepted f } := Blk.link_modLink_self b1 n _
  have hta : b2.ta n = { b.ta n with e := { (b.ta n).e with wire := rest } } := by
    have hmod := Blk.ta_modTa_self (b.modTa n (fun _ => b.ta n)) n (fun a => { a with e := { a.e with wire := rest } })
    rwa [show (b.modTa n (fun _ => b.ta n)).ta n = b.ta n from Blk.ta_modTa_self ..] at hmod
  refine ⟨b2.modLink n (fun l => { l with e := { (b2.link n).e with inbox := [] } }), { (b2.link n).e with inbox := [] },
    ?_, ?_, ?_, ?_, hta⟩
  · simp only [Blk.takeUp, hinbox, hdriven, htile, hlaunch, hwire, hleads, hrecv, hfirst, Bool.not_true, Bool.or_false,
      Bool.false_and, Bool.false_eq_true, if_false]
  · rw [Blk.link_modLink_self, hlink]
  · rw [hlink]; rfl
  · rw [hlink]; rfl

end

/-! ### Pause (06 R252) -/

section
variable {b b' : Blk} {n : Nat} {r : Word24}

/-- The clock stops when neither end of a pausing link has anything to send. -/
theorem Blk.pauseAck_of_idle (htake : b.takeUp n 8 0 = some (b', some r)) (hph : (b'.link n).ph = .pausing)
    (hidle : b'.linkSends n = false) :
    b.pauseAck n 0 = b'.modLink n (fun l => { l with st := .paused, clkOn := false, ph := .none }) := by
  simp only [Blk.pauseAck, Blk.upRec, htake, hph, hidle, true_or, if_true, ne_eq, not_true_eq_false, Bool.false_eq_true, if_false]

/-- An event that leaves a pausing link PAUSED is no wake event. -/
theorem Blk.linkRow_of_paused (hn : n < 16) (ha : b.awake = true) (m : List Host.Cell) {f : Blk → Blk}
    (hst : ((f b).link n).st ≠ .up) : b.linkRow m n f = f b := by
  have hruns : b.linksRun = true := by
    have hstart := Blk.start_of_awake ha
    simp only [Blk.linksRun, hstart, ha]
  simp [Blk.linkRow, hruns, hst, Nat.not_le.2 hn]

end

/-! ### Quiesce (06 R254, R255) -/

section
variable {b : Blk} {n : Nat}

/-- A link whose tile has answered has work that follows. -/
theorem Blk.hasFollowUp_of_answered (h : (b.link n).quiesceAnswered = true) : b.hasFollowUp = true := by
  have hmem : (n, b.link n) ∈ b.links := mem_of_tabGet_ne fun hd => by
    rw [Blk.link, hd] at h
    exact absurd h (by decide)
  have hany : b.links.any (fun x => x.2.quiesceAnswered) = true := List.any_eq_true.2 ⟨_, hmem, h⟩
  simp [Blk.hasFollowUp, hany]

/-- The quiesce ends when every handle is FREE: QUIESCED, or training on request. -/
theorem Blk.quiesceEnd_leaves (h : (b.link n).quiesceAnswered = true) (hhandles : (b.link n).handles = []) :
    ((b.quiesceEnd n).link n).st = (if (b.link n).service then .training else .quiesced) ∧
    ((b.quiesceEnd n).link n).clkOn = (b.link n).service ∧ ((b.quiesceEnd n).link n).hasTab = false := by
  cases hs : (b.link n).service with
  | false =>
    have heq : (b.quiesceEnd n).link n = { b.link n with st := .quiesced, clkOn := false, ph := .none, hasTab := false } := by
      simp [Blk.quiesceEnd, h, hhandles, hs, Blk.link_modLink_self]
    rw [heq]
    exact ⟨rfl, rfl, rfl⟩
  | true =>
    have heq : b.quiesceEnd n = (b.modLink n (fun l => { l with st := .quiesced, clkOn := false, ph := .none, hasTab := false
        })).startTraining n .training := by
      simp [Blk.quiesceEnd, h, hhandles, hs]
    rw [heq, Blk.link_startTraining, Blk.link_modLink_self]
    exact ⟨rfl, rfl, rfl⟩

end

/-! ### Wake (06 R257) -/

section
variable {b : Blk} {n : Nat} {m : List Host.Cell}

theorem Blk.criticalWaits_of_none_parked (h : b.rank.parked = []) : b.criticalWaits m n = false := by
  rw [Blk.criticalWaits, h]
  rfl

theorem Blk.patternDue_of_quiesced (ha : b.awake = true) (hst : (b.link n).st = .quiesced) (hen : (b.link n).wakeEn = true) :
    b.patternDue m n = b.criticalWaits m n := by
  simp [Blk.patternDue, ha, hst, hen]

/-- In RUN the upstream pattern of a link that is not driven trains it. -/
theorem Blk.wakeAtHub_of_stopped (ha : b.awake = true) (hseq : b.pwr.seq.seq = .none) (hreset : (b.ta n).inReset = false)
    (hwake : (b.ta n).wake = true) (hst : (b.link n).st = .quiesced ∨ (b.link n).st = .down ∨ (b.link n).st = .failed)
    (hpop : (b.link n).pop = true) : b.wakeAtHub m n =
    ((b.patternSent n).modLink n (fun l => { l with quiesce := false })).startTraining n .training := by
  have hstate := Blk.powerState_of_awake ha
  have hhub : b.pwr.seq.hubReset = false := by
    simp only [Blk.awake, Blk.inRun, Bool.and_eq_true, Bool.not_eq_true'] at ha
    exact ha.1.2
  have hoff : b.offBound = false := by simp [Blk.offBound, hstate, hseq, PSeq.target]
  have hawake : b.wakeable = false := by simp [Blk.wakeable, hstate, hseq]
  have hpaused : (b.link n).st ≠ .paused := by rcases hst with h | h | h <;> rw [h] <;> decide
  have hlink : (b.link n).wakeable = true := by
    rcases hst with h | h | h <;> simp [Link.wakeable, hpop, h]
  have hsent : ((b.patternSent n).link n).wakeable = true := hlink
  simp [Blk.wakeAtHub, hreset, hoff, hhub, hpop, hpaused, hwake, Blk.when, hawake, ha, hlink, Blk.wakeTrain, hsent]

theorem Blk.wake_startTraining (b : Blk) (n : Nat) (st : LState) : ((b.startTraining n st).ta n).wake = (b.ta n).wake := by
  rw [Blk.startTraining, Blk.trainStep1, Blk.ta_modTa_self]
  rfl

end

/-- What a Tile Agent keeps of a context when it is lost: the words returned, and the answer to the read that was held. -/
theorem Agent.ctx_lost (a : Agent) (c : Nat) : a.lost.ctx c =
    { resp := if (a.ctx c).held.isSome then 0x00FFFFFF :: (a.ctx c).resp else (a.ctx c).resp } :=
  tabGet_tabMap (α := Ctx) {} _ a.ctxs c rfl

/-- Settles O21: each row does what its own lemma says, on a link of the state named. -/
theorem pauseQuiesceWake : Obligations.PauseQuiesceWake := by
  unfold Obligations.PauseQuiesceWake
  intro s n rest hn b0 a l
  refine ⟨fun ha hdriven htile harm hwire hinbox => ⟨fun hph hupq htre hctl houtq hhre => ?paused, fun hph => ?abandoned⟩,
    fun hto hst hhandles => ?qack, fun ha hst hen hwaking htile hcrit => ?down,
    fun ha hseq _ htile hwake hst hpop => ?up, fun ha hst hen => ⟨?goes, Blk.criticalWaits_of_none_parked⟩,
    fun hclk hpop hst htile => ?hold, ?low, fun hreset => ?high⟩
  case paused =>
    obtain ⟨b, e, htake, hlink, htx, hre, hta⟩ :=
      Blk.takeUp_of_record (r := rec24 8 0) (by decide) (by decide) harm hdriven htile hinbox hwire
    have hidle : b.linkSends n = false := by simp [Blk.linkSends, hlink, hta, hctl, houtq, hre, hhre, hupq, htre, l, a, b0]
    have hrow := Blk.pauseAck_of_idle htake (by rw [hlink]; exact hph) hidle
    have hpaused : (b.modLink n (fun l => { l with st := .paused, clkOn := false, ph := .none })).link n =
        { l with e := e, st := .paused, clkOn := false, ph := .none } := by rw [Blk.link_modLink_self, hlink]
    have hexec : b0.linkRow s.mem n (fun b => b.pauseAck n 0) = b0.pauseAck n 0 :=
      Blk.linkRow_of_paused hn ha s.mem (by rw [hrow, hpaused]; simp)
    refine ⟨_, congrArg s.becomes (hexec.trans hrow), ?_⟩
    rw [hpaused]
    exact ⟨rfl, rfl, htx, rfl⟩
  case abandoned =>
    have hto : b0.ToHub n (rec24 8 0) rest := ⟨⟨hn, ha, hdriven, hph, harm, htile⟩, hinbox, hwire⟩
    obtain ⟨b, hends, hup⟩ := hto.upRec_eq (by decide) (by decide) (by decide : recType (rec24 8 0) = 8)
    have hlink := hends.link_eq n
    have hstays : (b.link n).ph ≠ .pausing := fun hp => hph (by rw [hlink] at hp; exact hp)
    refine ⟨b, congrArg s.becomes ((hto.toLinkRuns.linkRow_eq s.mem _).trans ((hup _).trans (if_pos hstays))), ?_, ?_⟩
    · rw [hlink]
    · simp only [Link.driven, Bool.and_eq_true] at hdriven
      rw [hlink]
      exact hdriven.1
  case qack =>
    obtain ⟨b, hends, hup⟩ := hto.upRec_eq (by decide) (by decide) (by decide : recType (rec24 9 0) = 9)
    have hlink := hends.link_eq n
    have hst' : (b.link n).st = .quiescing := by rw [hlink]; exact hst
    let b1 := b.modLink n (fun l => if l.st = .quiescing then { l with ph := .asked } else l)
    have hasked : b1.link n = { b.link n with ph := .asked } := (Blk.link_modLink_self ..).trans (if_pos hst')
    have hanswered : (b1.link n).quiesceAnswered = true := by rw [hasked, Link.quiesceAnswered, hst']; rfl
    have hleaves := Blk.quiesceEnd_leaves hanswered (by rw [hasked, hlink]; exact hhandles)
    have hservice : (b1.link n).service = l.service := by rw [hasked, hlink]
    rw [hservice] at hleaves
    exact ⟨b1, congrArg s.becomes ((hto.toLinkRuns.linkRow_eq s.mem _).trans (hup _)), Blk.hasFollowUp_of_answered hanswered,
      by rw [hasked]; exact hst', hleaves⟩
  case down =>
    have hdue : (b0.patternDue s.mem n && l.waking && !a.inReset) = true := by
      rw [Blk.patternDue_of_quiesced ha hst hen, hcrit, hwaking, htile]; rfl
    refine ⟨b0.modTa n (fun a => { a with wake := true }), congrArg s.becomes ?_, Blk.ta_modTa_self ..⟩
    simp only [Blk.when, hn, decide_true, if_true, Blk.wakeAtTile]
    exact if_pos hdue
  case up =>
    have hwakes := Blk.wakeAtHub_of_stopped (m := s.mem) ha hseq htile hwake hst hpop
    refine ⟨_, congrArg s.becomes ((if_pos (by simpa using hn)).trans hwakes), ?_⟩
    rw [Blk.link_startTraining, Blk.wake_startTraining, Blk.link_modLink_self]
    exact ⟨rfl, rfl, rfl, congrArg Agent.wake (Blk.ta_modTa_self b0 n (fun a => { a with wake := false }))⟩
  case goes =>
    have hdue := Blk.patternDue_of_quiesced (m := s.mem) ha hst hen
    rw [← hdue]
    exact congrArg s.becomes (if_pos (by simpa using hn))
  case hold =>
    have hframes : b0.noFrames n = true := by simp [Blk.noFrames, show (b0.link n).clkOn = false from hclk]
    have hholds : b0.agentHolds n = b0.modTa n (fun a => { a with hold := true }) :=
      if_pos (by simp [show (b0.link n).pop = true from hpop, show (b0.link n).st = .down from hst,
        show (b0.ta n).inReset = false from htile])
    exact ⟨_, congrArg s.becomes ((if_pos (by simpa [hn] using hframes)).trans hholds), Blk.ta_modTa_self ..⟩
  case low =>
    refine ⟨b0.modTa n (fun a => { a.lost with inReset := true, wake := false }),
      congrArg s.becomes (if_pos (by simpa using hn)), ?_⟩
    rw [Blk.ta_modTa_self]
    exact ⟨rfl, rfl, rfl, rfl, a.ctx_lost⟩
  case high =>
    exact ⟨b0.modTa n (fun a => { a with inReset := false, wake := true }),
      congrArg s.becomes ((if_pos (by simpa using hn)).trans (if_pos hreset)), Blk.ta_modTa_self ..⟩

end Sys2Proof.Machine

/-! The steps of a training: the end that aligns, CLEAR, the reports of a tile, and an attempt that takes too long (06 R250,
R251). -/
namespace Sys2Proof.Machine
open Sys2Proof

/-! ### Rows of a link that runs -/

section
variable {s : State} {n : Nat} (h : s.blk.LinkRuns n)
include h

theorem exec_tileFrameAlign : exec (.tileFrameAlign n) s = s.becomes (s.blk.frameAlign n) :=
  congrArg s.becomes (h.linkRow_eq s.mem (fun b => b.frameAlign n))

theorem exec_upstreamFramesPassed : exec (.upstreamFramesPassed n) s = s.becomes (s.blk.framesPassed n) :=
  congrArg s.becomes (h.linkRow_eq s.mem (fun b => b.framesPassed n))

theorem exec_trainingTimeout : exec (.trainingTimeout n) s = s.becomes (s.blk.trainTimeout n) :=
  congrArg s.becomes (h.linkRow_eq s.mem (fun b => b.trainTimeout n))

theorem exec_tileLoss : exec (.tileLoss n) s = s.becomes (s.blk.tileLoss s.mem n) :=
  congrArg s.becomes (h.linkRow_eq s.mem (fun b => b.tileLoss s.mem n))

end

/-! ### A link in training -/

section
variable {b : Blk} {n : Nat}

theorem Link.inTraining_of {l : Link} (h : l.st = .training ∨ l.st = .retrain) : l.inTraining = true := by
  rcases h with h | h <;> simp [Link.inTraining, h]

theorem Blk.frameAlign_of_idling (h : (b.link n).inTraining = true) (hph : (b.link n).ph = .idling)
    (htile : (b.ta n).inReset = false) : b.frameAlign n =
    (b.modTa n (fun a => { a with aligned := true })).modLink n (fun l => { l with ph := .aligned }) := by
  simp [Blk.frameAlign, h, hph, htile]

theorem Blk.framesPassed_of_aligned (h : (b.link n).inTraining = true) (hph : (b.link n).ph = .aligned) : b.framesPassed n =
    (b.ctlRec n (rec24 (if (b.link n).hasTab then 10 else 11) 0)).modLink n (fun l => { l with ph := .asked }) := by
  simp [Blk.framesPassed, h, hph]

/-- Another attempt begins from its first step. -/
theorem Blk.link_trainTimeout (h : (b.link n).inTraining = true) (htries : (b.link n).tries < 3) : (b.trainTimeout n).link n =
    { (b.link n).dropCtl with tries := (b.link n).tries + 1, clkOn := true, ph := .idling, reports := [], e := {} } := by
  simp only [Blk.trainTimeout, h, Bool.not_true, Bool.false_eq_true, if_false, Nat.not_le.2 htries, Blk.trainStep1,
    Blk.link_modTa, Blk.link_modLink_self]
  rfl

/-- The fourth attempt is the last. -/
theorem Blk.trainTimeout_of_last (h : (b.link n).inTraining = true) (htries : 3 ≤ (b.link n).tries) : b.trainTimeout n =
    (b.modLink n (fun l =>
      { l.dropCtl with st := .failed, tries := 0, ph := .none, clkOn := false, e := l.e.fresh })).raise 0x0C := by
  simp only [Blk.trainTimeout, h, Bool.not_true, Bool.false_eq_true, if_false, htries, if_true]

theorem Link.handle_dropCtl (l : Link) (k : Nat) : l.dropCtl.handle k = (l.handle k).settled :=
  tabGet_tabMap (α := Handle) {} (fun _ x => x.settled) l.handles k rfl

theorem Blk.link_modLink_modLink (b : Blk) (n : Nat) (f g : Link → Link) :
    ((b.modLink n f).modLink n g).link n = g (f (b.link n)) := by
  rw [Blk.link_modLink_self, Blk.link_modLink_self]

/-- A link that comes up, TRAINED queued behind the rest. -/
def Link.cameUp (l : Link) : Link :=
  { l with st := .up, ph := .none, tries := 0, hasTab := true, reports := [], ctl := l.ctl ++ [rec24 13 0] }

/-- Beside the link the parked rescan is started. -/
theorem Blk.linkUp_leaves (b : Blk) (n : Nat) : (b.linkUp n).link n = (b.link n).cameUp ∧
    (b.linkUp n).rank.rescan.isSome = true ∧ (b.linkUp n).sram = b.sram ∧ (b.linkUp n).ta n = b.ta n := by
  refine ⟨?_, rfl, rfl, rfl⟩
  exact Blk.link_modLink_modLink b n (fun l => { l with st := .up, ph := .none, tries := 0, hasTab := true, reports := [] })
    (fun l => { l with ctl := l.ctl ++ [rec24 13 0] })

end

/-! ### CLEAR at the Tile Agent -/

/-- What CLEAR leaves of a context. -/
def Ctx.cleared (x : Ctx) : Ctx :=
  { x with ready := [], stack := [], held := none, resp := if x.held.isSome then 0x00FFFFFF :: x.resp else x.resp }

theorem Agent.ctx_onClear {a : Agent} (hq : a.Quiet) (d : Nat) : a.onClear.ctx d = (a.ctx d).cleared := by
  have hquiet : ({ a with ctxs := tabMap {} (fun _ x => x.cleared) a.ctxs } : Agent).Quiet :=
    forall_mem_tabMap (P := fun x : Ctx => x.waiting = []) hq fun _ _ hx => hx
  have hserve : a.onClear = { a with ctxs := tabMap {} (fun _ x => x.cleared) a.ctxs } := Agent.serveAll_of_quiet hquiet
  rw [hserve]
  exact tabGet_tabMap (α := Ctx) {} (fun _ x => x.cleared) a.ctxs d rfl

/-! ### RSYNC at the Hub -/

section
variable {h c : Nat} (hh : h < 1024) (hc : c < 64) (act : Bool)
include hh hc

/-- The fields of a report, and that it is legal. -/
theorem rsync_fields : recHandle (rec24 10 (h * 1024 + c * 16 + b2n act)) = h ∧
    recCtx (rec24 10 (h * 1024 + c * 16 + b2n act)) = c ∧
    (bits (rec24 10 (h * 1024 + c * 16 + b2n act)).toNat 1 0 == 1) = act ∧
    recLegal true (rec24 10 (h * 1024 + c * 16 + b2n act)) = true := by
  have hact : b2n act < 2 := by cases act <;> decide
  have hfield : ∀ {hi lo}, hi < 20 → lo ≤ hi → bits (rec24 10 (h * 1024 + c * 16 + b2n act)).toNat hi lo =
      (h * 1024 + c * 16 + b2n act) % 2 ^ (hi + 1) / 2 ^ lo := fun hhi hlo => by
    rw [bits_rec24 (by decide) _ hhi hlo, bits_eq_mod_div _ hlo]
  have hzero : bits (rec24 10 (h * 1024 + c * 16 + b2n act)).toNat 3 2 = 0 := by rw [hfield (by decide) (by decide)]; omega
  have hone : bits (rec24 10 (h * 1024 + c * 16 + b2n act)).toNat 1 0 = b2n act := by
    rw [hfield (by decide) (by decide)]; omega
  refine ⟨?_, ?_, ?_, ?_⟩
  · rw [recHandle, hfield (by decide) (by decide)]; omega
  · rw [recCtx, hfield (by decide) (by decide)]; omega
  · rw [hone]; cases act <;> rfl
  · simp only [recLegal, recType_rec24 (by decide : 10 < 16), hzero, if_true, beq_self_eq_true]

end

section
variable {s : State} {n : Nat} {rest : List Flit}

theorem exec_clear (hto : s.blk.ToTile n (rec24 11 0) rest) :
    ∃ b, s.blk.OnlyEnds b ∧ exec (.clear n 0) s = s.becomes ((b.modTa n Agent.onClear).linkUp n) := by
  obtain ⟨b, hends, hdown⟩ := hto.downRec_eq (by decide) (by decide) (by decide : recType (rec24 11 0) = 11)
  exact ⟨b, hends, congrArg s.becomes ((hto.toLinkRuns.linkRow_eq s.mem _).trans (hdown _))⟩

theorem exec_rsync {h c : Nat} (hh : h < 1024) (hc : c < 64) (act : Bool)
    (hto : s.blk.ToHub n (rec24 10 (h * 1024 + c * 16 + b2n act)) rest) (hasked : (s.blk.link n).asked = true) :
    ∃ b, s.blk.OnlyEnds b ∧ exec (.rsync n 0) s =
      s.becomes (b.modLink n (fun l => if l.asked then { l with reports := l.reports ++ [(h, c, act)] } else l)) ∧
      (b.link n).asked = true := by
  obtain ⟨hhandle, hctx, hact, hlegal⟩ := rsync_fields hh hc act
  obtain ⟨b, hends, hup⟩ := hto.upRec_eq (by rw [recType_rec24 (by decide)]; decide) hlegal (recType_rec24 (by decide) _)
  refine ⟨b, hends, congrArg s.becomes ((hto.toLinkRuns.linkRow_eq s.mem _).trans ((hup _).trans ?_)), ?_⟩
  · rw [hhandle, hctx, hact]
  · rw [hends.link_eq n]
    exact hasked

end
end Sys2Proof.Machine

/-! The reconciliation of a tile's reports, and the loss of a tile (06 R251, R258, Table 6-8), and the settling of O20. -/
namespace Sys2Proof.Machine
open Sys2Proof

/-! ### A notice and the rest of its link -/

/-- From `b0` to `b` a notice changed its handle; of the other parts of the link only the notices held may have changed, and
nothing of the Tile Agents or the lanes. -/
structure Blk.NoticeDone (b0 b : Blk) (n h : Nat) (f : Handle → Handle) : Prop where
  link : ∃ ns, b.link n = { (b0.link n).modHandle h f with notices := ns }
  tas : b.tas = b0.tas
  ing : b.ing = b0.ing

section
variable {b0 b : Blk} {n h c : Nat} {t : Stt} {st : HState}

/-- Names are kept where the link keeps its handle and holds no notice, and the source, the spill path and the errors found are
as they were. -/
theorem Blk.Names.congr (hN : b0.Names n h st t) (hhandle : (b.link n).handle h = (b0.link n).handle h)
    (hsram : b.sram = b0.sram) (hinj : b.inj = b0.inj) (hecc : b.ecc = b0.ecc) (hrank : b.rank = b0.rank)
    (hrings : b.rings = b0.rings) (hnotice : b.noticesHeld = false) : b.Names n h st t := by
  obtain ⟨⟨hans, hunspilled, hsound⟩, hst, ⟨hstt, hmapped, harm, hread, hoffer, -, hacts⟩, hcur⟩ := hN
  refine ⟨⟨?_, ?_, ?_⟩, ?_, ⟨?_, hmapped, ?_, ?_, ?_, hnotice, ?_⟩, ?_⟩
  · rwa [hhandle]
  · rwa [hrings]
  · rwa [Blk.lostHandle, hecc]
  · rwa [hhandle]
  · rwa [hhandle, hsram]
  · rwa [hinj]
  · rwa [hhandle, hecc]
  · rwa [hrank]
  · rwa [Blk.dom, hsram]
  · rwa [hhandle, Blk.dom, hsram]

/-- Settling an entry, and binding a handle anew, leave the Tile Agents and the lanes. -/
theorem Blk.ports_settled (b : Blk) (i : Nat) (st : Stt) (e : Entry) :
    (b.settled i st e).tas = b.tas ∧ (b.settled i st e).ing = b.ing := by
  obtain ⟨slots, offers, dbg, h⟩ := b.settled_eq i st e
  rw [h]
  exact ⟨rfl, rfl⟩

theorem Blk.ports_rebound (b : Blk) (n h : Nat) (f : Handle → Handle) (d : Dbg) :
    (b.rebound n h f d).tas = b.tas ∧ (b.rebound n h f d).ing = b.ing := by
  obtain ⟨links, peers, heq⟩ := b.rebound_eq n h f d
  rw [heq]
  exact ⟨rfl, rfl⟩

/-- Taken at its bank, a notice leaves of the link what it was but for the notices held. -/
theorem Blk.link_noticeTaken_eq (b : Blk) (n : Nat) (u : Upd) :
    (b.noticeTaken n u).link n = { b.link n with notices := ((b.noticeTaken n u).link n).notices } := by
  have htaken := b.link_noticeTaken n u n
  generalize (b.noticeTaken n u).link n = x at htaken
  rw [← htaken]

variable (hn : n < 16) (hends : b0.OnlyEnds b) (hN : b0.Names n h st t)
include hn hends hN

/-- A notice whose effect on the block is that on its handle changes nothing else of the link. -/
theorem Blk.Names.notice_done {k : NoticeKind} {f : Handle → Handle} {d : Dbg} {e' : Entry}
    (hdue : (b.atNotice n h k c t).noticeDue ((b0.link n).handle h).stt t (b0.entry t) k n h c ((b0.link n).handle h).gen =
      ((b.atNotice n h k c t).rebound n h f d, e')) (m : List Host.Cell) : b.NoticeDone (b.notice m n h k c) n h f := by
  have hx : (b.link n).handle h = (b0.link n).handle h := hends.brings.handle n h
  have hres : b.Resident ((b.link n).handle h).stt t := by rw [hx]; exact hends.brings.resident hN.source.resident
  have heq := Blk.notice_eq (m := m) (b' := (b.atNotice n h k c t).rebound n h f d) hn hres (by rw [hx]; exact hN.current.1)
    (fun k => (hends.notices k).trans (Blk.notices_of_not_held hN.source.noNotice k))
    (by rw [hends.brings.rings]; exact hN.unspilled) k c (by rw [hx, hends.brings.entry]; exact hdue)
  have hreb : (b.atNotice n h k c t).rebound n h f d =
      { (b.atNotice n h k c t).modLink n (fun l => l.modHandle h f) with dbg := d } := by
    rw [Blk.rebound, Blk.modNamed_eq hn]
  rw [heq]
  refine ⟨⟨((b.noticeTaken n (b.noticeUpd n h k c)).link n).notices, ?_⟩, ?_, ?_⟩
  · rw [Blk.link_served7, Blk.link_settled, hreb]
    refine (Blk.link_modLink_self (b.atNotice n h k c t) n (fun l => l.modHandle h f)).trans ?_
    exact (congrArg (fun l : Link => l.modHandle h f) (b.link_noticeTaken_eq n (b.noticeUpd n h k c)))
  · exact (Blk.ports_settled _ _ _ _).1.trans (Blk.ports_rebound _ _ _ _ _).1
  · exact (Blk.ports_settled _ _ _ _).2.trans (Blk.ports_rebound _ _ _ _ _).2

variable (m : List Host.Cell)
omit hN

theorem Blk.Names.released_done (hN : b0.Names n h .standing t) :
    b.NoticeDone (b.notice m n h .released c) n h (fun _ => {}) := by
  obtain ⟨hx, hsound, hgen⟩ := hN.atNotice hends (c := c) .released
  obtain ⟨hst, hshr, -⟩ := hN.handle
  obtain ⟨d, hdue⟩ := Blk.noticeDue_released (e := b0.entry t) hsound ((Blk.named_eq hn h).trans hx) hN.current.1 hgen hst
    hshr
  exact hN.notice_done hn hends hdue m

theorem Blk.Names.claimed_done (hN : b0.Names n h .standing t) :
    b.NoticeDone (b.notice m n h .claimed c) n h (fun y => y.claimedAt c) := by
  obtain ⟨hx, hsound, hgen⟩ := hN.atNotice hends (c := c) .claimed
  obtain ⟨hst, hshr, -⟩ := hN.handle
  obtain ⟨d, hdue⟩ := Blk.noticeDue_claimed (e := b0.entry t) hsound ((Blk.named_eq hn h).trans hx) hN.current.1 hgen hst hshr
  exact hN.notice_done hn hends hdue m

end

/-! ### Reconciliation of a single handle (06 Table 6-8) -/

section
variable {b : Blk} {n h c : Nat} {m : List Host.Cell}

/-- A handle that is as the tile reported it stays. -/
theorem Blk.reconcile_as_reported {act : Bool} (hst : ((b.link n).handle h).st = (if act then .active else .standing)) :
    b.reconcile m n [(h, c, act)] h = b := by
  cases act <;> simp [Blk.reconcile, hst]

theorem Blk.reconcile_claimed (hst : ((b.link n).handle h).st = .standing) :
    b.reconcile m n [(h, c, true)] h = b.claimHandle m n h c := by
  simp [Blk.reconcile, hst]

theorem Blk.reconcile_unreported (hst : ((b.link n).handle h).st = .standing) :
    b.reconcile m n [] h = b.releaseHandle m n h := by
  simp [Blk.reconcile, hst]

/-- What RSYNC_END makes of the block: every handle is reconciled, and the unknown ones are dropped. -/
theorem exec_rsyncEnd {s : State} {rest : List Flit} (hto : s.blk.ToHub n (rec24 11 0) rest)
    (hasked : (s.blk.link n).asked = true) : ∃ b, s.blk.OnlyEnds b ∧ exec (.rsyncEnd n 0) s = s.becomes
      (((setOf (((s.blk.link n).reports.filter (fun r => !((s.blk.link n).handles.map (·.1)).contains r.1)).map (·.1))).foldl
        (fun b h => b.ctlRec n (recHC 12 h 0))
        (((s.blk.link n).handles.map (·.1)).foldl (fun b h => b.reconcile s.mem n (s.blk.link n).reports h) b)).linkUp n) := by
  obtain ⟨b, hends, hup⟩ := hto.upRec_eq (by decide) (by decide) (by decide : recType (rec24 11 0) = 11)
  have hlink := hends.link_eq n
  have hreports : (b.link n).reports = (s.blk.link n).reports := by rw [hlink]
  have hhandles : (b.link n).handles = (s.blk.link n).handles := by rw [hlink]
  have hasked' : (b.link n).asked = true := by rw [hlink]; exact hasked
  refine ⟨b, hends, congrArg s.becomes ((hto.toLinkRuns.linkRow_eq s.mem _).trans ((hup _).trans ?_))⟩
  rw [hasked', hreports, hhandles]
  rfl

/-- A table of one handle, of which alone the tile reported. -/
theorem exec_rsyncEnd_of_single {s : State} {rest : List Flit} (hto : s.blk.ToHub n (rec24 11 0) rest)
    (hasked : (s.blk.link n).asked = true) {x : Handle} {reps : List (Nat × Nat × Bool)}
    (hl : (s.blk.link n).handles = [(h, x)]) (hreps : (s.blk.link n).reports = reps) (hsame : ∀ r ∈ reps, r.1 = h) :
    ∃ b, s.blk.OnlyEnds b ∧ exec (.rsyncEnd n 0) s = s.becomes ((b.reconcile s.mem n reps h).linkUp n) := by
  obtain ⟨b, hends, hexec⟩ := exec_rsyncEnd hto hasked
  have hnone : reps.filter (fun r => !([h] : List Nat).contains r.1) = [] :=
    List.filter_eq_nil_iff.2 fun r hr => by simp [hsame r hr]
  rw [hl, hreps] at hexec
  simp only [List.map_cons, List.map_nil, hnone, List.foldl_cons, List.foldl_nil] at hexec
  exact ⟨b, hends, hexec⟩

/-- A handle of which the Hub knows nothing. -/
theorem exec_rsyncEnd_of_unknown {s : State} {rest : List Flit} {act : Bool} (hto : s.blk.ToHub n (rec24 11 0) rest)
    (hasked : (s.blk.link n).asked = true) (hl : (s.blk.link n).handles = [])
    (hreps : (s.blk.link n).reports = [(h, c, act)]) : ∃ b, s.blk.OnlyEnds b ∧
      exec (.rsyncEnd n 0) s = s.becomes ((b.ctlRec n (recHC 12 h 0)).linkUp n) := by
  obtain ⟨b, hends, hexec⟩ := exec_rsyncEnd hto hasked
  rw [hl, hreps] at hexec
  exact ⟨b, hends, hexec⟩

end

/-! ### The one handle of a link -/

/-- A claimed interrupt whose copies are gone is due no offer. -/
theorem copiesGone_not_due {e : Entry} (hact : e.act = true) :
    ¬ ((copiesGone e).pend = true ∧ (copiesGone e).act = false ∧ (copiesGone e).dlv = false) := fun ⟨_, h, _⟩ =>
  absurd (hact.symm.trans h) (by decide)

theorem Link.handle_of_single {l : Link} {h : Nat} {x : Handle} (hl : l.handles = [(h, x)]) : l.handle h = x := by
  simp [Link.handle, hl, tabGet]

section
variable {b0 b b' : Blk} {n h c : Nat} {t : Stt} {m : List Host.Cell} {x : Handle}

theorem Blk.Names.releaseHandle_eq (hN : b0.Names n h .standing t) (hends : b0.OnlyEnds b) :
    b.releaseHandle m n h = b.notice m n h .released ((b0.link n).handle h).ctx := by
  have hprox := hN.handle.2.2
  have hx := hends.brings.handle n h
  rw [← hx] at hprox ⊢
  rw [Blk.releaseHandle, hends.brings.lostHandle, hN.sound, hprox]
  rfl

theorem Blk.Names.claimHandle_eq (hN : b0.Names n h .standing t) (hends : b0.OnlyEnds b) :
    b.claimHandle m n h c = b.notice m n h .claimed c := by
  have hprox := hN.handle.2.2
  have hx := hends.brings.handle n h
  rw [← hx] at hprox
  rw [Blk.claimHandle, hends.brings.lostHandle, hN.sound, hprox]
  rfl

/-- When the one handle is released, none is left. -/
theorem Blk.NoticeDone.handles_of_released (hdone : b.NoticeDone b' n h (fun _ => {})) (hl : (b.link n).handles = [(h, x)]) :
    (b'.link n).handles = [] ∧ (b'.link n).ctl = (b.link n).ctl := by
  obtain ⟨ns, hlink⟩ := hdone.link
  have hmod : ((b.link n).modHandle h (fun _ => {})).handles = [] := by
    simp [Link.modHandle, hl, tabMod, tabSet, tabDel]
  rw [hlink]
  exact ⟨hmod, rfl⟩

end

/-! ### The loss of a tile (06 R258) -/

section
variable {b : Blk} {n h : Nat} {t : Stt} {m : List Host.Cell} {x : Handle}

/-- A link that goes down: nothing queued is left, and the answers not yet sent are settled. -/
def Link.goesDown (l : Link) : Link := { l.dropCtl with outq := [], st := .down }

/-- A link that is down. -/
def Link.isDown (l : Link) : Link :=
  { l with clkOn := false, ph := .none, ctl := [], reports := [], hasTab := false, e := l.e.fresh }

theorem Blk.noticesHeld_modLink {f : Link → Link} (hf : ∀ l, (f l).notices = l.notices) (h : b.noticesHeld = false) :
    (b.modLink n f).noticesHeld = false := by
  have hall : ∀ x ∈ b.links, x.2.notices = [] := fun x hx => by simpa using List.any_eq_false.1 h x hx
  have hall' : ∀ x ∈ (b.modLink n f).links, x.2.notices = [] :=
    forall_mem_tabMod (P := fun l : Link => l.notices = []) hall rfl (fun l hl => (hf l).trans hl) n
  exact List.any_eq_false.2 fun x hx => by simp [hall' x hx]

/-- The only handle stands: its copies are released before the link is down. -/
theorem Blk.tileLoss_of_single (hup : (b.link n).st = .up) (hl : (b.link n).handles = [(h, x)])
    (hst : (((b.modLink n Link.goesDown).link n).handle h).st = .standing) : b.tileLoss m n =
    ((((b.modLink n Link.goesDown).releaseHandle m n h).modLink n Link.isDown).modTa n Agent.lost).raise 0x0D := by
  change (((b.modLink n (fun l => { l.dropCtl with outq := [], st := .down })).link n).handle h).st = .standing at hst
  simp only [Blk.tileLoss, hup, true_or, if_true, hl, List.map_cons, List.map_nil, List.foldl_cons, List.foldl_nil, hst]
  rfl

/-- A link that goes down keeps a handle to which no answer waits. -/
theorem Link.handles_goesDown {l : Link} (hl : l.handles = [(h, x)]) (hst : x.st ≠ .free) (hans : x.ans = none) :
    l.goesDown.handles = [(h, x)] := by
  have hsettled : x.settled = x := by simp [Handle.settled, hans]
  have hne : x ≠ {} := fun hd => hst (by rw [hd])
  have hmap : tabMap {} (fun _ x => x.settled) [(h, x)] = [(h, x)] := by
    rw [tabMap, hsettled, if_neg hne]
    rfl
  rw [← hmap, ← hl]
  rfl

end

end Sys2Proof.Machine

/-! The settling of O20. -/
namespace Sys2Proof.Machine
open Sys2Proof

/-- Settles O20: each step of a training by its own lemma; a handle that is reconciled, or lost with its tile, by the notice
that stands for it. -/
theorem trainingBringsLinkUp : Obligations.TrainingBringsLinkUp := by
  unfold Obligations.TrainingBringsLinkUp
  intro s n h c rest hrun hh hc b0 a l trains up
  have hn := hrun.link
  have hasked : trains → l.ph = .asked → l.asked = true := fun ht hph => by
    simp [Link.asked, Link.inTraining_of ht, hph]
  have hup : ∀ (b : Blk) sent, (b.link n).ctl = l.ctl ++ sent → up (b.linkUp n) sent := fun b sent hctl => by
    obtain ⟨hlink, hrescan, -⟩ := b.linkUp_leaves n
    refine ⟨?_, ?_, ?_, hrescan⟩
    · rw [hlink]; rfl
    · rw [hlink, ← hctl]; rfl
    · rw [hlink]; rfl
  refine ⟨fun ht hph => ?align, fun ht hph => ?passed, fun hto hq => ?clear, fun act hto ht hph => ?rsync,
    fun hto ht hph => ?rsyncEnd, fun ht htries => ?again, fun ht htries => ?failed, fun hst x t hl hN hact => ?loss⟩
  case align =>
    refine ⟨_, (exec_tileFrameAlign hrun).trans (congrArg s.becomes (Blk.frameAlign_of_idling (Link.inTraining_of ht) hph
      hrun.tile)), ?_, ?_⟩
    · exact congrArg Agent.aligned (b0.ta_modTa_self n (fun a => { a with aligned := true }))
    · exact congrArg Link.ph ((b0.modTa n (fun a => { a with aligned := true })).link_modLink_self n
        (fun l => { l with ph := .aligned }))
  case passed =>
    refine ⟨_, (exec_upstreamFramesPassed hrun).trans (congrArg s.becomes (Blk.framesPassed_of_aligned (Link.inTraining_of ht)
      hph)), ?_⟩
    rw [Blk.ctlRec, Blk.link_modLink_modLink]
    exact ⟨rfl, rfl⟩
  case clear =>
    obtain ⟨b, hends, hexec⟩ := exec_clear hto
    refine ⟨_, hexec, hup _ [] (by rw [Blk.link_modTa, hends.link_eq n, List.append_nil]), fun d => ?_⟩
    rw [((b.modTa n Agent.onClear).linkUp_leaves n).2.2.2, Blk.ta_modTa_self, Agent.ctx_onClear (hends.quiet hq), hends.ctx]
    rfl
  case rsync =>
    obtain ⟨b, hends, hexec, hasked'⟩ := exec_rsync hh hc act hto (hasked ht hph)
    refine ⟨_, hexec, ?_⟩
    rw [Blk.link_modLink_self, if_pos hasked', hends.link_eq n]
    exact ⟨rfl, rfl⟩
  case rsyncEnd =>
    have hends_ctl : ∀ {b : Blk}, b0.OnlyEnds b → (b.link n).ctl = l.ctl := fun h => by rw [h.link_eq n]
    have hends_handles : ∀ {b : Blk}, b0.OnlyEnds b → (b.link n).handles = l.handles := fun h => by rw [h.link_eq n]
    have hends_handle : ∀ {b : Blk} {x}, b0.OnlyEnds b → l.handles = [(h, x)] → (b.link n).handle h = x := fun he hl =>
      Link.handle_of_single ((hends_handles he).trans hl)
    refine ⟨fun x act hl hrep hx => ?stays, fun x t hl hrep hN hact => ?released, fun x t hl hrep hN => ?claimed,
      fun act hl hrep => ?dropped⟩
    case stays =>
      obtain ⟨b, hends, hexec⟩ := exec_rsyncEnd_of_single hto (hasked ht hph) hl hrep (by simp)
      rw [Blk.reconcile_as_reported (by rw [hends_handle hends hl]; exact hx)] at hexec
      refine ⟨_, hexec, hup b [] (by rw [hends_ctl hends, List.append_nil]), ?_, ?_⟩
      · rw [(b.linkUp_leaves n).1]; exact hends_handles hends
      · rw [(b.linkUp_leaves n).2.2.1]; exact hends.brings.sram
    case released =>
      obtain ⟨b, hends, hexec⟩ := exec_rsyncEnd_of_single hto (hasked ht hph) hl hrep (by simp)
      rw [Blk.reconcile_unreported (by rw [hends.brings.handle]; exact hN.handle.1), hN.releaseHandle_eq hends] at hexec
      obtain ⟨hnone, hctl⟩ := (hN.released_done hn hends (c := ((b0.link n).handle h).ctx) s.mem).handles_of_released
        ((hends_handles hends).trans hl)
      have hleaves := hN.released hn hends (c := ((b0.link n).handle h).ctx) s.mem
      refine ⟨_, hexec, hup _ [] (by rw [hctl, hends_ctl hends, List.append_nil]), ?_, ?_⟩
      · rw [(Blk.linkUp_leaves _ n).1]; exact hnone
      · exact hleaves.settles.entry_of_not_due (copiesGone_not_due hact)
    case claimed =>
      obtain ⟨b, hends, hexec⟩ := exec_rsyncEnd_of_single hto (hasked ht hph) hl hrep (by simp)
      rw [Blk.reconcile_claimed (by rw [hends.brings.handle]; exact hN.handle.1), hN.claimHandle_eq hends] at hexec
      obtain ⟨ns, hlink⟩ := (hN.claimed_done hn hends (c := c) s.mem).link
      have hleaves := hN.claimed hn hends (c := c) s.mem
      have hentry := hleaves.settles.entry_of_not_due (by simp [claimEntry])
      have hx : (b0.link n).handle h = x := Link.handle_of_single hl
      have hans : x.ans = none := by rw [← hx]; exact hN.unanswered
      refine ⟨_, hexec, hup _ [] (by rw [hlink, List.append_nil]; exact hends_ctl hends), ?_, ?_, ?_⟩
      · rw [(Blk.linkUp_leaves _ n).1]
        refine hleaves.handle.trans ?_
        rw [hx, Handle.claimedAt, hans]
      · exact congrArg Entry.act hentry
      · exact congrArg Entry.dlv hentry
    case dropped =>
      obtain ⟨b, hends, hexec⟩ := exec_rsyncEnd_of_unknown hto (hasked ht hph) hl hrep
      exact ⟨_, hexec, hup _ [recHC 12 h 0] (by rw [Blk.ctlRec, Blk.link_modLink_self, ← hends_ctl hends])⟩
  case again =>
    refine ⟨_, exec_trainingTimeout hrun, ?_⟩
    rw [Blk.link_trainTimeout (Link.inTraining_of ht) htries]
    exact ⟨rfl, rfl, rfl, rfl, rfl, fun k => l.handle_dropCtl k⟩
  case failed =>
    have hlast := Blk.trainTimeout_of_last (Link.inTraining_of ht) htries.ge
    refine ⟨_, (exec_trainingTimeout hrun).trans (congrArg s.becomes hlast), ?_, ?_, Blk.reports_raise _ _⟩
    all_goals
      rw [Blk.link, Blk.links_raise]
      refine (congrArg _ (Blk.link_modLink_self ..)).trans ?_
      rfl
  case loss =>
    let b1 := b0.modLink n Link.goesDown
    have hx : (b0.link n).handle h = x := Link.handle_of_single hl
    have hlink : b1.link n = l.goesDown := b0.link_modLink_self n Link.goesDown
    have hl1 : (b1.link n).handles = [(h, x)] := by
      rw [hlink]
      refine Link.handles_goesDown hl ?_ ?_
      · rw [← hx, hN.handle.1]; decide
      · rw [← hx]; exact hN.unanswered
    have hN1 : b1.Names n h .standing t := hN.congr ((Link.handle_of_single hl1).trans hx.symm) rfl rfl rfl rfl rfl
      (Blk.noticesHeld_modLink (fun _ => rfl) hN.source.noNotice)
    have hends := Blk.OnlyEnds.refl b1
    have hloss := Blk.tileLoss_of_single (m := s.mem) hst hl hN1.handle.1
    rw [hN1.releaseHandle_eq hends] at hloss
    have hdone := hN1.released_done hn hends (c := ((b1.link n).handle h).ctx) s.mem
    have hleaves := hN1.released hn hends (c := ((b1.link n).handle h).ctx) s.mem
    obtain ⟨hnone, -⟩ := hdone.handles_of_released hl1
    obtain ⟨ns, hdown⟩ := hdone.link
    let b2 := b1.notice s.mem n h .released ((b1.link n).handle h).ctx
    have hlink2 : (b2.modLink n Link.isDown).link n = (b2.link n).isDown := b2.link_modLink_self n Link.isDown
    have hta : b2.ta n = a := by rw [Blk.ta, hdone.tas]; rfl
    have hlane : b2.lane 24 = b0.lane 24 := by rw [Blk.lane, hdone.ing]; rfl
    refine ⟨_, (exec_tileLoss hrun).trans (congrArg s.becomes hloss), ?_, ?_, ?_, ?_, ?_, ?_⟩
    · refine (congrArg Link.st hlink2).trans ?_
      rw [hdown, hlink]
      rfl
    · exact (congrArg Link.handles hlink2).trans hnone
    · exact congrArg Link.clkOn hlink2
    · exact hleaves.settles.entry_of_not_due (copiesGone_not_due hact)
    · intro d
      refine (congrArg (fun a : Agent => a.ctx d) ((b2.modLink n Link.isDown).ta_modTa_self n Agent.lost)).trans ?_
      rw [Blk.ta_modLink, hta]
      exact a.ctx_lost d
    · rw [Blk.reports_raise, ← hlane]
      rfl

end Sys2Proof.Machine

/-! The closing of a run at the slot of a resident source (05 R179; 07 R281, R289, R290, R296). -/
namespace Sys2Proof.Machine
open Sys2Proof

/-! ### What a closing makes of the entry -/

section
variable {b : Blk} {i : Nat} {st : Stt} {e : Entry} {cg : Closing} {n : RankNames}

/-- The entry with one contribution fewer held, under the current generation. -/
def Blk.unheld (b : Blk) (st : Stt) (e : Entry) : Entry := { decHeld e with gen := (b.dom st.domid).gen }

/-- The entry after the contribution of a closed run was released with the names of its EMIT. -/
def Blk.emitted (b : Blk) (st : Stt) (e : Entry) (d : Dispatch) (n : RankNames) : Entry :=
  setRank (setPend (b.unheld st e) b.stampNow) (relOf st d n)

/-- A closing under an earlier generation only counts the contribution off. -/
theorem Blk.close_stale (m : List Host.Cell) (hgen : cg.d.gen ≠ (b.dom st.domid).gen) :
    b.close m i st e cg = (b, b.unheld st e) :=
  if_pos hgen

/-- With no timer operation and no LOG record, a current closing does what its result says. -/
theorem Blk.close_current (m : List Host.Cell) (hgen : cg.d.gen = (b.dom st.domid).gen) (hlogs : cg.acts.logs = [])
    (htimer : cg.acts.timer = none) : b.close m i st e cg = b.result i st (b.unheld st e) cg := by
  simp only [Blk.close, hgen, hlogs, htimer, ne_eq, not_true_eq_false, if_false]
  rfl

/-- EMIT with no copies out withdraws nothing. -/
theorem Blk.emit_unheld (hkind : st.kind ≠ .level) (hdlv : e.dlv = false) (d : Dispatch) :
    b.emit i st (b.unheld st e) d n = (b.probe 4 i st.domid d.dcls, b.emitted st e d n) := by
  have hd : (b.unheld st e).dlv = false := hdlv
  have hrelease : b.release i st (b.unheld st e) (relOf st d n) = (b, b.emitted st e d n) := by
    simp only [Blk.release, hkind, hd, Bool.false_and, Bool.false_eq_true, if_false]
    rfl
  rw [Blk.emit, hrelease]

/-- The result of a run that recorded EMIT, or no result action at all (03 R98). -/
theorem Blk.result_emitted (hkind : st.kind ≠ .level) (hdlv : e.dlv = false)
    (hres : cg.acts.result = some (.emit n) ∨ cg.acts.result = none ∧ n = {}) :
    b.result i st (b.unheld st e) cg = (b.probe 4 i st.domid cg.d.dcls, b.emitted st e cg.d n) := by
  rcases hres with hres | ⟨hres, rfl⟩ <;> rw [Blk.result, hres] <;> exact Blk.emit_unheld hkind hdlv cg.d

theorem Blk.result_suppressed (hres : cg.acts.result = some .suppress) :
    b.result i st e cg = (b.probe 5 i st.domid cg.d.dcls, e) := by
  rw [Blk.result, hres]

/-- The released entry once it is offered: the rank that EMIT names, or the default of the dispatch. -/
theorem Blk.emitted_offered (hdlv : e.dlv = false) (d : Dispatch) : { b.emitted st e d n with dlv := true } =
    { e with
      held := (decHeld e).held, gen := (b.dom st.domid).gen, pend := true, dlv := true,
      stamp := if e.pend then e.stamp else b.now.extractLsb' 6 14, rclass := (relOf st d n).cls, rprio := (relOf st d n).prio,
      dem := (relOf st d n).dem, rtv := n.tgt.isSome, rtgt := n.tgt.getD e.rtgt } := by
  simp [Blk.emitted, Blk.unheld, decHeld, setRank, setPend, hdlv, Blk.stampNow, relOf]

end

/-! ### A closing performed -/

section
variable {b b' : Blk} {i : Nat} {st : Stt} {cg : Closing} {f : Entry} {m : List Host.Cell}

/-- The closing of a resident source takes its turn at input 5 of its bank. -/
theorem Blk.Resident.closingPerform_eq (h : b.Resident i st) (hi : cg.d.stt = i) (hm : st.mapgen = cg.d.mapgen)
    (hturn : setHas b.arb.turn5 (st.slot % 16) = true ∨ b.rank.reoffers = [])
    (hclose : (b.granted (st.slot % 16) 5).close m i st (b.entry st) cg = (b', f)) (hsram : b'.sram = b.sram)
    (hgen : f.gen = (b.dom st.domid).gen) :
    b.closingPerform m cg = ((b'.settled i st f).took5 (st.slot % 16) false, true) := by
  subst hi
  have hdom : b'.dom st.domid = b.dom st.domid := by rw [Blk.dom, Blk.dom, hsram]
  have hstamped : b'.stamped { stt := cg.d.stt, mapgen := cg.d.mapgen, kind := .closing cg } st (b.entry st) f = f := by
    rw [Blk.stamped, hdom, ← hgen]
    split <;> rfl
  have hupd : b.update m { stt := cg.d.stt, mapgen := cg.d.mapgen, kind := .closing cg } 5 =
      some (b'.settled cg.d.stt st f) := by
    rw [h.update_eq rfl hm.symm, Blk.updBody]
    dsimp only
    rw [hclose, Option.map_some, hstamped]
  have hyields : b.yields5 m (st.slot % 16) false = false := by
    rcases hturn with hturn | hturn <;> simp [Blk.yields5, hturn]
  simp [Blk.closingPerform, h.not_spilled, Blk.update5, Blk.resident, h.stt, h.valid, hm, h.res, hyields, hupd]

end

section
variable {s : State} {c k : Nat} {cg : Closing} {again : Bool} {st : Stt} {f : Entry} {b' : Blk}

/-- The closing of an engine's run: the entry is settled, and the engine is free. -/
theorem exec_closing_settles (ha : s.blk.awake = true) (hk : k < 16)
    (heng : (tabGet {} (s.blk.cl c).engines k).st = .closing cg again) (h : s.blk.Resident cg.d.stt st)
    (hm : st.mapgen = cg.d.mapgen) (hturn : setHas s.blk.arb.turn5 (st.slot % 16) = true ∨ s.blk.rank.reoffers = [])
    (hclose : (s.blk.granted (st.slot % 16) 5).close s.mem cg.d.stt st (s.blk.entry st) cg = (b', f))
    (hsram : b'.sram = s.blk.sram) (hoffers : b'.rank.offers = s.blk.rank.offers) (hgen : f.gen = (s.blk.dom st.domid).gen) :
    ∃ b, exec (.closing c k) s = s.becomes b ∧ s.blk.SettlesAt b cg.d.stt st f ∧
      (tabGet {} (b.cl c).engines k).st = .idle := by
  have hexec : s.blk.closing s.mem c k =
      ((b'.settled cg.d.stt st f).took5 (st.slot % 16) false).setEngine c k (fun _ => {}) := by
    simp only [Blk.closing, ha, hk, heng, h.closingPerform_eq rfl hm hturn hclose hsram hgen, Bool.not_true,
      Bool.false_eq_true, if_false, if_true]
  have hdom : b'.dom st.domid = s.blk.dom st.domid := by rw [Blk.dom, Blk.dom, hsram]
  have hsettles : s.blk.SettlesAt (b'.settled cg.d.stt st f) cg.d.stt st f :=
    Blk.settlesAt_settled h.valid (by rw [hdom]; exact h.acts) hoffers _ _
  refine ⟨_, congrArg s.becomes hexec, hsettles, ?_⟩
  simp [Blk.setEngine, Cluster.setEngine]

end

/-- Settles O25: a closing by its generation and its result, which leave the entry due an offer when they release. -/
theorem closingAppliesResult : Obligations.ClosingAppliesResult := by
  unfold Obligations.ClosingAppliesResult
  intro s c k cg again st ha hk heng hat hm hlogs htimer hact hdlv hturn e g held closes dem emits
  let b1 := s.blk.granted (st.slot % 16) 5
  have hclosed : ∀ {b' f}, b1.close s.mem cg.d.stt st e cg = (b', f) → b'.sram = s.blk.sram →
      b'.rank.offers = s.blk.rank.offers → f.gen = g → ∃ b, exec (.closing c k) s = s.becomes b ∧
        s.blk.SettlesAt b cg.d.stt st f ∧ (tabGet {} (b.cl c).engines k).st = .idle :=
    exec_closing_settles ha hk heng hat.resident hm hturn
  have hresult := fun hgen => Blk.close_current (b := b1) (i := cg.d.stt) (st := st) (e := e) s.mem hgen hlogs htimer
  have hkept : ∀ {b'}, e.pend = false → b1.close s.mem cg.d.stt st e cg = (b', s.blk.unheld st e) → b'.sram = s.blk.sram →
      b'.rank.offers = s.blk.rank.offers → closes { e with held := held, gen := g } s.blk.rank.offers := by
    intro b' hpend hclose hsram hoffers
    obtain ⟨b, hexec, hsettles, hidle⟩ := hclosed hclose hsram hoffers rfl
    have hpend' : (s.blk.unheld st e).pend = false := hpend
    rw [Blk.SettlesAt, if_neg (by simp [hpend'])] at hsettles
    exact ⟨b, hexec, hsettles.1, hsettles.2, hidle⟩
  have hemits : ∀ n, cg.d.gen = g → st.kind ≠ .level →
      (cg.acts.result = some (.emit n) ∨ cg.acts.result = none ∧ n = {}) → emits n := by
    intro n hgen hkind hres
    have hclose := (hresult hgen).trans (Blk.result_emitted hkind hdlv hres)
    rw [Blk.probe_eq] at hclose
    obtain ⟨b, hexec, hsettles, hidle⟩ := hclosed hclose rfl rfl rfl
    rw [Blk.SettlesAt, if_pos ⟨rfl, hact, hdlv⟩] at hsettles
    rw [Blk.emitted_offered hdlv] at hsettles
    exact ⟨b, hexec, hsettles.1, hsettles.2, hidle⟩
  refine ⟨fun hgen hpend => ?stale, fun hgen hres hpend => ?suppress, fun n hgen hkind hres => ?emit,
    fun hgen hkind hres => ?default⟩
  case stale => exact hkept hpend (Blk.close_stale (b := b1) s.mem hgen) rfl rfl
  case suppress =>
    have hclose := (hresult hgen).trans (Blk.result_suppressed hres)
    rw [Blk.probe_eq] at hclose
    exact hkept hpend hclose rfl rfl
  case emit => exact hemits n hgen hkind (.inl hres)
  case default => exact hemits {} hgen hkind (.inr ⟨hres, rfl⟩)

end Sys2Proof.Machine

/-! SET_ROUTE outside a session: the entry, the group and the attach form (05 R194 to R200; 10 R378). -/
namespace Sys2Proof.Machine
open Sys2Proof

@[simp] theorem Blk.rank_withAnswer (c : Blk) (k : Nat) (data : BitVec 512) : (c.withAnswer k data).rank = c.rank := rfl
@[simp] theorem Blk.cls_withAnswer (c : Blk) (k : Nat) (data : BitVec 512) : (c.withAnswer k data).cls = c.cls := rfl

/-! ### The flip of EPOCH -/

section
variable {b : Blk} {f : RtCopy → RtCopy} {routes groups : NSet}

theorem Blk.rescan_isSome (b : Blk) : b.rescan.rank.rescan.isSome = true := rfl

/-- With nothing left to copy, the copy that was written as the shadow becomes live. -/
theorem Blk.liveRt_writeShadow (hr : b.rank.dirtyR = []) (hg : b.rank.dirtyG = []) :
    (b.writeShadow false f routes groups).liveRt = f b.shadRt := by
  cases he : b.rank.epoch <;>
    simp [Blk.writeShadow, Blk.flip, Blk.resyncAll, Blk.rescan, Blk.setShad, Blk.shadRt, Blk.liveRt, he, hr, hg]

/-- EPOCH turns, resynchronisation and a parked rescan begin. -/
structure Blk.Turned (b0 b : Blk) : Prop where
  epoch : b.rank.epoch = !b0.rank.epoch
  resync : b.rank.resync = true
  rescan : b.rank.rescan.isSome = true

theorem Blk.turned_writeShadow (h : (routes.isEmpty && groups.isEmpty) = false) :
    b.Turned (b.writeShadow false f routes groups) := by
  refine ⟨?_, ?_, rfl⟩ <;> cases he : b.rank.epoch <;>
    simp [Blk.writeShadow, Blk.flip, Blk.resyncAll, Blk.rescan, Blk.setShad, he, h]

/-- A descriptor that wrote the shadow is answered on a block whose live copy is the one written. -/
theorem Blk.writeShadow_answered {b1 : Blk} (hrank : b1.rank = b.rank) (hr : b.rank.dirtyR = []) (hg : b.rank.dirtyG = [])
    (hne : (routes.isEmpty && groups.isEmpty) = false) (k : Nat) (data : BitVec 512) :
    b.Turned ((b1.writeShadow false f routes groups).withAnswer k data) ∧
    ((b1.writeShadow false f routes groups).withAnswer k data).liveRt = f b.shadRt := by
  have hshad : b1.shadRt = b.shadRt := by rw [Blk.shadRt, Blk.shadRt, hrank]
  obtain ⟨hepoch, hresync, hrescan⟩ := b1.turned_writeShadow (f := f) hne
  have hlive : (b1.writeShadow false f routes groups).liveRt = f b1.shadRt :=
    Blk.liveRt_writeShadow (by rw [hrank, hr]) (by rw [hrank, hg])
  rw [hshad] at hlive
  rw [hrank] at hepoch
  exact ⟨⟨hepoch, hresync, hrescan⟩, hlive⟩

theorem Blk.leavesPorts_writeShadow : b.LeavesPorts (b.writeShadow false f routes groups) := ⟨rfl, rfl, rfl, rfl⟩

end

/-! ### Lines read once -/

section
variable {b : Blk} {m : List Host.Cell}

/-- The block after `n` read-once accesses that succeeded. -/
def Blk.missed (b : Blk) (n : Nat) : Blk := { b with lc := LCache.miss^[n] b.lc }

theorem LCache.miss_iterate_eq (n : Nat) (c : LCache) : ∃ v, LCache.miss^[n] c = { c with missCnt := v } := by
  induction n generalizing c with
  | zero => exact ⟨c.missCnt, rfl⟩
  | succ n ih =>
    obtain ⟨v, hv⟩ := ih c.miss
    exact ⟨v, hv⟩

theorem Blk.missed_eq (b : Blk) (n : Nat) : ∃ v, b.missed n = { b with lc := { b.lc with missCnt := v } } := by
  obtain ⟨v, hv⟩ := LCache.miss_iterate_eq n b.lc
  exact ⟨v, by rw [Blk.missed, hv]⟩

theorem Blk.missed_missed (b : Blk) (j n : Nat) : (b.missed j).missed n = b.missed (n + j) := by
  rw [Blk.missed, Blk.missed, Blk.missed, Function.iterate_add_apply]

theorem Blk.hostLine_missed (b : Blk) (n line : Nat) : (b.missed n).hostLine m line = b.hostLine m line := by
  obtain ⟨v, hv⟩ := b.missed_eq n
  rw [hv]
  rfl

theorem Blk.bufs_missed (b : Blk) (n : Nat) : (b.missed n).lc.bufs = b.lc.bufs := by
  obtain ⟨v, hv⟩ := b.missed_eq n
  rw [hv]

theorem Blk.leavesPorts_missed (b : Blk) (n : Nat) : b.LeavesPorts (b.missed n) := by
  obtain ⟨v, hv⟩ := b.missed_eq n
  rw [hv]
  exact ⟨rfl, rfl, rfl, rfl⟩

theorem Blk.Writes.missed (h : b.Writes) (n : Nat) : (b.missed n).Writes := by
  obtain ⟨v, hv⟩ := b.missed_eq n
  rw [hv]
  exact ⟨h.noInject, h.noCache, h.noHeld, h.noBufs, h.noWrites, h.noRecs, h.noFail⟩

theorem Blk.Writes.readOnce (h : b.Writes) (m : List Host.Cell) (line : Nat) :
    b.readOnce m line = (b.missed 1, some (b.hostLine m line)) := by
  have hfails : (b.missed 1).readFails line = false := by
    have hinj : (b.missed 1).injHit 10 0 = false := Blk.injHit_of_noArm h.noInject 10 0
    have hfail : (b.missed 1).fp.fail = [] := h.noFail
    simp [Blk.readFails, hinj, hfail]
  show (if (b.missed 1).readFails line then _ else _) = _
  rw [hfails]
  rfl

/-- Lines that are read without a failure are those of host memory. -/
theorem Blk.Writes.readLines (h : b.Writes) (m : List Host.Cell) (n line : Nat) :
    b.readLines m line n = (b.missed n, (List.range n).map (fun j => b.hostLine m (line + j)), true) := by
  induction n generalizing b line with
  | zero => rfl
  | succ n ih =>
    have hrest := ih (h.missed 1) (line + 1)
    simp only [Blk.hostLine_missed, Blk.missed_missed] at hrest
    simp only [Blk.readLines, h.readOnce, hrest, List.range_succ_eq_map, List.map_cons, List.map_map, Nat.add_zero]
    refine congrArg (fun l => (b.missed (n + 1), b.hostLine m line :: l, true)) (List.map_congr_left fun j _ => ?_)
    simp [Nat.add_assoc, Nat.add_comm 1]

/-- A member mask is read in two lines. -/
theorem Blk.Writes.readMask (h : b.Writes) (m : List Host.Cell) (line : Nat) : b.readMask m line =
    (b.missed 2, some (lineBytes (b.hostLine m line) 0 16 ++ lineBytes (b.hostLine m (line + 1)) 0 16)) := by
  simp only [Blk.readMask, h.readOnce, (h.missed 1).readOnce, Blk.hostLine_missed, Blk.missed_missed]

end

theorem Blk.LeavesPorts.trans {b c e : Blk} (h : b.LeavesPorts c) (h' : c.LeavesPorts e) : b.LeavesPorts e :=
  ⟨h'.rings.trans h.rings, h'.inj.trans h.inj, h'.fp.trans h.fp, h'.cache.trans h.cache⟩

/-! ### The commands -/

section
variable {b : Blk} {m : List Host.Cell} {d : Desc} {dom : Nat} {ms : List Nat}

theorem Blk.liveRouteUser_of_notLive (hlive : b.classesLive = false) (p : Nat → Route → Bool) :
    b.liveRouteUser p = false := by
  have hnone : b.adm = [] := by simpa [Blk.classesLive] using hlive
  simp [Blk.liveRouteUser, hnone]

/-- The members are contexts of the domain, and those of domain 0 are populated. -/
def Blk.Fits (b : Blk) (dom : Nat) (ms : List Nat) : Prop := ∀ v ∈ ms, v < b.nctxOf dom ∧ (dom = 0 → b.ctxPop v = true)

theorem Blk.Fits.inside (h : b.Fits dom ms) : b.outside dom ms = false := by
  simp only [Blk.outside, List.any_eq_false, decide_eq_true_eq, not_le]
  exact fun v hv => (h v hv).1

theorem Blk.Fits.populated (h : b.Fits dom ms) : b.unpopulated dom ms = false := by
  by_cases hd : dom = 0
  · simp only [Blk.unpopulated, hd, decide_true, Bool.true_and, List.any_eq_false, Bool.not_eq_true']
    exact fun v hv => by simp [(h v hv).2 hd]
  · simp [Blk.unpopulated, hd]

/-- The route that the entry form writes. -/
def Desc.route (d : Desc) : Route :=
  { valid := d.b 2 16, domid := d.f 3 11 0, kind := BitVec.ofNat 2 (d.f 3 13 12), gch := d.f 3 19 16, target := d.f 4 9 0,
    group := d.f 4 26 16 }

/-- The entry form of the descriptor on a copy of the tables. -/
def Desc.writeRoute (d : Desc) (c : RtCopy) : RtCopy := { c with routes := tabSet {} c.routes (d.f 2 12 0) d.route }

/-- The group form, with the members of its mask. -/
def Desc.writeGroup (d : Desc) (ms : List Nat) (c : RtCopy) : RtCopy :=
  { c with groups := tabSet {} c.groups (d.f 2 10 0) { domid := d.f 3 11 0, members := ms } }

theorem Desc.route_writeRoute (d : Desc) (c : RtCopy) (j : Nat) :
    (d.writeRoute c).route j = if j = d.f 2 12 0 then d.route else c.route j := tabGet_tabSet ..

theorem Desc.group_writeGroup (d : Desc) (c : RtCopy) :
    (d.writeGroup ms c).group (d.f 2 10 0) = { domid := d.f 3 11 0, members := ms } := tabGet_tabSet_self ..

section
variable (hs : b.rings.session = none)
include hs

theorem cmdSetRoute_of_steady (hform : d.f 1 1 0 ≠ 2) (hresync : b.rank.resync = false) (hold : b.oldCnt = 0) :
    cmdSetRoute m d b = if d.f 1 1 0 = 0 then cmdRouteEntry m d b else cmdRouteGroup m d b := by
  simp [cmdSetRoute, Blk.mode_of_noSession hs, hform, hresync, hold]

theorem cmdSetRoute_attach (hform : d.f 1 1 0 = 2) : cmdSetRoute m d b = cmdRouteAttach m d b := by
  simp [cmdSetRoute, Blk.mode_of_noSession hs, hform]

theorem cmdRouteEntry_written (hlive : b.classesLive = false)
    (hfixed : d.route.valid = true → d.route.kind = 0 → b.Fits d.route.domid [d.route.target])
    (hgroup : d.route.valid = true → d.route.kind ≠ 0 → (b.shadRt.group d.route.group).domid = d.route.domid) :
    cmdRouteEntry m d b =
      (b.writeShadow false d.writeRoute [d.f 2 12 0] [], .ok) := by
  have hcases : firstCase [d.route.valid && decide (d.route.kind = 0) && b.outside d.route.domid [d.route.target],
      d.route.valid && decide (d.route.kind = 0) && b.unpopulated d.route.domid [d.route.target],
      d.route.valid && !decide (d.route.kind = 0) && decide ((b.shadRt.group d.route.group).domid ≠ d.route.domid),
      !false && b.liveRouteUser (fun n _ => n == d.f 2 12 0)] = none := by
    rw [firstCase_eq_none]
    cases hv : d.route.valid
    case false => simp [Blk.liveRouteUser_of_notLive hlive]
    case true =>
      by_cases hk : d.route.kind = 0
      · simp [hk, (hfixed hv hk).inside, (hfixed hv hk).populated, Blk.liveRouteUser_of_notLive hlive]
      · have hnot : decide (d.route.kind = 0) = false := decide_eq_false hk
        simp only [hnot, hgroup hv hk, Blk.liveRouteUser_of_notLive hlive]
        simp
  have hstaged : decide (b.mode d.ring = .stage) = false := by simp [Blk.mode_of_noSession hs]
  simp only [cmdRouteEntry, hstaged]
  split
  case h_1 n hsome => exact absurd (hsome.symm.trans hcases) (by simp)
  case h_2 => rfl

theorem cmdRouteGroup_written (hlive : b.classesLive = false) (hw : b.Writes) {l : List Byte}
    (hmask : l = lineBytes (b.hostLine m (d.lineAt 4)) 0 16 ++ lineBytes (b.hostLine m (d.lineAt 4 + 1)) 0 16)
    (hcheck : seededCrc (d.f 2 10 0 + 5 * 2 ^ 24) (bits (64 * d.lineAt 4) 36 5) l = lineWord d.line 6)
    (hfits : b.Fits (d.f 3 11 0) (maskMembers l)) :
    cmdRouteGroup m d b = ((b.missed 2).writeShadow false (d.writeGroup (maskMembers l)) [] [d.f 2 10 0], .ok) := by
  have hread : b.readMask m (d.lineAt 4) = (b.missed 2, some l) := by rw [hw.readMask, hmask]
  have hcases : firstCase [(b.missed 2).outside (d.f 3 11 0) (maskMembers l),
      (b.missed 2).unpopulated (d.f 3 11 0) (maskMembers l),
      !false && (b.missed 2).liveRouteUser (fun _ r => r.kind ≠ 0 && r.group == d.f 2 10 0)] = none := by
    rw [firstCase_eq_none, show (b.missed 2).outside _ _ = _ from hfits.inside,
      show (b.missed 2).unpopulated _ _ = _ from hfits.populated, show (b.missed 2).liveRouteUser _ = _ from
        Blk.liveRouteUser_of_notLive hlive _]
    simp
  have hstaged : decide (b.mode d.ring = .stage) = false := by simp [Blk.mode_of_noSession hs]
  simp only [cmdRouteGroup, hread, hcheck, hstaged, ne_eq, not_true_eq_false, if_false]
  rw [show firstCase _ = none from hcases]
  rfl

/-- The attach form of SET_ROUTE writes the route of its source; one that is parked with it makes the parked rescan start. -/
theorem cmdRouteAttach_attached (hlive : b.classesLive = false) {t : Stt} (ht : b.stt (d.f 2 18 0) = t)
    (hv : t.valid = true) (hkind : t.kind ≠ .core) (hcls : t.rank.cls < 2#2)
    (hdom : d.b 2 20 = true → (b.liveRt.route (d.f 3 12 0)).domid = t.domid) : ∃ rank,
    cmdRouteAttach m d b = ({ b.modStt (d.f 2 18 0) (fun s => { s with route := { rv := d.b 2 20, ridx := d.f 3 12 0 } })
      with rank := rank }, .ok) := by
  have hcases : firstCase [decide (t.kind = .core), d.b 2 20 && decide ((b.liveRt.route (d.f 3 12 0)).domid ≠ t.domid)] =
      none := by
    rw [firstCase_eq_none]
    cases hrv : d.b 2 20 <;> simp [hkind]
    exact hdom hrv
  have hnot : ¬ 2#2 ≤ t.rank.cls := BitVec.not_le.2 hcls
  simp only [cmdRouteAttach, Blk.mode_of_noSession hs, Blk.staging_of_noSession hs, Blk.apply_of_noSession hs, ht, hv, hcases,
    hnot, hlive]
  cases d.b 2 20 && setHas b.rank.parked (d.f 2 18 0)
  · exact ⟨b.rank, rfl⟩
  · exact ⟨b.rescan.rank, rfl⟩

end
end

/-! ### The descriptors -/

section
variable {s : State} {k : Nat} {d : Desc} (h : s.blk.Takes s.mem k 0x03 d) (hs : s.blk.rings.session = none)
  (hlive : s.blk.classesLive = false)
include h hs hlive

theorem exec_setRoute_entry (hform : d.f 1 1 0 = 0) (hresync : s.blk.rank.resync = false) (hold : s.blk.oldCnt = 0)
    (hr : s.blk.rank.dirtyR = []) (hg : s.blk.rank.dirtyG = [])
    (hfixed : d.route.valid = true → d.route.kind = 0 → s.blk.Fits d.route.domid [d.route.target])
    (hgroup : d.route.valid = true → d.route.kind ≠ 0 → (s.blk.shadRt.group d.route.group).domid = d.route.domid) :
    ∃ b, (exec (.setRoute (.mgr k)) s = s.becomes b ∧ s.blk.Answers b d 0 0 []) ∧ s.blk.Turned b ∧
      b.liveRt = d.writeRoute s.blk.shadRt := by
  have hcmd := (cmdSetRoute_of_steady (m := s.mem) (b := s.blk.fetched k) hs (by simp [hform]) hresync hold).trans
    ((if_pos hform).trans (cmdRouteEntry_written (b := s.blk.fetched k) hs hlive hfixed hgroup))
  obtain ⟨data, hdata⟩ := exec_descriptor_answered h rfl (x := .setRoute (.mgr k)) rfl hcmd
    Blk.leavesPorts_writeShadow h.noBufs
  have hturned := Blk.writeShadow_answered (b := s.blk) (b1 := s.blk.fetched k) (f := d.writeRoute) (routes := [d.f 2 12 0])
    (groups := []) rfl hr hg rfl k data
  exact ⟨_, hdata, hturned⟩

theorem exec_setRoute_group (hform : d.f 1 1 0 = 1) (hresync : s.blk.rank.resync = false) (hold : s.blk.oldCnt = 0)
    (hr : s.blk.rank.dirtyR = []) (hg : s.blk.rank.dirtyG = []) {l : List Byte}
    (hmask : l = lineBytes (s.blk.hostLine s.mem (d.lineAt 4)) 0 16 ++ lineBytes (s.blk.hostLine s.mem (d.lineAt 4 + 1)) 0 16)
    (hcheck : seededCrc (d.f 2 10 0 + 5 * 2 ^ 24) (bits (64 * d.lineAt 4) 36 5) l = lineWord d.line 6)
    (hfits : s.blk.Fits (d.f 3 11 0) (maskMembers l)) :
    ∃ b, (exec (.setRoute (.mgr k)) s = s.becomes b ∧ s.blk.Answers b d 0 0 []) ∧ s.blk.Turned b ∧
      b.liveRt = d.writeGroup (maskMembers l) s.blk.shadRt := by
  have hcmd := (cmdSetRoute_of_steady (m := s.mem) (b := s.blk.fetched k) hs (by simp [hform]) hresync hold).trans
    ((if_neg (by simp [hform])).trans
      (cmdRouteGroup_written (b := s.blk.fetched k) hs hlive h.toWrites.fetched hmask hcheck hfits))
  have hports := ((s.blk.fetched k).leavesPorts_missed 2).trans
    (Blk.leavesPorts_writeShadow (f := d.writeGroup (maskMembers l)) (routes := []) (groups := [d.f 2 10 0]))
  obtain ⟨data, hdata⟩ := exec_descriptor_answered h rfl (x := .setRoute (.mgr k)) rfl hcmd hports h.noBufs
  have hturned := Blk.writeShadow_answered (b := s.blk) (b1 := (s.blk.fetched k).missed 2) (f := d.writeGroup (maskMembers l))
    (routes := []) (groups := [d.f 2 10 0]) rfl hr hg rfl k data
  exact ⟨_, hdata, hturned⟩

theorem exec_setRoute_attach (hform : d.f 1 1 0 = 2) {t : Stt} (ht : s.blk.stt (d.f 2 18 0) = t) (hv : t.valid = true)
    (hkind : t.kind ≠ .core) (hcls : t.rank.cls < 2#2)
    (hdom : d.b 2 20 = true → (s.blk.liveRoute (d.f 3 12 0)).domid = t.domid) :
    ∃ b, (exec (.setRoute (.mgr k)) s = s.becomes b ∧ s.blk.Answers b d 0 0 []) ∧
      b.stt (d.f 2 18 0) = { t with route := { rv := d.b 2 20, ridx := d.f 3 12 0 } } := by
  obtain ⟨rank, hattach⟩ := cmdRouteAttach_attached (m := s.mem) (b := s.blk.fetched k) hs hlive ht hv hkind hcls hdom
  have hcmd := (cmdSetRoute_attach (m := s.mem) (b := s.blk.fetched k) hs hform).trans hattach
  obtain ⟨data, hdata⟩ := exec_descriptor_answered h rfl (x := .setRoute (.mgr k)) rfl hcmd ⟨rfl, rfl, rfl, rfl⟩ h.noBufs
  exact ⟨_, hdata, (Blk.stt_modStt_self (b := s.blk.fetched k) (by rw [Blk.stt_fetched, ht, hv]) _).trans
    (by rw [Blk.stt_fetched, ht])⟩

end

end Sys2Proof.Machine

/-! ATTACH_CLAUSE and LOAD_CLAUSE outside a session (07 R263, R266, R267; 08 R333 to R339). -/
namespace Sys2Proof.Machine
open Sys2Proof

/-! ### Words written one after the other -/

section
variable {σ α β : Type} {get : σ → Nat → β} {put : σ → Nat → β → σ} {addr : α → Nat} {val : α → β}

theorem get_foldl_put_ne (hput : ∀ c a v n, get (put c a v) n = if n = a then v else get c n) {l : List α} {n : Nat}
    (hn : ∀ x ∈ l, addr x ≠ n) (c : σ) : get (l.foldl (fun c x => put c (addr x) (val x)) c) n = get c n := by
  induction l generalizing c with
  | nil => rfl
  | cons x l ih =>
    rw [List.foldl_cons, ih fun y hy => hn y (List.mem_cons_of_mem x hy), hput, if_neg (hn x List.mem_cons_self).symm]

/-- A word reads as written when every write to its place writes the same. -/
theorem get_foldl_put_of_mem (hput : ∀ c a v n, get (put c a v) n = if n = a then v else get c n) {l : List α} {n : Nat}
    {v : β} (hex : ∃ x ∈ l, addr x = n) (hval : ∀ x ∈ l, addr x = n → val x = v) (c : σ) :
    get (l.foldl (fun c x => put c (addr x) (val x)) c) n = v := by
  induction l generalizing c with
  | nil => simp at hex
  | cons x l ih =>
    rw [List.foldl_cons]
    by_cases hlater : ∃ y ∈ l, addr y = n
    · exact ih hlater (fun y hy => hval y (List.mem_cons_of_mem x hy)) _
    · have hx : addr x = n := by
        obtain ⟨y, hy, hyn⟩ := hex
        rcases List.mem_cons.1 hy with rfl | hy
        · exact hyn
        · exact absurd ⟨y, hy, hyn⟩ hlater
      rw [get_foldl_put_ne hput fun y hy hyn => hlater ⟨y, hy, hyn⟩, hput, if_pos hx.symm]
      exact hval x List.mem_cons_self hx

/-- The words of a list stand one after the other from `base` on. -/
theorem get_foldl_zipIdx (hput : ∀ c a v n, get (put c a v) n = if n = a then v else get c n) {l : List β} {j base : Nat}
    (hj : j < l.length) (c : σ) : get (l.zipIdx.foldl (fun c x => put c (base + x.2) x.1) c) (base + j) = l[j] := by
  refine get_foldl_put_of_mem (addr := fun x : β × Nat => base + x.2) (val := Prod.fst) hput
    ⟨(l[j], j), List.mem_zipIdx_iff_getElem?.2 (List.getElem?_eq_getElem hj), rfl⟩ (fun x hx hxj => ?_) c
  have hidx : x.2 = j := Nat.add_left_cancel hxj
  have hx' := List.mem_zipIdx_iff_getElem?.1 hx
  rw [hidx, List.getElem?_eq_getElem hj] at hx'
  exact (Option.some.inj hx').symm

end

/-- Word `n` of a cluster's program SRAM, and of its data SRAM. -/
def Cluster.progWord (c : Cluster) (n : Nat) : Word24 := tabGet 0 c.prog n
def Cluster.dataWord (c : Cluster) (n : Nat) : Word24 := tabGet 0 c.data n

/-- A word of the program SRAM written. -/
def Cluster.progPut (c : Cluster) (a : Nat) (v : Word24) : Cluster :=
  { c with prog := tabSet 0 c.prog a v, progBad := setDel c.progBad a }

theorem Cluster.progWord_progPut (c : Cluster) (a : Nat) (v : Word24) (n : Nat) :
    (c.progPut a v).progWord n = if n = a then v else c.progWord n := tabGet_tabSet ..

theorem Cluster.dataWord_dataPut (c : Cluster) (a : Nat) (v : Word24) (n : Nat) :
    (c.dataPut a v).dataWord n = if n = a then v else c.dataWord n := tabGet_tabSet ..

/-- Writes of data words change nothing else of the cluster. -/
theorem Cluster.foldl_dataPut_eq {α : Type} (addr : α → Nat) (val : α → Word24) (l : List α) (c : Cluster) : ∃ data bad,
    l.foldl (fun c x => c.dataPut (addr x) (val x)) c = { c with data := data, dataBad := bad } := by
  induction l generalizing c with
  | nil => exact ⟨_, _, rfl⟩
  | cons x l ih => exact ih _

/-! ### ATTACH_CLAUSE (07 R263, R266, R267) -/

section
variable {b : Blk} {m : List Host.Cell} {d : Desc}

/-- The window of an attachment reads as zero, the other words as before. -/
theorem Blk.dataWord_zeroWindow (b : Blk) (c : Nat) (a : Attach) :
    (∀ j < a.hlen, ((b.zeroWindow c a).cl c).dataWord (a.hbase + j) = 0) ∧
    (∀ j, j < a.hbase ∨ a.hbase + a.hlen ≤ j → ((b.zeroWindow c a).cl c).dataWord j = (b.cl c).dataWord j) := by
  rw [Blk.zeroWindow, Blk.cl_modCl_self]
  refine ⟨fun j hj => ?_, fun j hj => ?_⟩
  · exact get_foldl_put_of_mem (addr := fun k => a.hbase + k) (val := fun _ => 0) Cluster.dataWord_dataPut
      ⟨j, List.mem_range.2 hj, rfl⟩ (fun _ _ _ => rfl) _
  · refine get_foldl_put_ne (addr := fun k => a.hbase + k) (val := fun _ => 0) Cluster.dataWord_dataPut (fun k hk => ?_) _
    have := List.mem_range.1 hk
    omega

/-- The block with the source `i` attached through entry `a` of its cluster. -/
def Blk.attached (b : Blk) (i : Nat) (r : ClauseAtt) (a : Attach) : Blk :=
  ((b.modStt i (fun s => { s with clause := r })).setAttach r.clus r.aidx a).zeroWindow r.clus a

theorem Blk.stt_attached {i : Nat} (hv : (b.stt i).valid = true) (r : ClauseAtt) (a : Attach) :
    (b.attached i r a).stt i = { b.stt i with clause := r } := by
  have hstt : (b.attached i r a).stt i = (b.modStt i (fun s => { s with clause := r })).stt i := by
    unfold Blk.attached Blk.setAttach
    split <;> rfl
  rw [hstt, Blk.stt_modStt_self hv]

theorem Blk.cl_setAttach (b : Blk) (c n : Nat) (a : Attach) :
    (b.setAttach c n a).cl c = { b.cl c with att := tabSet {} (b.cl c).att n a } := by
  have hcls : (b.setAttach c n a).cls = (b.modCl c (fun x => { x with att := tabSet {} x.att n a })).cls := by
    unfold Blk.setAttach
    split <;> rfl
  rw [Blk.cl, hcls]
  exact Blk.cl_modCl_self ..

theorem Blk.att_zeroWindow (b : Blk) (c : Nat) (a : Attach) : ((b.zeroWindow c a).cl c).att = (b.cl c).att := by
  rw [Blk.zeroWindow, Blk.cl_modCl_self]
  obtain ⟨data, bad, h⟩ := Cluster.foldl_dataPut_eq (fun k => a.hbase + k) (fun _ => 0) (List.range a.hlen) (b.cl c)
  rw [h]

theorem Blk.att_attached (b : Blk) (i : Nat) (r : ClauseAtt) (a : Attach) :
    tabGet {} ((b.attached i r a).cl r.clus).att r.aidx = a := by
  rw [Blk.attached, Blk.att_zeroWindow, Blk.cl_setAttach]
  exact tabGet_tabSet_self ..

theorem Blk.dataWord_attached (b : Blk) (i : Nat) (r : ClauseAtt) (a : Attach) :
    (∀ j < a.hlen, ((b.attached i r a).cl r.clus).dataWord (a.hbase + j) = 0) ∧
    (∀ j, j < a.hbase ∨ a.hbase + a.hlen ≤ j → ((b.attached i r a).cl r.clus).dataWord j = (b.cl r.clus).dataWord j) := by
  refine (Blk.dataWord_zeroWindow _ r.clus a).imp_right fun hrest j hj => (hrest j hj).trans ?_
  rw [Blk.cl_setAttach]
  rfl

theorem Blk.leavesPorts_attached (b : Blk) (i : Nat) (r : ClauseAtt) (a : Attach) :
    b.LeavesPorts (b.attached i r a) ∧ (b.attached i r a).lc = b.lc := by
  unfold Blk.attached Blk.setAttach
  split <;> exact ⟨⟨rfl, rfl, rfl, rfl⟩, rfl⟩

/-- A source that keeps a program: a message or an edge-mode line. -/
theorem SrcKind.noProgram_eq_false {k : SrcKind} (h : k = .msi ∨ k = .data ∨ k = .edge) : k.noProgram = false := by
  rcases h with rfl | rfl | rfl <;> rfl

/-- The attachment that a source names keeps the limits of R267: its budget, its windows, and a program inside its region. -/
structure Attach.Sound (a : Attach) (g : Region) : Prop where
  budget : a.budget ≠ 0
  history : a.hbase + a.hlen ≤ 4096
  table : a.tbase + a.tlen ≤ 4096
  valid : g.valid = true
  first : g.pbase ≤ a.paddr.toNat
  last : a.paddr.toNat < g.pbase + g.plen
  untimed : a.ten = false

theorem Blk.attachRefusal_eq_none {i clus aidx : Nat} {a : Attach} (h : a.Sound (tabGet {} (b.cl clus).regions a.region))
    (hkind : (b.stt i).kind.noProgram = false) (hcls : (b.stt i).rank.cls < 2#2) :
    b.attachRefusal b i clus aidx a = none := by
  obtain ⟨hbudget, hhist, htable, hvalid, hfirst, hlast, hten⟩ := h
  have htop : b.topClass b i ≠ 3#2 := by
    rw [show b.topClass b i = (b.stt i).rank.cls by simp [Blk.topClass]]
    rintro h3
    exact absurd (h3 ▸ hcls) (by decide)
  simp [Blk.attachRefusal, firstCase_eq_none, hkind, hbudget, hhist, htable, hvalid, hfirst, hlast, hten, htop]

section
variable (hs : b.rings.session = none) (hv : (b.stt (d.f 2 18 0)).valid = true)
  (hkind : (b.stt (d.f 2 18 0)).kind.noProgram = false) (hlive : b.classesLive = false)
include hs hv hkind hlive

theorem cmdAttach_attached (hcv : d.b 2 20 = true) (hkeep : d.b 2 21 = false) (htmin : d.attach.tmin ≠ 0)
    (hsound : d.attach.Sound (tabGet {} (b.cl (d.f 2 27 24)).regions d.attach.region))
    (hcls : (b.stt (d.f 2 18 0)).rank.cls < 2#2) : cmdAttach m d b =
      (b.attached (d.f 2 18 0) { cv := true, clus := d.f 2 27 24, aidx := d.f 3 9 0 } d.attach, .ok) := by
  simp [cmdAttach, Blk.mode_of_noSession hs, Blk.staging_of_noSession hs, Blk.apply_of_noSession hs, hv, hcv, hkeep, htmin,
    Blk.attachRefusal_eq_none hsound hkind hcls, hlive]
  rfl

theorem cmdAttach_detached (hcv : d.b 2 20 = false) : cmdAttach m d b =
      (b.modStt (d.f 2 18 0) (fun s => { s with clause := { (b.stt (d.f 2 18 0)).clause with cv := false } }), .ok) := by
  simp [cmdAttach, Blk.mode_of_noSession hs, Blk.staging_of_noSession hs, Blk.apply_of_noSession hs, hv, hcv, hkind, firstCase,
    hlive]
  rfl

end
end

/-! ### LOAD_CLAUSE (08 R333 to R339) -/

section
variable {b : Blk} {m : List Host.Cell} {d : Desc} {h : ImgHead} {ws : List Word} {clus line lines : Nat}

/-- The words that a run of lines in host memory holds. -/
def Blk.wordsAt (b : Blk) (m : List Host.Cell) (line lines : Nat) : List Word :=
  (List.range lines).flatMap (fun j => (List.range 16).map (lineWord (b.hostLine m (line + j))))

theorem Blk.lineWords_eq (b : Blk) (m : List Host.Cell) (line lines : Nat) :
    lineWords ((List.range lines).map (fun j => b.hostLine m (line + j))) = b.wordsAt m line lines := by
  rw [lineWords, List.flatMap_map]
  rfl

theorem Blk.length_wordsAt (b : Blk) (m : List Host.Cell) (line lines : Nat) : (b.wordsAt m line lines).length = 16 * lines := by
  simp [Blk.wordsAt, List.length_flatMap, Nat.mul_comm]

/-- Word `j` of an image's body, as a program or data word. -/
theorem getElem_body {j : Nat} (hj : 8 + j < ws.length) (hlen : j < ((ws.drop 8).map (fun w => w.setWidth 24)).length) :
    ((ws.drop 8).map (fun w => (w.setWidth 24 : Word24)))[j] = (ws.getD (8 + j) 0).setWidth 24 := by
  rw [List.getElem_map, List.getElem_drop, List.getD_eq_getElem _ _ hj]

/-- A written image stands in the program and the data SRAM. -/
theorem Cluster.writeImage_words (c : Cluster) (hlen : 8 + h.plen + h.dlen ≤ ws.length) :
    (∀ j < h.plen, (c.writeImage h ws).progWord (h.pbase + j) = (ws.getD (8 + j) 0).setWidth 24) ∧
    (∀ j < h.dlen, (c.writeImage h ws).dataWord (h.dbase + j) = (ws.getD (8 + h.plen + j) 0).setWidth 24) := by
  let body := (ws.drop 8).map (fun w => (w.setWidth 24 : Word24))
  have hbody : h.plen + h.dlen ≤ body.length := by
    rw [List.length_map, List.length_drop]
    omega
  let c1 := (body.take h.plen).zipIdx.foldl (fun c x => c.progPut (h.pbase + x.2) x.1) c
  have himage : c.writeImage h ws =
      ((body.drop h.plen).take h.dlen).zipIdx.foldl (fun c x => c.dataPut (h.dbase + x.2) x.1) c1 := rfl
  rw [himage]
  refine ⟨fun j hj => ?_, fun j hj => ?_⟩
  · obtain ⟨data, bad, hkeep⟩ := Cluster.foldl_dataPut_eq (fun x : Word24 × Nat => h.dbase + x.2) Prod.fst
      ((body.drop h.plen).take h.dlen).zipIdx c1
    rw [hkeep]
    have hj' : j < (body.take h.plen).length := by
      rw [List.length_take]
      omega
    refine (get_foldl_zipIdx Cluster.progWord_progPut hj' c).trans ?_
    rw [List.getElem_take]
    exact getElem_body (by omega) _
  · have hj' : j < ((body.drop h.plen).take h.dlen).length := by
      rw [List.length_take, List.length_drop]
      omega
    refine (get_foldl_zipIdx Cluster.dataWord_dataPut hj' c1).trans ?_
    rw [List.getElem_take, List.getElem_drop, Nat.add_assoc]
    exact getElem_body (by omega) _

/-- An image that holds a program, with words of 24 bits and the right check value. -/
structure ImgHead.Sound (h : ImgHead) (clus : Nat) (ws : List Word) : Prop where
  program : 0 < h.plen
  narrow : ∀ j < h.plen + h.dlen, (ws.getD (8 + j) 0).toNat < 2 ^ 24
  check : imgCheck clus h ws = h.check

theorem ImgHead.Sound.words (hw : h.Sound clus ws) :
    ((ws.drop 8).take (h.plen + h.dlen)).any (fun w => 2 ^ 24 ≤ w.toNat) = false := by
  rw [List.any_eq_false]
  intro w hmem
  obtain ⟨j, hj, rfl⟩ := List.getElem_of_mem hmem
  rw [List.length_take, List.length_drop] at hj
  have hnarrow := hw.narrow j (by omega)
  rw [List.getD_eq_getElem _ _ (by omega)] at hnarrow
  simpa [List.getElem_take, List.getElem_drop] using hnarrow

/-- The cluster without the regions that the image of this header touches. -/
def Cluster.evict (c : Cluster) (h : ImgHead) : Cluster :=
  { c with regions := tabMap {} (fun n g => if c.touches h n then {} else g) c.regions }

/-- The region of a loaded program. -/
def ImgHead.extent (h : ImgHead) : Region := { valid := true, pbase := h.pbase, plen := h.plen }

/-- The block after an image was written, and its lines were read `lines` times for it. -/
def Blk.imaged (b : Blk) (clus lines : Nat) (h : ImgHead) (ws : List Word) : Blk :=
  ((b.modCl clus (fun c => c.evict h)).missed lines).modCl clus (fun c => c.writeImage h ws)

/-- The block after the program's region became valid. -/
def Blk.loaded (b : Blk) (clus lines : Nat) (h : ImgHead) (ws : List Word) : Blk :=
  let c := b.imaged clus lines h ws
  ({ c with ecc := { c.ecc with regBad := setDel c.ecc.regBad (64 * clus + h.region) } } : Blk).modCl clus (fun c =>
    { c with regions := tabSet {} c.regions h.region h.extent })

theorem Blk.cl_missed (b : Blk) (n c : Nat) : (b.missed n).cl c = b.cl c := by
  obtain ⟨v, hv⟩ := b.missed_eq n
  rw [hv]
  rfl

theorem Blk.cl_imaged (b : Blk) (clus lines : Nat) (h : ImgHead) (ws : List Word) :
    (b.imaged clus lines h ws).cl clus = ((b.cl clus).evict h).writeImage h ws := by
  rw [Blk.imaged, Blk.cl_modCl_self, Blk.cl_missed, Blk.cl_modCl_self]

theorem Blk.cl_loaded (b : Blk) (clus lines : Nat) (h : ImgHead) (ws : List Word) :
    (b.loaded clus lines h ws).cl clus = { (b.imaged clus lines h ws).cl clus with
      regions := tabSet {} ((b.imaged clus lines h ws).cl clus).regions h.region h.extent } :=
  Blk.cl_modCl_self ..

/-- A loaded image: its region is valid, and every word of it stands in its place. -/
theorem Blk.loaded_words (b : Blk) (hlen : 8 + h.plen + h.dlen ≤ ws.length) :
    tabGet {} ((b.loaded clus lines h ws).cl clus).regions h.region = h.extent ∧
    (∀ j < h.plen, ((b.loaded clus lines h ws).cl clus).progWord (h.pbase + j) = (ws.getD (8 + j) 0).setWidth 24) ∧
    (∀ j < h.dlen,
      ((b.loaded clus lines h ws).cl clus).dataWord (h.dbase + j) = (ws.getD (8 + h.plen + j) 0).setWidth 24) := by
  have hwords := ((b.cl clus).evict h).writeImage_words hlen
  rw [← b.cl_imaged clus lines h ws] at hwords
  rw [Blk.cl_loaded]
  refine ⟨?_, hwords⟩
  dsimp only
  exact tabGet_tabSet_self ..

theorem Blk.leavesPorts_loaded (b : Blk) (clus lines : Nat) (h : ImgHead) (ws : List Word) :
    b.LeavesPorts (b.loaded clus lines h ws) ∧ (b.loaded clus lines h ws).lc.bufs = b.lc.bufs := by
  obtain ⟨v, hv⟩ := (b.modCl clus (fun c => c.evict h)).missed_eq lines
  rw [Blk.loaded, Blk.imaged, hv]
  exact ⟨⟨rfl, rfl, rfl, rfl⟩, rfl⟩

theorem Blk.loadStep3_loaded (hw : b.Writes) (hfree : b.regionsInUse clus = [])
    (hsound : h.Sound clus (b.wordsAt m line lines)) :
    b.loadStep3 m clus line lines h = (b.loaded clus lines h (b.wordsAt m line lines), .ok) := by
  have hplen : h.plen ≠ 0 := Nat.pos_iff_ne_zero.1 hsound.program
  have hw' : (b.modCl clus (fun c => c.evict h)).Writes :=
    ⟨hw.noInject, hw.noCache, hw.noHeld, hw.noBufs, hw.noWrites, hw.noRecs, hw.noFail⟩
  have hread : (b.modCl clus (fun c => c.evict h)).readLines m line lines =
      ((b.modCl clus (fun c => c.evict h)).missed lines, (List.range lines).map (fun j => b.hostLine m (line + j)), true) :=
    hw'.readLines m lines line
  have hevict : b.modCl clus (fun c => if h.plen = 0 then c else
      { c with regions := tabMap {} (fun n g => if c.touches h n then {} else g) c.regions }) =
      b.modCl clus (fun c => c.evict h) := by
    simp only [hplen, if_false]
    rfl
  simp only [Blk.loadStep3, hfree]
  rw [hevict, hread]
  simp [Blk.lineWords_eq, hsound.check, hplen]
  rfl

theorem Blk.regionsInUse_missed (hs : b.rings.session = none) (n c : Nat) :
    (b.missed n).regionsInUse c = b.regionsInUse c := by
  obtain ⟨v, hv⟩ := b.missed_eq n
  rw [hv]
  simp only [Blk.regionsInUse, hs]
  rfl

theorem Blk.regionsInUse_fetched (hs : b.rings.session = none) (k c : Nat) :
    (b.fetched k).regionsInUse c = b.regionsInUse c := by
  have hs' : (b.fetched k).rings.session = none := hs
  simp only [Blk.regionsInUse, hs, hs']
  rfl

theorem cmdLoadClause_loaded (hs : b.rings.session = none) (hw : b.Writes) (hhead : imgHead (b.hostLine m (d.lineAt 3)) = some h)
    (hfree : b.regionsInUse (d.f 2 3 0) = [])
    (hsound : h.Sound (d.f 2 3 0) (b.wordsAt m (d.lineAt 3) (ceilDiv (8 + h.plen + h.dlen) 16))) :
    let lines := ceilDiv (8 + h.plen + h.dlen) 16
    cmdLoadClause m d b =
      ((b.missed (lines + 1)).loaded (d.f 2 3 0) lines h (b.wordsAt m (d.lineAt 3) lines), .ok) := by
  intro lines
  have hwords (n : Nat) : (b.missed n).wordsAt m (d.lineAt 3) lines = b.wordsAt m (d.lineAt 3) lines := by
    simp only [Blk.wordsAt, Blk.hostLine_missed]
  have hread : (b.missed 1).readLines m (d.lineAt 3) lines =
      (b.missed (lines + 1), (List.range lines).map (fun j => b.hostLine m (d.lineAt 3 + j)), true) := by
    rw [(hw.missed 1).readLines]
    simp only [Blk.hostLine_missed, Blk.missed_missed]
  have hstep := Blk.loadStep3_loaded (b := b.missed (lines + 1)) (m := m) (line := d.lineAt 3) (lines := lines) (h := h)
    (clus := d.f 2 3 0) (hw.missed _) ?free (by rw [hwords]; exact hsound)
  case free => rw [Blk.regionsInUse_missed hs, hfree]
  rw [hwords] at hstep
  simp only [cmdLoadClause, hw.readOnce, hhead]
  rw [hread]
  simp only [Blk.lineWords_eq]
  rw [hsound.words]
  simp [hsound.check, lines]
  exact hstep

end

/-! ### The descriptors -/

theorem Blk.cl_withAnswer (c : Blk) (k : Nat) (data : BitVec 512) (n : Nat) : (c.withAnswer k data).cl n = c.cl n := rfl

section
variable {s : State} {k : Nat} {d : Desc} (hs : s.blk.rings.session = none)
include hs

section
variable (h : s.blk.Takes s.mem k 0x07 d) (hlive : s.blk.classesLive = false) {t : Stt} (ht : s.blk.stt (d.f 2 18 0) = t)
  (hv : t.valid = true) (hkind : t.kind = .msi ∨ t.kind = .data ∨ t.kind = .edge)
include h hlive ht hv hkind

theorem exec_attachClause_attached (hcv : d.b 2 20 = true) (hkeep : d.b 2 21 = false) (htmin : d.attach.tmin ≠ 0)
    (hsound : d.attach.Sound (tabGet {} (s.blk.cl (d.f 2 27 24)).regions d.attach.region)) (hcls : t.rank.cls < 2#2) :
    ∃ b, (exec (.attachClause (.mgr k)) s = s.becomes b ∧ s.blk.Answers b d 0 0 []) ∧
      tabGet {} (b.cl (d.f 2 27 24)).att (d.f 3 9 0) = d.attach ∧
      b.stt (d.f 2 18 0) = { t with clause := { cv := true, clus := d.f 2 27 24, aidx := d.f 3 9 0 } } ∧
      (∀ j < d.attach.hlen, (b.cl (d.f 2 27 24)).dataWord (d.attach.hbase + j) = 0) ∧
      (∀ j, j < d.attach.hbase ∨ d.attach.hbase + d.attach.hlen ≤ j →
        (b.cl (d.f 2 27 24)).dataWord j = (s.blk.cl (d.f 2 27 24)).dataWord j) := by
  subst ht
  let r : ClauseAtt := { cv := true, clus := d.f 2 27 24, aidx := d.f 3 9 0 }
  let c := (s.blk.fetched k).attached (d.f 2 18 0) r d.attach
  have hcmd : cmdAttach s.mem d (s.blk.fetched k) = (c, .ok) :=
    cmdAttach_attached (b := s.blk.fetched k) hs hv (SrcKind.noProgram_eq_false hkind) hlive hcv hkeep htmin hsound hcls
  obtain ⟨hports, hlc⟩ := (s.blk.fetched k).leavesPorts_attached (d.f 2 18 0) r d.attach
  obtain ⟨data, hdata⟩ := exec_descriptor_answered h rfl (x := .attachClause (.mgr k)) rfl hcmd hports
    ((congrArg LCache.bufs hlc).trans h.noBufs)
  obtain ⟨hzero, hrest⟩ := (s.blk.fetched k).dataWord_attached (d.f 2 18 0) r d.attach
  exact ⟨_, hdata, (s.blk.fetched k).att_attached (d.f 2 18 0) r d.attach,
    Blk.stt_attached (b := s.blk.fetched k) hv r d.attach, hzero, hrest⟩

theorem exec_attachClause_detached (hcv : d.b 2 20 = false) :
    ∃ b, (exec (.attachClause (.mgr k)) s = s.becomes b ∧ s.blk.Answers b d 0 0 []) ∧
      b.stt (d.f 2 18 0) = { t with clause := { t.clause with cv := false } } ∧ b.cls = s.blk.cls := by
  subst ht
  have hcmd := cmdAttach_detached (b := s.blk.fetched k) (m := s.mem) hs hv (SrcKind.noProgram_eq_false hkind) hlive hcv
  obtain ⟨data, hdata⟩ := exec_descriptor_answered h rfl (x := .attachClause (.mgr k)) rfl hcmd (Blk.leavesPorts_modStt ..)
    h.noBufs
  exact ⟨_, hdata, Blk.stt_modStt_self (b := s.blk.fetched k) hv _, rfl⟩

end

theorem exec_loadClause (h : s.blk.Takes s.mem k 0x06 d) {x : ImgHead} {lines : Nat}
    (hlines : lines = ceilDiv (8 + x.plen + x.dlen) 16) (hhead : imgHead (s.blk.hostLine s.mem (d.lineAt 3)) = some x)
    (hfree : s.blk.regionsInUse (d.f 2 3 0) = []) (hsound : x.Sound (d.f 2 3 0) (s.blk.wordsAt s.mem (d.lineAt 3) lines)) :
    let ws := s.blk.wordsAt s.mem (d.lineAt 3) lines
    ∃ b, (exec (.loadClause (.mgr k)) s = s.becomes b ∧ s.blk.Answers b d 0 0 []) ∧
      tabGet {} (b.cl (d.f 2 3 0)).regions x.region = x.extent ∧
      (∀ j < x.plen, (b.cl (d.f 2 3 0)).progWord (x.pbase + j) = (ws.getD (8 + j) 0).setWidth 24) ∧
      (∀ j < x.dlen, (b.cl (d.f 2 3 0)).dataWord (x.dbase + j) = (ws.getD (8 + x.plen + j) 0).setWidth 24) := by
  intro ws
  subst hlines
  let lines := ceilDiv (8 + x.plen + x.dlen) 16
  have hcmd : cmdLoadClause s.mem d (s.blk.fetched k) =
      (((s.blk.fetched k).missed (lines + 1)).loaded (d.f 2 3 0) lines x ws, .ok) :=
    cmdLoadClause_loaded (b := s.blk.fetched k) hs h.toWrites.fetched hhead ((Blk.regionsInUse_fetched hs k _).trans hfree) hsound
  obtain ⟨hports, hbufs⟩ := ((s.blk.fetched k).missed (lines + 1)).leavesPorts_loaded (d.f 2 3 0) lines x ws
  have hnoBufs : (((s.blk.fetched k).missed (lines + 1)).loaded (d.f 2 3 0) lines x ws).lc.bufs = [] := by
    rw [hbufs, Blk.bufs_missed]
    exact h.noBufs
  obtain ⟨data, hdata⟩ := exec_descriptor_answered h rfl (x := .loadClause (.mgr k)) rfl hcmd
    ((Blk.leavesPorts_missed ..).trans hports) hnoBufs
  have hlen : 8 + x.plen + x.dlen ≤ ws.length := by
    rw [Blk.length_wordsAt, ceilDiv]
    omega
  refine ⟨_, hdata, ?_⟩
  simp only [Blk.cl_withAnswer]
  exact ((s.blk.fetched k).missed (lines + 1)).loaded_words hlen

end

/-- Settles O39: each form of the commands is followed to the block that it leaves, on which its descriptor is answered. -/
theorem routesAndPrograms : Obligations.RoutesAndPrograms := by
  unfold Obligations.RoutesAndPrograms
  intro s k d _ hs hlive b0 answers i t dom steady turned live shadow fits
  refine ⟨?entry, ?group, ?attach, ?clause, ?load⟩
  case entry =>
    intro htakes hform hsteady r hfixed hgroup
    obtain ⟨hresync, hold, hr, hg⟩ := hsteady
    obtain ⟨b, hb, ⟨hepoch, hre, hscan⟩, hrt⟩ :=
      exec_setRoute_entry htakes hs hlive hform hresync hold hr hg hfixed hgroup
    have hroute (j : Nat) : b.liveRoute j = if j = d.f 2 12 0 then r else shadow.route j :=
      (congrArg (RtCopy.route · j) hrt).trans (d.route_writeRoute ..)
    exact ⟨b, hb, ⟨hepoch, hre, hscan⟩, (hroute _).trans (if_pos rfl), fun j hj => (hroute j).trans (if_neg hj)⟩
  case group =>
    intro htakes hform hsteady at_ mask ms hcheck hfits
    obtain ⟨hresync, hold, hr, hg⟩ := hsteady
    obtain ⟨b, hb, ⟨hepoch, hre, hscan⟩, hrt⟩ :=
      exec_setRoute_group htakes hs hlive hform hresync hold hr hg (l := mask) rfl hcheck hfits
    exact ⟨b, hb, ⟨hepoch, hre, hscan⟩, (congrArg (RtCopy.group · (d.f 2 10 0)) hrt).trans (d.group_writeGroup _)⟩
  case attach =>
    intro htakes hform hv hkind hcls hdom
    exact exec_setRoute_attach htakes hs hlive hform rfl hv hkind hcls hdom
  case clause =>
    intro clus aidx a g
    refine ⟨fun htakes hcv hkeep hv hkind hbudget hhist htable htmin hvalid hfirst hlast hten hcls => ?attached,
      fun htakes hcv hv hkind => exec_attachClause_detached hs htakes hlive rfl hv hkind hcv⟩
    exact exec_attachClause_attached hs htakes hlive rfl hv hkind hcv hkeep htmin
      ⟨hbudget, hhist, htable, hvalid, hfirst, hlast, hten⟩ hcls
  case load =>
    intro htakes x hhead clus ws hplen hnarrow hcheck hfree
    exact exec_loadClause hs htakes (lines := (8 + x.plen + x.dlen + 15) / 16) rfl hhead hfree ⟨hplen, hnarrow, hcheck⟩

end Sys2Proof.Machine
